-- ==== Sys2Proof/Word.lean ====
section
/-! DEFINITION. The plainest data of the LN7300 model: bytes, byte strings and the widths of its registers. -/

namespace Sys2Proof

/-- One byte (R5, R6). -/
abbrev Byte := BitVec 8

/-- A byte string, the byte at offset 0 first (R6). -/
abbrev Bytes := List Byte

/-- A 32-bit register value. -/
abbrev Word32 := BitVec 32

/-- A 64-bit register value. -/
abbrev Word64 := BitVec 64

end Sys2Proof
end

