-- ==== Sys2Proof/Syntax.lean ====
section
/-! DEFINITION. The commands the LN7300 takes: one constructor per row of the command table, and the data they carry. -/

namespace Sys2Proof

/-- How a read that the shuttle makes in host memory ends (R92, R376). -/
inductive HostRead where
  | data (bytes : Bytes)
  | unsupportedRequest
  | completerAbort
  | poisoned
  | timeout
  deriving DecidableEq, Repr, Inhabited

/-- Which part of a 64-bit register one read returns (R8). -/
inductive Half where
  | both | low | high
  deriving DecidableEq, Repr, Inhabited

/-- A transport packet and the addresses it travels between (R117 to R122): `body` runs from the transport header to the ICV. -/
structure Packet where
  ipVer : Nat
  srcMac : BitVec 48
  dstMac : BitVec 48
  srcIp : Bytes
  dstIp : Bytes
  body : Bytes
  deriving DecidableEq, Repr, Inhabited

/-- For whom the shuttle reads host memory: a ring command's input, the source of a work request or the answer to a READ_REQ, by
connection and message (R127, R137, R379). -/
inductive Reader where
  | command (cid : Nat)
  | source (conn msgId : Nat)
  | answer (conn msgId : Nat)
  deriving DecidableEq, Repr, Inhabited

/-- Why a received Ethernet frame is refused (R115), or a transport header that names no packet type (R119). -/
inductive FrameFault where
  | pause | tooLong | vlan | ipv6Extension | ipv4Options | fragment | checksum | icmp | otherPort
  | header
  deriving DecidableEq, Repr, Inhabited

/-- What the power-up checks of R426 find in the parts of this module: the outcome of each step that can fail. -/
structure Health where
  /-- Step 2: the 8 V bus settles; step 3: the rails settle. -/
  busGood : Bool
  railsGood : Bool
  /-- Step 5: the ROM self-test passes. -/
  romGood : Bool
  /-- Step 8: processors that pass (bit i is CPi). -/
  cpsGood : BitVec 5
  /-- Step 9: channels of each stack that train and check. -/
  channelsGood : List (BitVec 34)
  /-- Step 10: cores that pass the reset check, and channels of each crossing and direction that pass the wire test. -/
  coresGood : BitVec 36
  crossingsGood : List Word64
  deriving DecidableEq, Repr, Inhabited

/-- A BAR4 access within one staging entry: a read of so many bytes, or a write, which may arrive poisoned (R360, R376). -/
inductive StagingAccess where
  | load (len : Nat)
  | store (data : Bytes) (poisoned : Bool)
  deriving DecidableEq, Repr, Inhabited

/-- A bobbin line in which patrol scrub finds errors: its device address, and the wrong bytes of its 72-byte codeword by position with
the difference that each shows (R356, R358). -/
structure LineErrors where
  addr : Nat
  errors : List (Nat × Byte)
  deriving DecidableEq, Repr, Inhabited

/-- What an SRAM codeword holds (R355, R359). -/
inductive SramUse where
  /-- A splice tile: envelope and segment. -/
  | splice (msg segment : Nat)
  /-- A line of a bank: group, and true for bank B. -/
  | bank (group : Nat) (isB : Bool)
  /-- A mask sum or token set of a ledger. -/
  | ledger (ledger : Nat)
  /-- A table slot of a heddle: true for slot 1. -/
  | table (heddle : Nat) (one : Bool)
  /-- POLY scratch. -/
  | scratch
  deriving DecidableEq, Repr, Inhabited

/-- An SRAM codeword in which patrol scrub finds errors: core, bank, row, and the wrong bytes of its 36-byte codeword. -/
structure RowErrors where
  core : Nat
  bank : Nat
  row : Nat
  holds : SramUse
  errors : List (Nat × Byte)
  deriving DecidableEq, Repr, Inhabited

/-- What a pass of patrol scrub finds, and the stacks whose pass ended late (R358). -/
structure ScrubFindings where
  lines : List LineErrors
  rows : List RowErrors
  late : List Nat
  deriving DecidableEq, Repr, Inhabited


/-- Lines that a bobbin test overwrote: a stack's 256-byte units with one remainder modulo a number of channels, and the test's number. -/
structure TestedLines where
  stack : Nat
  modulus : Nat
  slot : Nat
  test : Nat
  deriving DecidableEq, Repr, Inhabited

/-- A PCIe configuration request: a read of the double word at an offset, or a write of the bytes that a mask selects (R365, R366). -/
inductive ConfigAccess where
  | load (offset : Nat)
  | store (offset : Nat) (mask value : Word32)
  deriving DecidableEq, Repr, Inhabited

/-- What link training finds (R385): the good lanes of both ends, and what the peer sends of itself. -/
structure WarpPeer where
  good : BitVec 9
  peerGood : BitVec 9
  idHash : Bytes
  setId : Bytes
  member : Nat
  deriving DecidableEq, Repr, Inhabited

/-- A unit as R410 numbers it. `part` names a reed lane, a heddle column or a crossing wire that the detector localises, and `upper`
the direction of a crossing channel towards its higher-numbered field. -/
structure FaultSite where
  kind : Nat
  unit : Nat
  part : Option Nat
  upper : Bool
  deriving DecidableEq, Repr, Inhabited

/-- What the checker of one lane finds in a LINK_TEST (R439). -/
structure LaneResult where
  bits : Nat
  errors : Nat
  locked : Bool
  deriving DecidableEq, Repr, Inhabited

/-- The work that a tile is (R35, R332): a station's by its ID, receipts, seeded expansion, a table build (raised by R223 or not), patrol
scrub (raised by R358 or not), or dailies. -/
inductive TileWork where
  | station (id : Nat)
  | receipts
  | expansion
  | tableBuild (raised : Bool)
  | scrub (raised : Bool)
  | dailies
  deriving DecidableEq, Repr, Inhabited

/-- A tile that is ready for dispatch in a budget window (R332 to R336): its work, the class that its command's slate asks for (R76; 0 for
the work's own), the field that runs it, and its cost at 0.75 V in femtojoules, which is R333's cost per unit times the count. -/
structure ReadyTile where
  work : TileWork
  lowered : Nat
  field : Nat
  costFj : Nat
  deriving DecidableEq, Repr, Inhabited

/-- What the power controller measures at the start of a budget window (R329, R335): temperatures in quarters of a degree. -/
structure WindowReading where
  fieldTemps : List Int
  bobbinTemps : List Int
  input10mv : Nat
  /-- Input energy of the window that ended, in microjoules, and the means of the rail powers in milliwatts. -/
  inputUj : Nat
  dieMw : Nat
  bobbinMw : Nat
  /-- Tiles ready in the new window, in ready order. -/
  tiles : List ReadyTile
  deriving DecidableEq, Repr, Inhabited

/-- A command of the block: one constructor per row of the command table. -/
inductive Instr where
  /-- POWER_APPLIED (R426). The input stays at or above 54 V for 1 ms and the power-up sequence runs its steps in order. -/
  | powerApplied
  /-- INPUT_EXCURSION (R325). The input lies between 50 V and 54 V, or between 66 V and 70 V, for 1 ms; the cap falls to 250 W and INPUT_LIMIT is set. -/
  | inputExcursion (input10mv : Nat)
  /-- INPUT_BACK_IN_RANGE (R325). The input stays within 54 V to 66 V for 100 ms; INPUT_LIMIT clears. -/
  | inputBackInRange (input10mv : Nat)
  /-- INPUT_OUT_OF_RANGE (R325). The input lies below 50 V or above 70 V for 1 ms; every rail turns off and all powered state is lost. -/
  | inputOutOfRange
  /-- INPUT_REMOVED (R427). The input is removed, which is a power reset losing everything but fuses and flash. -/
  | inputRemoved
  /-- INTERMEDIATE_BUS_RETRY (R426). After a failed rail start the input stage retries every 100 ms. -/
  | intermediateBusRetry (busGood railsGood : Bool)
  /-- OSC_TRIM (R21). Each local oscillator is trimmed against the PCIe reference every 10 ms while the reference is present. -/
  | oscTrim
  /-- PTIME_MIRROR_UPDATE (R23). Vilmin updates every field's PTIME mirror once per microsecond. -/
  | ptimeMirrorUpdate
  /-- SEC_PTIME_LOW_READ (R22). A 32-bit read of SEC_PTIME bits [31:0] latches bits [63:32] into a shadow. -/
  | secPtimeLowRead
  /-- SEC_PTIME_HIGH_READ (R22). A 32-bit read of offset 0x0014 returns the shadow once after a low read, and the live high bits otherwise. -/
  | secPtimeHighRead
  /-- PWR_OK_QUALIFY (R429). PWR_OK is stable high for 10 ms and qualifies, letting power-up step 4 run. -/
  | pwrOkQualify
  /-- ZEROIZE_N_ASSERT (R302). A qualified ZEROIZE_N assertion erases tenant state and the enrolment pair, and closes the tenant. -/
  | zeroizeNAssert
  /-- ZEROIZE_N_RELEASE (R302). The qualified release of ZEROIZE_N generates an enrolment pair. -/
  | zeroizeNRelease
  /-- HOT_IN_N_ASSERT (R342). HOT_IN_N qualifies asserted and the effective cap falls to 250 W. -/
  | hotInNAssert
  /-- HOT_IN_N_RELEASE (R342). The release of HOT_IN_N qualifies and the cap returns to the lower of the host and sideband caps. -/
  | hotInNRelease
  /-- THERM_TRIP_N_EXTERNAL (R330). THERM_TRIP_N asserted from outside qualifies and the device trips. -/
  | thermTripNExternal
  /-- VIO_3V3_LOSS (R448). VIO_3V3 falls below 2.0 V on a powered module, so the pulled-up inputs read low. -/
  | vio3v3Loss
  /-- PERST_N_ASSERT (R428). PERST_N qualifies asserted and the device enters PERST_N warm reset. -/
  | perstNAssert
  /-- PERST_N_RELEASE (R428). The release of PERST_N qualifies, the warm reset ends and configuration becomes ready. -/
  | perstNRelease
  /-- SIDEBAND_UNQUALIFIED (R429). An assertion that passed the glitch filter ends before it qualifies and is counted. -/
  | sidebandUnqualified (input : Nat)
  /-- HOT_RESET_OR_DL_DOWN (R375). A Hot Reset or a DL_Down transition acts as a PERST_N warm reset. -/
  | hotResetOrDlDown
  /-- FLR (R374). A write of Initiate Function Level Reset discards shuttle transfers and resets the function within 100 ms. -/
  | flr
  /-- CONFIG_REQUEST (R368). A PCIe configuration request is answered, or completes with Configuration Request Retry Status until configuration is ready. -/
  | configRequest (access : ConfigAccess)
  /-- POWER_STATE_CHANGE (R373). The function enters or leaves D3hot, or Bus Master Enable or Memory Space Enable changes. -/
  | powerStateChange (busMaster memSpace d3hot : Bool)
  /-- PCIE_LINK_RETRAIN (R367). The link retrains, at software's direction or after a failure, possibly to x8. -/
  | pcieLinkRetrain (speed : BitVec 3) (width : BitVec 5)
  /-- REGISTER_WRITE (R8). A write to a BAR0 or BAR2 register that has no row of its own takes effect as its access code states. -/
  | registerWrite (bar2 : Bool) (offset : Nat) (wide poisoned : Bool) (value : Word64)
  /-- BAR_BAD_ACCESS (R370). A BAR0 or BAR2 access of a wrong size or alignment completes with zeros or is discarded, and is counted. -/
  | barBadAccess (bar2 : Bool) (offset : BitVec 26) (store : Bool)
  /-- STAGING_ACCESS (R360). A BAR4 read or write reaches the mapped device address, or counts a miss for an unmapped entry. -/
  | stagingAccess (offset : Nat) (access : StagingAccess)
  /-- MSIX_VECTOR_UNMASK (R372). A vector with its pending bit set becomes unmasked, and one message is sent. -/
  | msixVectorUnmask (vector : Nat)
  /-- VECTOR_DELAY_EXPIRY (R113). A vector's DELAY_US passes after its first pending record and the vector signals. -/
  | vectorDelayExpiry (vector : Nat)
  /-- SQ_DOORBELL (R67). A write of HST_SQ_DOORBELL gives a new submission tail, with a range check. -/
  | sqDoorbell (ring : Nat) (value : Word32)
  /-- CQ_DOORBELL (R67). A write of HST_CQ_DOORBELL returns completion slots, with a range check. -/
  | cqDoorbell (ring : Nat) (value : Word32)
  /-- RING_ENABLE (R64). Writing ENABLE 1 in HST_RING_CTRL checks the configuration and enables the ring, or sets CONFIG. -/
  | ringEnable (ring : Nat) (value : Word32)
  /-- RING_DISABLE (R65). Writing ENABLE 0 moves the ring to STOPPING, and it becomes DISABLED when OUTSTANDING reaches 0. -/
  | ringDisable (ring : Nat) (value : Word32)
  /-- SLATE_FETCH (R72). The device fetches a slate from a ring in tier order and makes checks 1 to 4. -/
  | slateFetch (r : HostRead)
  /-- SLATE_PHASE_REREAD (R66). 2 µs after a phase mismatch, the slot is read again, and STALE_SLATE is set if it still differs. -/
  | slatePhaseReread (ring : Nat) (r : HostRead)
  /-- COMMAND_START (R77). A fetched command starts after its fence, ordering and dependency waits, and makes checks 5 to 11. -/
  | commandStart (cid : Nat) (block : HostRead)
  /-- COMMAND_TIMEOUT (R86). A command's timeout passes before its commit point, and it completes with TIMEOUT and no effect. -/
  | commandTimeout (cid : Nat)
  /-- CQ_RECORD_WRITE (R69). A completion record waiting for CQ space is written with its phase, and CQ_TAIL advances. -/
  | cqRecordWrite (ring : Nat)
  /-- NOP (R90). The command does nothing and completes with OK. -/
  | nop (cid : Nat)
  /-- IDENTIFY (R95). The command writes the 512-byte identity and unit record. -/
  | identify (cid : Nat)
  /-- SET_HOST_TIME (R96). The command stores an opaque wall-clock claim with its PTIME. -/
  | setHostTime (cid : Nat)
  /-- CMD_ABORT (R89). The command aborts outstanding commands of a ring and tag that are not past their commit point. -/
  | cmdAbort (cid : Nat)
  /-- TENANT_OPEN (R292). The command opens a tenant from a sealed TRS and policy. -/
  | tenantOpen (cid : Nat)
  /-- TENANT_HANDOVER (R301). The command aborts the old tenant's commands, erases tenant state and starts the thermal settle. -/
  | tenantHandover (cid : Nat)
  /-- HANDOVER_SETTLE_END (R301). The settle converges, or reaches 10 s; the enrolment pair is generated and the handover completes.
  `settled` says which of the two it comes for. -/
  | handoverSettleEnd (settled : Bool) (fresh0 fresh1 : Bytes)
  /-- TENANT_POLICY_SET (R293). The command replaces the tenant policy and POLICY_MEAS. -/
  | tenantPolicySet (cid : Nat)
  /-- JOB_OPEN (R295). The command opens a job with its sealed JSEC, ingest section and a new ML-KEM pair. -/
  | jobOpen (cid : Nat)
  /-- JOB_CLOSE (R55). The command closes every group of the job, its connections and its regions. -/
  | jobClose (cid : Nat)
  /-- TAKE_OPEN (R52). The command makes one bank of each group FILLING for a new take, or waits for ZERO banks. -/
  | takeOpen (cid : Nat)
  /-- TAKE_OPEN_RESUME (R52). A waiting TAKE_OPEN finds a ZERO bank in every group and opens the take. -/
  | takeOpenResume (cid : Nat)
  /-- TAKE_CLOSE (R52). The command places a drain barrier in every group of the job, or waits for a seed ledger. -/
  | takeClose (cid : Nat)
  /-- TAKE_CLOSE_BARRIER (R200). A waiting TAKE_CLOSE places its barrier once a seed ledger is freed, and forms the take's ledger. -/
  | takeCloseBarrier (cid : Nat)
  /-- TAKE_ABORT (R52). The command places the close barrier and discards the job's FILLING and DRAINING banks. -/
  | takeAbort (cid : Nat)
  /-- SET_BUDGET (R340). The command sets the host cap and V_MAX and returns C, V_MAX and R. -/
  | setBudget (cid : Nat)
  /-- REGION_REGISTER (R126). The command registers a region and returns its key. -/
  | regionRegister (cid : Nat)
  /-- REGION_REVOKE (R140). The command moves a region to REVOKING at one point in the key-check order. -/
  | regionRevoke (cid : Nat)
  /-- REGION_FREED (R140). A revoking region's in-flight count reaches zero; it is freed and REGION_REVOKE completes. -/
  | regionFreed (index : Nat)
  /-- CONN_OPEN (R124). The command creates a listener, or starts an active connection with CONNECT_REQ. -/
  | connOpen (cid : Nat)
  /-- CONN_CLOSE (R125). The command closes a connection or a listener and sends DISCONNECT. -/
  | connClose (cid : Nat)
  /-- DISCONNECT_FREE_TIMER (R125). 10 ms after a DISCONNECT was sent without acknowledgement, the connection number is freed. -/
  | disconnectFreeTimer (conn : Nat)
  /-- WR_POST (R137). The command accepts a list of work requests, or none of them. -/
  | wrPost (cid : Nat)
  /-- WR_CANCEL (R139). The command aborts the unstarted work requests that match. -/
  | wrCancel (cid : Nat)
  /-- WR_START (R138). A work request starts in posting order once its trigger threshold or fence is met, and takes the next MSG_ID. -/
  | wrStart (conn : Nat)
  /-- STAGING_MAP (R360). The command maps or unmaps a BAR4 staging entry. -/
  | stagingMap (cid : Nat)
  /-- SCRUB_CONFIGURE (R358). The command sets the patrol scrub period for bobbin memory or SRAM. -/
  | scrubConfigure (cid : Nat)
  /-- GRAPH_LOAD (R42). The command validates a station graph and replaces the job's graph. -/
  | graphLoad (cid : Nat)
  /-- GROUP_OPEN (R45). The command opens a group, zeroes both banks and places its slices. -/
  | groupOpen (cid : Nat)
  /-- GROUP_DRAIN (R53). The command asks for a drain barrier in one group, waiting for the other bank to be ZERO. -/
  | groupDrain (cid : Nat)
  /-- DRAIN_BARRIER_ACCEPTED (R53). The commit arbiter accepts a waiting drain barrier, records D and makes the other bank FILLING. -/
  | drainBarrierAccepted (cid : Nat)
  /-- GROUP_CLOSE (R55). The command erases both banks, frees the group and withdraws a graph that serves it. -/
  | groupClose (cid : Nat)
  /-- ACC_CONFIGURE (R176). The command sets FRAC and clipping for a group. -/
  | accConfigure (cid : Nat)
  /-- ACC_COMBINE (R188). The command names the sources whose partials are combined into a FINAL bank. -/
  | accCombine (cid : Nat)
  /-- ACC_COMBINE_DONE (R190). The combine of all sources into the bank ends and ACC_COMBINE completes. -/
  | accCombineDone (cid : Nat)
  /-- MASK_CONFIGURE (R199). The command sets PRG and THRESH for a mode-M job. -/
  | maskConfigure (cid : Nat)
  /-- MASK_SEEDS_SUBMIT (R203). The command rebuilds seeds from shares, applies the seed rule and queues regeneration items. -/
  | maskSeedsSubmit (cid : Nat)
  /-- MASK_REGEN_TILE (R205). A regeneration work item adds one mask tile to the slice's mask sum and advances its index. -/
  | maskRegenTile (ledger item : Nat)
  /-- MASK_REMOVE (R207). The command seals the take's ledger and waits for the group's regeneration items. -/
  | maskRemove (cid : Nat)
  /-- MASK_REMOVE_UNMASK (R208). Once every item has finished, UNMASK writes B − A to GATE and MASK_REMOVE completes. -/
  | maskRemoveUnmask (cid : Nat)
  /-- POLY_PARAMS_LOAD (R219). The command checks and stores a heddle parameter set. -/
  | polyParamsLoad (cid : Nat)
  /-- POLY_TABLE_BUILD (R222). The command defines or names a table version and starts builds on every heddle. -/
  | polyTableBuild (cid : Nat)
  /-- TABLE_LIMB_BUILT (R222). A heddle's table unit finishes a limb twice and compares the results. -/
  | tableLimbBuilt (heddle : Nat) (slot1 agree : Bool)
  /-- TABLE_BUILD_DONE (R222). Every heddle in service holds the version READY, and POLY_TABLE_BUILD completes. -/
  | tableBuildDone (cid : Nat)
  /-- POLY_KEY_LOAD (R232). The command loads a key object after its hash, length and seal checks. -/
  | polyKeyLoad (cid : Nat)
  /-- POLY_OBJECT_FREE (R232). A POLY_KEY_LOAD free admits no new users of the object from its acceptance. -/
  | polyObjectFree (cid : Nat)
  /-- POLY_OBJECT_ERASE (R232). The last user of an object being freed completes, and its data is erased. -/
  | polyObjectErase (object : Nat)
  /-- POLY_NTT (R241). The command transforms an object forward or inverse. -/
  | polyNtt (cid : Nat)
  /-- POLY_ADD (R241). The command adds two ciphertext objects element-wise. -/
  | polyAdd (cid : Nat)
  /-- POLY_KEYSWITCH (R242). The command switches a ciphertext to the key's target. -/
  | polyKeyswitch (cid : Nat)
  /-- POLY_MODRED (R244). The command drops limbs from a ciphertext. -/
  | polyModred (cid : Nat)
  /-- POLY_ENC_NOISE (R245). The command adds encrypted NOISE values to a ciphertext. -/
  | polyEncNoise (cid : Nat)
  /-- POLY_DEC_SHARE (R246). The command forms a decryption share with smudging noise. -/
  | polyDecShare (cid : Nat)
  /-- POLY_TO_SHARES (R246). The command forms a decryption share and an additive share. -/
  | polyToShares (cid : Nat)
  /-- POLY_COMMIT (R239). The last work item of a POLY command ends; the destination is replaced in one action, with FREE_SRC and TO_GATE. -/
  | polyCommit (cid : Nat)
  /-- GATE_POLICY_SET (R254). The command sets a group's release policy. -/
  | gatePolicySet (cid : Nat)
  /-- GATE_RELEASE (R261). The command checks an item for release, and waits for noise seeds. -/
  | gateRelease (cid : Nat)
  /-- GATE_RELEASE_COMMIT (R262). Every seed has been drawn; the item moves to RELEASED and the noised output is written. -/
  | gateReleaseCommit (cid : Nat)
  /-- VAULT_CONFIGURE (R268). The command creates, deletes or retunes a vault slot. -/
  | vaultConfigure (cid : Nat)
  /-- VAULT_LOAD (R270). The command replaces a slot's state from a wrapped model. -/
  | vaultLoad (cid : Nat)
  /-- VAULT_STEP (R271). The command applies an optimiser step from released elements. -/
  | vaultStep (cid : Nat)
  /-- VAULT_EXPORT (R272). The command writes the slot wrapped to the set or to the model owner. -/
  | vaultExport (cid : Nat)
  /-- ATTEST (R288). The command writes a signed attestation statement. -/
  | attest (cid : Nat)
  /-- CHALLENGE (R289). The command returns a liveness MAC under a role's pairing secret. -/
  | challenge (cid : Nat)
  /-- OWNER_ENROL (R294). The command installs a model owner's sealed MRS. -/
  | ownerEnrol (cid : Nat)
  /-- KEY_UPDATE (R297). The command replaces BK, or stages a new job key pair. -/
  | keyUpdate (cid : Nat)
  /-- DEVSET_ENROL (R298). The command joins or leaves a device set. -/
  | devsetEnrol (cid : Nat)
  /-- KEY_STAGE (R299). The command stages a new set key and writes a possession proof. -/
  | keyStage (cid : Nat)
  /-- KEY_COMMIT (R300). The command verifies every member's proof and makes the staged key BK. -/
  | keyCommit (cid : Nat)
  /-- GET_RANDOM (R321). The command writes DRBG bytes, in the clear or sealed. -/
  | getRandom (cid : Nat)
  /-- CNT_READ (R415). The command writes latched counter slots, coarsened or sealed. -/
  | cntRead (cid : Nat)
  /-- CNT_CONFIGURE (R414). The command programs counter slots. -/
  | cntConfigure (cid : Nat)
  /-- DAILIES_CONFIGURE (R417). The command enables or disables the dailies ring. -/
  | dailiesConfigure (cid : Nat)
  /-- TRACE_CONFIGURE (R419). The command sets the trace mode and kinds. -/
  | traceConfigure (cid : Nat)
  /-- TRACE_READ (R420). The command moves the oldest trace records to host memory. -/
  | traceRead (cid : Nat)
  /-- DEBUG_READ (R422). The command reads device memory or BAR0, with zeros for protected state. -/
  | debugRead (cid : Nat)
  /-- WARP_CONFIGURE (R391). The command configures a link, opens a warp connection, or sets an export route. -/
  | warpConfigure (cid : Nat)
  /-- WARP_RETRAIN (R392). The command retrains a link. -/
  | warpRetrain (cid : Nat)
  /-- LINK_TEST (R438). The command starts a pattern test on a port, link, bobbin channel or crossing channel. -/
  | linkTest (cid : Nat)
  /-- LINK_TEST_END (R439). DURATION_MS passes; the results are written and the command completes. -/
  | linkTestEnd (cid : Nat) (lanes : List LaneResult) (wireFail : BitVec 34)
  /-- SELF_TEST (R440). The command runs the selected self-tests and retires the units that fail. -/
  | selfTest (cid : Nat)
  /-- SELF_TEST_END (R440). The self-tests finish; the output is written and the command completes. -/
  | selfTestEnd (cid : Nat) (failing : List FaultSite) (failed : BitVec 7) (elapsedMs : Nat)
  /-- FW_STAGE (R283). The command verifies an image and writes it to the inactive slot. -/
  | fwStage (cid : Nat)
  /-- FW_ACTIVATE (R284). The command makes the staged slot active and runs a warm restart. -/
  | fwActivate (cid : Nat)
  /-- REEL_ENABLE (R99). Writing ENABLE 1 in HST_REEL_CTRL checks the configuration and enables the reel. -/
  | reelEnable (value : Word32)
  /-- REEL_DISABLE (R99). Writing ENABLE 0 clears ENABLED after the record write in progress. -/
  | reelDisable (value : Word32)
  /-- REEL_HEAD_WRITE (R100). A write of HST_REEL_HEAD returns reel slots, or sets HEAD_ERROR. -/
  | reelHeadWrite (value : Word32)
  /-- HST_REEL_LOST_READ (R98). A read returns and clears the lost and suppressed counts. -/
  | hstReelLostRead (half : Half)
  /-- REEL_RECORD_WRITE (R110). The record at the front of the event queue is written when the reel has room, with OVERFLOW start and end records. -/
  | reelRecordWrite
  /-- RATE_LIMIT_WINDOW_END (R112). A key's 100 ms window ends and a summary record is posted if events were suppressed. -/
  | rateLimitWindowEnd (type srcClass srcInst : Nat)
  /-- PORT_ENABLE (R116). Writing ENABLE 1 in ING_PORT_CTRL starts bringing the port up. -/
  | portEnable (port : Nat) (value : Word32)
  /-- PORT_DISABLE (R116). Writing ENABLE 0 in ING_PORT_CTRL takes the port down. -/
  | portDisable (port : Nat) (value : Word32)
  /-- PORT_LANES_LOCKED (R116). All four lanes reach FEC lock and the port comes up at 400 Gb/s. -/
  | portLanesLocked (port : Nat)
  /-- ETHERNET_LANE_FAIL (R116). A lane fails; the port degrades to 200 Gb/s or goes down. -/
  | ethernetLaneFail (port : Nat) (lanes : BitVec 4) (fec : Bool)
  /-- ING_PORT_DROPS_READ (R116). A read returns and clears the port's drop counts. -/
  | ingPortDropsRead (port : Nat) (half : Half)
  /-- ING_HS_STATUS_READ (R158). A read clears HS_RETRY. -/
  | ingHsStatusRead (half : Half)
  /-- ING_RCPT_LATE_READ (R161). A read clears the receipt lateness counts for every port page. -/
  | ingRcptLateRead (half : Half)
  /-- ARP_REQUEST (R115). An ARP request for the port's address is answered. -/
  | arpRequest (port : Nat) (targetIp : Word32) (senderMac : BitVec 48) (senderIp : Word32)
  /-- NEIGHBOUR_SOLICITATION (R115). A Neighbour Solicitation for the port's address is answered with a Neighbour Advertisement. -/
  | neighbourSolicitation (port : Nat) (target : BitVec 128) (senderMac : BitVec 48) (senderIp : BitVec 128)
  /-- WRITE (R133). A WRITE packet is authenticated, key-checked and placed, and marks its reassembly units. -/
  | write (port : Nat) (packet : Packet)
  /-- SEND (R138). A SEND packet is placed into the oldest posted receive buffer. -/
  | send (port : Nat) (packet : Packet)
  /-- READ_REQ (R127). A READ_REQ is key-checked and answered with READ_RESP at visibility. -/
  | readReq (port : Nat) (packet : Packet)
  /-- READ_RESP (R138). READ_RESP data is placed for a local READ work request. -/
  | readResp (port : Nat) (packet : Packet)
  /-- ATOMIC_ADD (R128). A 64-bit add is applied at visibility and the prior value is returned. -/
  | atomicAdd (port : Nat) (packet : Packet)
  /-- COMPARE_SWAP (R128). A 64-bit compare and swap is applied at visibility and the prior value is returned. -/
  | compareSwap (port : Nat) (packet : Packet)
  /-- ATOMIC_RESP (R138). An atomic's prior value is placed and its work request completes. -/
  | atomicResp (port : Nat) (packet : Packet)
  /-- ACK_RECEIVED (R129). An ACK advances the acknowledged PSNs, CUM_MSG and credit, and lets waiting sends proceed. -/
  | ackReceived (port : Nat) (packet : Packet)
  /-- NAK_RECEIVED (R129). A NAK refuses a message, or asks for a resend after RETRY_US in window mode. -/
  | nakReceived (port : Nat) (packet : Packet)
  /-- CONNECT_REQ (R123). A CONNECT_REQ is verified, and a connection is accepted half-open or rejected. -/
  | connectReq (port : Nat) (packet : Packet)
  /-- CONNECT_ACCEPT (R123). A CONNECT_ACCEPT completes an active open and derives keys. -/
  | connectAccept (port : Nat) (packet : Packet)
  /-- CONNECT_REJECT (R124). A CONNECT_REJECT completes CONN_OPEN with its status. -/
  | connectReject (port : Nat) (packet : Packet)
  /-- DISCONNECT (R125). A received DISCONNECT closes the connection and posts CONN_ERROR. -/
  | disconnect (port : Nat) (packet : Packet)
  /-- ACK_TIMER (R129). 20 µs after a data packet, the receiver sends an ACK. -/
  | ackTimer (conn : Nat)
  /-- RETRANSMIT_TIMER_EXPIRY (R131). The retransmission timer expires; uncovered PSNs are resent, and the 12th expiry fails the connection. -/
  | retransmitTimerExpiry (conn : Nat)
  /-- CONNECT_RETRY_TIMER (R123). The initiator repeats CONNECT_REQ on the retransmission schedule, up to 12 tries. -/
  | connectRetryTimer (conn : Nat)
  /-- HALF_OPEN_TIMEOUT (R123). A half-open connection is freed after 1 s. -/
  | halfOpenTimeout (conn : Nat)
  /-- REASSEMBLY_TIMER_EXPIRY (R135). A message is incomplete at REASM_MS and fails with a NAK. -/
  | reassemblyTimerExpiry (conn : Nat) (msgId : Word32)
  /-- MESSAGE_VISIBLE (R134). A complete message whose predecessors are settled becomes visible, with every effect. -/
  | messageVisible (conn : Nat)
  /-- DECAPSULATION_DONE (R148). HANDSHAKE finishes decapsulation and key derivation for an envelope. -/
  | decapsulationDone
  /-- OPEN_ADMIT (R151). OPEN admits the next message once splice slots are reserved on its cores. -/
  | openAdmit
  /-- SEGMENT_VERIFIED (R151). A segment's GCM opening ends and its tag and padding are checked. -/
  | segmentVerified (msg segment : Nat)
  /-- MESSAGE_COMMIT (R153). The commit arbiter commits a verified message, assigns sequence numbers and writes its receipt. -/
  | messageCommit (msg : Nat)
  /-- SECOND_PASS_TILE (R152). A large message's second pass decrypts a tile into a splice slot once one frees. -/
  | secondPassTile (msg segment : Nat)
  /-- SESSION_EXPIRE (R149). A session entry reaches SESSION_LIFE_S and is removed. -/
  | sessionExpire (index : Nat)
  /-- DESCENT_WRITTEN (R165). A reed descent completes and writes its bank range, lowering the in-flight count. -/
  | descentWritten (group tile token : Nat) (seqs : List Nat)
  /-- SCALE_CONFIRM (R181). The scale arbiter confirms s*; slices undo, halve and re-apply, or the group fails. -/
  | scaleConfirm (group : Nat) (bankB : Bool)
  /-- SCALE_CONFIRM_TIMEOUT (R408). Scale confirmation passes 2 ms and is treated as a station tile timeout. -/
  | scaleConfirmTimeout (group slice : Nat)
  /-- SPILL_UPDATE_APPLY (R185). A base die applies a held spilled-bank update once NEXT reaches its sequence number. -/
  | spillUpdateApply (group bankTile seq : Nat)
  /-- BANK_FINAL (R54). A DRAINING bank's in-flight count reaches zero and the bank becomes FINAL, completing the draining command. -/
  | bankFinal (group : Nat) (bankB : Bool)
  /-- BANK_ZEROED (R51). Zeroing of a bank ends and the bank becomes ZERO. -/
  | bankZeroed (group : Nat) (bankB : Bool)
  /-- STATION_TILE_TIMEOUT (R57). A tile passes the station tile timeout and firmware migrates its slice. -/
  | stationTileTimeout (group slice : Nat)
  /-- SLICE_MIGRATION_MERGE (R58). The old placement has finished; the new core copies its partial and applies buffered tiles. -/
  | sliceMigrationMerge (group slice : Nat)
  /-- LATE_EPOCH_TILE (R59). A tile with an earlier placement epoch arrives after the merge and fails the group with SEQ_GAP. -/
  | lateEpochTile (group slice seq epoch : Nat)
  /-- GAT_REFUSALS_READ (R261). A read clears the gate refusal counts. -/
  | gatRefusalsRead (half : Half)
  /-- ACC_COMBINE_DROPS_READ (R189). A read clears the refused and late partial tile counts. -/
  | accCombineDropsRead (half : Half)
  /-- MSK_REGEN_READ (R209). A read clears DONE. -/
  | mskRegenRead (half : Half)
  /-- POL_REFUSALS_READ (R249). A read clears the POLY refusal counts. -/
  | polRefusalsRead (half : Half)
  /-- POL_OBJ_SEL_WRITE (R249). A write selects the object or bank descriptor shown in the window. -/
  | polObjSelWrite (value : Word32)
  /-- SEC_COUNTS_READ (R305). A read clears KEY_REFUSED. -/
  | secCountsRead (half : Half)
  /-- WORKING_KEY_REMASK (R279). Every 1 ms both working-key shares are replaced with a fresh mask. -/
  | workingKeyRemask
  /-- RNG_STARTUP_TEST_DONE (R312). A start-up test ends; a pass instantiates the DRBG, and a failure is repeated after 10 ms. -/
  | rngStartupTestDone (samples : List Bytes) (kat : Bool)
  /-- RNG_STARTUP_REPEAT (R312). 10 ms after a failed start-up test, the test runs again. -/
  | rngStartupRepeat
  /-- HEALTH_TEST_FAIL (R316). A continuous test fails; the DRBG stops, waiting requests fail and ENTROPY_FAIL is posted. -/
  | healthTestFail (source : Nat) (adaptive : Bool)
  /-- RNG_RETEST_TIMER (R317). An automatic retest starts 10 ms, 1 s or 10 s after a failure. -/
  | rngRetestTimer
  /-- RNG_RETEST (R317). Writing RETEST in RNG_CTRL starts a retest in FAILED. -/
  | rngRetest
  /-- RNG_RETEST_DONE (R317). A retest ends; a pass instantiates a new DRBG and refills the pools. -/
  | rngRetestDone (samples : List Bytes) (kat : Bool)
  /-- RNG_RESEED (R314). Writing RESEED in RNG_CTRL reseeds a READY DRBG. -/
  | rngReseed (fresh0 fresh1 : Bytes)
  /-- DRBG_RESEED_DUE (R314). 1 s or 2^20 requests pass since the last seeding and the DRBG reseeds. -/
  | drbgReseedDue (fresh0 fresh1 : Bytes)
  /-- DRBG_GENERATE (R318). A READY DRBG serves the next waiting request by level. -/
  | drbgGenerate
  /-- RNG_COUNTS_READ (R321). A read clears RESEEDS and GENERATES. -/
  | rngCountsRead (half : Half)
  /-- BUDGET_WINDOW (R335). A 1 ms window starts; sensors are read, B_w and debt are set, tiles are dispatched and fields step. -/
  | budgetWindow (reading : WindowReading)
  /-- K_CALIBRATION (R334). Once a second, K moves towards measured over modelled dynamic energy. -/
  | kCalibration
  /-- BASE_VOLTAGE_RECOMPUTE (R337). V_B and R are recomputed every 10 ms and at each change of cap, cores, ports or takes. -/
  | baseVoltageRecompute
  /-- PWR_THROTTLE_CNT_READ (R344). A read clears the pressure window counts. -/
  | pwrThrottleCntRead (half : Half)
  /-- MEMORY_REFRESH (R350). The base die refreshes each channel within 32 ms, or 16 ms when hot. -/
  | memoryRefresh
  /-- SCRUB_PASS (R358). Patrol scrub reads every line and row once per period. -/
  | scrubPass (findings : ScrubFindings)
  /-- SPARE_COPY_DONE (R353). The copy to a spare channel ends and SLOT_MAP names the spare. -/
  | spareCopyDone (stack : Nat)
  /-- RESHAPE_DONE (R353). The re-lay onto c − 1 channels ends. -/
  | reshapeDone (stack : Nat)
  /-- MEM_ECC_COUNT_READ (R361). A read clears a stack's error counts. -/
  | memEccCountRead (stack : Nat) (half : Half)
  /-- MEM_SRAM_ECC_READ (R361). A read clears the SRAM error counts. -/
  | memSramEccRead (half : Half)
  /-- MEM_STAGING_MISS_READ (R360). A read clears MISS. -/
  | memStagingMissRead (half : Half)
  /-- SHUTTLE_READ_COMPLETION (R379). A read completion from the host is placed in the buffer and delivered in address order. -/
  | shuttleReadCompletion (reader : Reader) (offset : Nat) (result : HostRead)
  /-- SHUTTLE_COMPLETION_TIMEOUT (R376). A shuttle read reaches Completion Timeout and its requester fails. -/
  | shuttleCompletionTimeout (reader : Reader)
  /-- DMA_BAR_ERR_READ (R382). A read clears COUNT. -/
  | dmaBarErrRead (half : Half)
  /-- DMA_BYTES_READ_READ (R382). A read clears the bytes-read count. -/
  | dmaBytesReadRead (half : Half)
  /-- DMA_BYTES_WRITTEN_READ (R382). A read clears the bytes-written count. -/
  | dmaBytesWrittenRead (half : Half)
  /-- DMA_PREEMPT_READ (R382). A read clears the pre-emption counts. -/
  | dmaPreemptRead (half : Half)
  /-- WARP_TRAINING_DONE (R385). Link training ends and the link comes up at its width, or is held down. -/
  | warpTrainingDone (link : Nat) (peer : WarpPeer)
  /-- WARP_LANE_FAIL (R386). A warp lane fails and the link retrains with lane 8 or at a lower width. -/
  | warpLaneFail (link lane : Nat)
  /-- LINK_FRAME_DATA (R388). A DATA frame is checked and delivered in LSEQ order, or NAKed. -/
  | linkFrameData (link : Nat) (frame : Bytes)
  /-- LINK_FRAME_ACK (R388). An ACK frame frees replay buffer entries and returns link credit. -/
  | linkFrameAck (link : Nat) (frame : Bytes)
  /-- LINK_FRAME_NAK (R388). A NAK frame causes replay from the named frame. -/
  | linkFrameNak (link : Nat) (frame : Bytes)
  /-- WARP_REPLAY_TIMER (R388). 10 µs without ACK progress causes a replay, and 8 replays cause a retrain. -/
  | warpReplayTimer (link : Nat)
  /-- WARP_CREDIT_STARVATION (R389). DATA frames wait 1 ms for link credit and the link retrains. -/
  | warpCreditStarvation (link : Nat)
  /-- WRP_RETRY_READ (R396). A read clears the replay and retrain counts. -/
  | wrpRetryRead (link : Nat) (half : Half)
  /-- WRP_LANE_ERR_READ (R396). A read clears a lane's FEC counts. -/
  | wrpLaneErrRead (link lane : Nat) (half : Half)
  /-- FAULT_DETECTED (R398). A detector reports a fault and recovery starts at its level or escalates. -/
  | faultDetected (detector : Nat) (site : FaultSite)
  /-- HANDSHAKE_WATCHDOG (R398). A timed handshake passes 20 µs, which is an engine fault. -/
  | handshakeWatchdog (site : FaultSite)
  /-- CORE_TILE_TIMEOUT (R398). A tile passes 500 µs of counted time, which is a core fault. -/
  | coreTileTimeout (core : Nat)
  /-- HANDLER_TIMEOUT (R399). A recovery handler's timeout passes and recovery is raised a level. -/
  | handlerTimeout (site : Option FaultSite)
  /-- RECOVERY_DONE (R399). A unit passes its reset check and its replay completes; retirement takes effect. `items` and `steps` are the
  work items and the lockstep steps that it has applied again. -/
  | recoveryDone (site : FaultSite) (items steps : Nat)
  /-- CP_HEARTBEAT_MISS (R404). A command processor misses two heartbeats and a peer takes over its field. -/
  | cpHeartbeatMiss (processor : Nat)
  /-- CP_WATCHDOG (R404). Vilmin sees 250 ms without progress from a processor, which has faulted. -/
  | cpWatchdog (processor : Nat)
  /-- CP_RESTART_DONE (R404). The failed processor's work restarts on the spare from the journal. -/
  | cpRestartDone (processor : Nat) (passed : Bool)
  /-- DEVICE_WARM_RESTART (R405). A warm restart stops units, aborts uncommitted commands and resets the device. -/
  | deviceWarmRestart
  /-- DEVICE_WARM_RESTART_END (R405). Firmware, state, tables and replay are rebuilt, and fetching and credit resume. -/
  | deviceWarmRestartEnd (named : List FaultSite) (health : Health)
  /-- FAULT_INJECT (R398). A write of FLT_INJECT with GO injects one fault, or is refused. -/
  | faultInject (value : Word32)
  /-- FLT_COUNTS_READ (R410). A read clears the recovery counts. -/
  | fltCountsRead (half : Half)
  /-- FLT_CP_READ (R410). A read clears the command processor recovery counts. -/
  | fltCpRead (half : Half)
  /-- SPL_ENGINE_FAULTS_READ (R410). A read clears a core's engine fault counts. -/
  | splEngineFaultsRead (core : Nat) (half : Half)
  /-- SPL_REPLAYS_READ (R410). A read clears a core's replay counts. -/
  | splReplaysRead (core : Nat) (half : Half)
  /-- COUNTER_INCREMENT (R412). The collector adds an increment to matching slots and acknowledges it. -/
  | counterIncrement (event inst job n : Nat)
  /-- SAMPLE_REQUEST (R416). A sample counter passes zero and the unit's state is taken as a SAMPLE. -/
  | sampleRequest (slot inst job skid station core seq : Nat)
  /-- DAILIES_LATCH (R418). Every PERIOD_MS all slots are latched into a snapshot. -/
  | dailiesLatch
  /-- DAILIES_RECORD_WRITE (R418). A snapshot is written into a free dailies entry. -/
  | dailiesRecordWrite
  /-- CNT_DAILIES_HEAD_WRITE (R418). A write of HEAD returns dailies entries. -/
  | cntDailiesHeadWrite (value : Word32)
  /-- CNT_DAILIES_STATUS_READ (R424). A read clears MISSED. -/
  | cntDailiesStatusRead (half : Half)
  /-- CNT_TRACE_STATUS_READ (R424). A read clears DROPPED. -/
  | cntTraceStatusRead (half : Half)
  /-- CNT_DENIED_READ (R424). A read clears the denied line count. -/
  | cntDeniedRead (half : Half)
  /-- TST_SIDEBAND_CNT_READ (R441). A read clears an input's assertion counts. -/
  | tstSidebandCntRead (input : Nat) (half : Half)
  /-- SET_ENDPOINT_ID (R431). The MCTP control message sets the endpoint ID. -/
  | setEndpointId (operation eid : BitVec 8)
  /-- GET_ENDPOINT_ID (R431). The MCTP control message returns the endpoint ID. -/
  | getEndpointId
  /-- GET_MCTP_VERSION_SUPPORT (R431). The MCTP control message returns the supported versions. -/
  | getMctpVersionSupport
  /-- GET_MESSAGE_TYPE_SUPPORT (R431). The MCTP control message returns message types 0 and 1. -/
  | getMessageTypeSupport
  /-- GETTID (R431). The PLDM request returns the terminus ID. -/
  | gettid
  /-- SETTID (R431). The PLDM request sets the terminus ID. -/
  | settid (tid : BitVec 8)
  /-- GETPLDMVERSION (R431). The PLDM request returns the version. -/
  | getpldmversion (type : BitVec 8)
  /-- GETPLDMTYPES (R431). The PLDM request returns types 0 and 2. -/
  | getpldmtypes
  /-- GETPLDMCOMMANDS (R431). The PLDM request returns the supported commands. -/
  | getpldmcommands (type : BitVec 8)
  /-- GETPDR (R432). The PLDM request returns a PDR. -/
  | getpdr (record : Word32)
  /-- GETPDRREPOSITORYINFO (R432). The PLDM request returns the PDR repository information. -/
  | getpdrrepositoryinfo
  /-- GETSENSORREADING (R432). The PLDM request returns a coarsened sensor reading. -/
  | getsensorreading (id : BitVec 16)
  /-- SETNUMERICEFFECTERVALUE (R432). The PLDM request sets the sideband cap, or is refused. -/
  | setnumericeffectervalue (id : BitVec 16) (value : BitVec 16)
  /-- GETNUMERICEFFECTERVALUE (R432). The PLDM request returns the sideband cap. -/
  | getnumericeffectervalue (id : BitVec 16)
  /-- IDCODE (R434). The TAP instruction selects the IDCODE register. -/
  | idcode
  /-- SAMPLE_PRELOAD (R433). The TAP instruction samples the pins without disturbing operation. -/
  | samplePreload
  /-- EXTEST (R434). The TAP instruction drives the pins and places the device in test hold. -/
  | extest
  /-- EXTEST_PULSE (R434). The IEEE 1149.6 instruction enters test hold. -/
  | extestPulse
  /-- EXTEST_TRAIN (R434). The IEEE 1149.6 instruction enters test hold. -/
  | extestTrain
  /-- CLAMP (R434). The TAP instruction holds the pins and enters test hold. -/
  | clamp
  /-- HIGHZ (R434). The TAP instruction floats the outputs and enters test hold. -/
  | highz
  /-- DBG_READ (R423). The TAP instruction reads lines by device address, with zeros for protected state. -/
  | dbgRead (addr : Nat)
  /-- SCAN_ENTER (R433). The TAP instruction enters internal scan through a zeroizing warm restart. -/
  | scanEnter
  /-- BYPASS (R433). The TAP instruction selects the one-bit bypass. -/
  | bypass
  /-- TEST_LOGIC_RESET (R434). Leaving test hold through Test-Logic-Reset runs a device warm restart. -/
  | testLogicReset
  /-- REFERENCE_LOST (R21). The PCIe 100 MHz reference disappears; trims stop, every local oscillator holds its last trim, and the larger error applies to spans that are running. -/
  | referenceLost
  /-- REFERENCE_PRESENT (R21). The PCIe reference appears or returns; trimming against it starts and the tighter error bound comes into force. -/
  | referencePresent
  /-- MALFORMED_FRAME (R115). A received Ethernet frame that is not a valid transport packet, ARP request or Neighbour Solicitation is discarded, and counted in MALFORMED where the rules say so. -/
  | malformedFrame (port : Nat) (why : FrameFault)
  /-- NAK_RETRY_US_EXPIRY (R132). In window mode, RETRY_US after a NAK with status NO_RESOURCE, the sender resends the refused packet. -/
  | nakRetryUsExpiry (conn : Nat) (msgId : Word32)
  /-- WARP_RETRAIN_TIMEOUT (R392). 100 ms after a WARP_RETRAIN started with the link still down, the command completes with TIMEOUT. -/
  | warpRetrainTimeout (cid : Nat)
  /-- PWR_OK_RELEASE (R429). PWR_OK stays low for 10 ms, its release qualifies and its QUALIFIED bit in TST_SIDEBAND clears. -/
  | pwrOkRelease
  /-- VAULT_STEP_DONE (R271). The C3 work of a VAULT_STEP ends; W, M, V, t, P1, P2 and LAST_TAKE are replaced in one action, the released elements are dropped and the command completes. -/
  | vaultStepDone (cid : Nat)
  deriving DecidableEq, Repr, Inhabited

end Sys2Proof
end

