-- ==== Sys2Proof/Decode.lean ====
section
/-! DEFINITION. The command table gives its rows no bits, so no word spells a command. -/

namespace Sys2Proof

/-- The command that a word of the table spells: none, because no row of the table has an encoding (log entry 2). -/
def decodeTableWord (_nbits _w : Nat) : Option Instr := none

end Sys2Proof
end

