-- ==== Sys2Proof/Config.lean ====
section
/-! DEFINITION. What the manual leaves to the implementation: uninterpreted constants, so that nothing proved about the model rests on
their values. -/

namespace Sys2Proof.Config

/-- The values the manual leaves open: the `n`-th free value the run draws (log entry 5). -/
opaque freeWord : Nat → BitVec 64

/-- What a byte of memory written under replaced encryption keys decrypts to (R351): rotation, address. -/
opaque unrelatedByte : Nat → Nat → Byte

/-- The initialisation vector of a key-store entry (R278; log entry 118): the entry's name by number, and its key. -/
opaque storeIv : Nat → Bytes → BitVec 96

/-- What a 16-bit noise or budget field holds of a bound that it cannot hold (R219, R229, R240; log entry 36). -/
opaque wideField : Int → BitVec 16

/-! ## What one stepping of the device fixes -/

/-- INGEST_GBPS with fewer than 24 active cores or a crossing below 40 channels (R30; log entry 108): active cores, channels in service
of each crossing direction. -/
opaque reducedIngest : Nat → List Nat → BitVec 32

/-- The contents of Vilmin's ROM in a stepping (R276). -/
opaque romImage : Nat → Bytes

/-- What the sideband's standards and this module's description leave open of an answer (R431, R432): request code, argument. -/
opaque sidebandData : Nat → Nat → Bytes

/-- Configuration registers whose contents the manual leaves to PCI Express (R366): offset, and what was last written there. -/
opaque configReg : Nat → BitVec 32 → BitVec 32

end Sys2Proof.Config
end

