-- ==== Sys2Proof/Machine/Bits.lean ====
section
/-! DEFINITION. Bit fields, byte orders, saturation and keyed tables: the plain helpers every family of the model uses. -/

namespace Sys2Proof.Machine

/-! ## Byte strings (R5, R6) -/

/-- The number a little-endian byte string spells (R5: device and host-memory structures). -/
def leNat : Bytes → Nat
  | [] => 0
  | b :: bs => b.toNat + 256 * leNat bs

/-- The `n` little-endian bytes of a number, modulo 2^(8n). -/
def toLE : Nat → Nat → Bytes
  | 0, _ => []
  | n + 1, v => BitVec.ofNat 8 v :: toLE n (v / 256)

/-- The number a big-endian byte string spells (R5: transport headers and envelopes). -/
def beNat (bs : Bytes) : Nat := leNat bs.reverse

/-- The `n` big-endian bytes of a number, modulo 2^(8n). -/
def toBE (n v : Nat) : Bytes := (toLE n v).reverse

/-- Bytes `off` to `off + len - 1` of a structure (R6); bytes past its end are not there. -/
def slice (bs : Bytes) (off len : Nat) : Bytes := (bs.drop off).take len

/-- A little-endian field of `len` bytes at offset `off`. -/
def leAt (bs : Bytes) (off len : Nat) : Nat := leNat (slice bs off len)

/-- A big-endian field of `len` bytes at offset `off`. -/
def beAt (bs : Bytes) (off len : Nat) : Nat := beNat (slice bs off len)

/-- The byte at an offset, zero past the end. -/
def byteAt (bs : Bytes) (off : Nat) : Nat := (bs.getD off 0).toNat

/-- `n` zero bytes, the value of reserved and unused bytes (R7). -/
def zeros (n : Nat) : Bytes := List.replicate n 0

/-- Every byte of the range is zero (R7: what software writes to reserved bytes). -/
def zeroAt (bs : Bytes) (off len : Nat) : Bool := (slice bs off len).all (· == 0)

/-- A byte string cut or filled with zeros to `n` bytes. -/
def fitBytes (n : Nat) (bs : Bytes) : Bytes := bs.take n ++ zeros (n - bs.length)

/-- The bytes of an ASCII constant of the manual. -/
def ascii (s : String) : Bytes := s.toList.map (fun c => BitVec.ofNat 8 c.toNat)

/-- Exclusive or of two byte strings, over the shorter's length. -/
def xorBytes (a b : Bytes) : Bytes := List.zipWith (· ^^^ ·) a b

/-- A byte string in consecutive pieces of `n` bytes, the last piece perhaps shorter; `fuel` bounds the pieces. -/
def chunks (n : Nat) : Nat → Bytes → List Bytes
  | 0, _ => []
  | fuel + 1, bs => if bs.isEmpty then [] else bs.take n :: chunks n fuel (bs.drop n)

/-! ## Register fields (R6, R8) -/

/-- Bits `[lo + w - 1 : lo]` of a register value. -/
def field (v : Word64) (lo w : Nat) : BitVec w := v.extractLsb' lo w

/-- A field placed at bit `lo` of a register value. -/
def place {w : Nat} (lo : Nat) (f : BitVec w) : Word64 := (f.setWidth 64) <<< lo

/-- A number placed at bit `lo` of a register value, cut to `w` bits. -/
def placeN (lo w v : Nat) : Word64 := place lo (BitVec.ofNat w v)

/-- A flag placed at bit `i`. -/
def placeB (i : Nat) (b : Bool) : Word64 := if b then 1#64 <<< i else 0#64

/-- A saturating count of `w` bits grows by `n` (R98, R116, R382, R410). -/
def satAdd {w : Nat} (c : BitVec w) (n : Nat) : BitVec w := BitVec.ofNat w (min (c.toNat + n) (2 ^ w - 1))

/-- A saturating count of `w` bits takes the larger of itself and `n`. -/
def satMax {w : Nat} (c : BitVec w) (n : Nat) : BitVec w := BitVec.ofNat w (min (max c.toNat n) (2 ^ w - 1))

/-- The number whose bits are `b 0`, `b 1`, … `b (n - 1)`. -/
def bitsOf (n : Nat) (b : Nat → Bool) : Nat :=
  (List.range n).foldl (fun a i => if b i then a + 2 ^ i else a) 0

/-- Bits set in a mask of `n` bits, lowest first. -/
def bitList (n : Nat) (m : Nat) : List Nat := (List.range n).filter (fun i => m.testBit i)

/-! ## Keyed tables

Objects that come and go (connections, regions, jobs, objects) are lists of numbered entries in ascending key order, so that
equal tables are equal lists. -/

/-- A table keyed by number. -/
abbrev Table (α : Type) := List (Nat × α)

/-- The entry of a key. -/
def Table.get? {α : Type} (t : List (Nat × α)) (k : Nat) : Option α :=
  match t with
  | [] => none
  | (j, a) :: r => if j = k then some a else Table.get? r k

/-- Is there an entry for a key? -/
def Table.has {α : Type} (t : List (Nat × α)) (k : Nat) : Bool := (Table.get? t k).isSome

/-- Sets a key's entry, keeping ascending key order. -/
def Table.put {α : Type} (t : List (Nat × α)) (k : Nat) (a : α) : List (Nat × α) :=
  match t with
  | [] => [(k, a)]
  | (j, b) :: r => if k < j then (k, a) :: (j, b) :: r else if j = k then (k, a) :: r else (j, b) :: Table.put r k a

/-- Removes a key's entry. -/
def Table.del {α : Type} (t : List (Nat × α)) (k : Nat) : List (Nat × α) := t.filter (fun e => e.1 ≠ k)

/-- Changes a key's entry, if there is one. -/
def Table.upd {α : Type} (t : List (Nat × α)) (k : Nat) (f : α → α) : List (Nat × α) :=
  t.map (fun e => if e.1 = k then (e.1, f e.2) else e)

/-- Changes every entry. -/
def Table.mapAll {α : Type} (t : List (Nat × α)) (f : Nat → α → α) : List (Nat × α) := t.map (fun e => (e.1, f e.1 e.2))

/-- The lowest number from `i` upwards, among the next `fuel`, that satisfies a predicate. -/
def lowest (p : Nat → Bool) : Nat → Nat → Option Nat
  | 0, _ => none
  | fuel + 1, i => if p i then some i else lowest p fuel (i + 1)

/-- The lowest number from `lo` upwards, among the next `n`, that is no key of the table. -/
def Table.free? {α : Type} (t : List (Nat × α)) (lo n : Nat) : Option Nat := lowest (fun i => !Table.has t i) n lo

/-- Inserts an element into a list in rising order of a key, after its equals. -/
def insertBy {α : Type} (key : α → Nat) (a : α) : List α → List α
  | [] => [a]
  | b :: r => if key b ≤ key a then b :: insertBy key a r else a :: b :: r

/-- A list in rising order of a key; equals keep their order. -/
def sortBy {α : Type} (key : α → Nat) (l : List α) : List α := l.foldl (fun r a => insertBy key a r) []

/-- b^e mod m by repeated squaring, over `fuel` bits of e. -/
def powMod (m : Nat) : Nat → Nat → Nat → Nat → Nat
  | 0, _, _, acc => acc % m
  | fuel + 1, b, e, acc => powMod m fuel (b * b % m) (e / 2) (if e % 2 = 1 then acc * b % m else acc)

/-- b^e mod m. -/
def expMod (m b e : Nat) : Nat := powMod m (e.log2 + 1) (b % m) e 1

/-- Entry `i` of a fixed array of units, with a default past its end. -/
def unit {α : Type} [Inhabited α] (l : List α) (i : Nat) : α := l.getD i default

/-- The first element that satisfies a predicate, and its position. -/
def firstIdx {α : Type} (l : List α) (p : α → Bool) : Option Nat := l.findIdx? p

end Sys2Proof.Machine
end

