-- ==== Sys2Proof/Machine/Aes.lean ====
section
/-! DEFINITION. AES-256 (FIPS 197) with its counter, GCM and CTR_DRBG modes (SP 800-38D, SP 800-90A), and ChaCha20 (RFC 8439)
(R198, R275, R309, R347). -/

namespace Sys2Proof.Machine

open Sys2Proof

/-! ## AES-256 (FIPS 197) -/

/-- The product with x in GF(2^8). -/
def xtime (b : Byte) : Byte := (b <<< 1) ^^^ (if b.getLsbD 7 then 0x1B else 0)

/-- The product in GF(2^8). -/
def aesMul (a b : Byte) : Byte :=
  ((List.range 8).foldl (fun (s : Byte × Byte) i => (if b.getLsbD i then s.1 ^^^ s.2 else s.1, xtime s.2)) (0, a)).1

/-- The inverse in GF(2^8), the 254th power; of zero, zero. -/
def aesInv (a : Byte) : Byte := (List.range 253).foldl (fun r _ => aesMul r a) a

/-- The substitution box. -/
def aesBox : List Byte :=
  (List.range 256).map (fun i =>
    let x := aesInv (BitVec.ofNat 8 i)
    x ^^^ x.rotateLeft 1 ^^^ x.rotateLeft 2 ^^^ x.rotateLeft 3 ^^^ x.rotateLeft 4 ^^^ 0x63)

/-- A substituted byte. -/
def subByte (b : Byte) : Byte := aesBox.getD b.toNat 0

/-- The round constant of the `i`-th use. -/
def roundConstant (i : Nat) : Byte := (List.range (i - 1)).foldl (fun b _ => xtime b) 1

/-- The words of the key schedule from the `i`-th on, newest first. -/
def aesWords : Nat → Nat → List Bytes → List Bytes
  | 0, _, l => l
  | n + 1, i, l =>
    let t := l.headD []
    let t := if i % 8 = 0 then xorBytes ((t.drop 1 ++ t.take 1).map subByte) [roundConstant (i / 8), 0, 0, 0]
             else if i % 8 = 4 then t.map subByte else t
    aesWords n (i + 1) (xorBytes (l.getD 7 []) t :: l)

/-- The 15 round keys of a 32-byte key. -/
def aesKeys (key : Bytes) : List Bytes := chunks 16 15 ((aesWords 52 8 (chunks 4 8 (fitBytes 32 key)).reverse).reverse.flatten)

/-- Row i of the state moves left by i: byte r + 4c comes from column c + r. -/
def shiftRows (s : Bytes) : Bytes := (List.range 16).map (fun i => s.getD ((i + 4 * (i % 4)) % 16) 0)

/-- The columns of the state are mixed. -/
def mixColumns (s : Bytes) : Bytes :=
  (List.range 16).map (fun i =>
    let at_ (r : Nat) : Byte := s.getD (4 * (i / 4) + (i + r) % 4) 0
    xtime (at_ 0) ^^^ (xtime (at_ 1) ^^^ at_ 1) ^^^ at_ 2 ^^^ at_ 3)

/-- A block of 16 bytes encrypted under round keys. -/
def aesRounds (ks : List Bytes) (b : Bytes) : Bytes :=
  let s := xorBytes b (ks.headD [])
  let s := ((ks.drop 1).take 13).foldl (fun s k => xorBytes (mixColumns (shiftRows (s.map subByte))) k) s
  xorBytes (shiftRows (s.map subByte)) (ks.getD 14 [])

/-- AES-256 of one block. -/
@[irreducible] def aes256 (key b : Bytes) : Bytes := aesRounds (aesKeys key) b

/-- Byte `n` of the keystream AES-256(key, 0), AES-256(key, 1), …, each counter a 16-byte big-endian integer (R198, R256, R279). -/
def aesCtrByte (key : Bytes) (n : Nat) : Byte := (aes256 key (toBE 16 (n / 16))).getD (n % 16) 0

/-! ## GCM (SP 800-38D) -/

/-- The product in GF(2^128), with bit 0 of a block its most significant. -/
def ghashMul (x y : BitVec 128) : BitVec 128 :=
  ((List.range 128).foldl (fun (s : BitVec 128 × BitVec 128) i =>
    (if x.getMsbD i then s.1 ^^^ s.2 else s.1, (s.2 >>> 1) ^^^ (if s.2.getLsbD 0 then 0xE1#128 <<< 120 else 0))) (0, y)).1

/-- GHASH over blocks that a byte string fills with zeros to 16 bytes. -/
def ghashOver (h : BitVec 128) (y : BitVec 128) (b : Bytes) : BitVec 128 :=
  (chunks 16 ((b.length + 15) / 16) b).foldl (fun y c => ghashMul (y ^^^ BitVec.ofNat 128 (beNat (fitBytes 16 c))) h) y

/-- Byte `n` of the keystream of a 12-byte IV: counters from 2. -/
def gcmStream (key iv : Bytes) (n : Nat) : Byte := (aes256 key (fitBytes 12 iv ++ toBE 4 (n / 16 + 2))).getD (n % 16) 0

/-- AES-256-GCM encryption without its tag: exclusive or with the keystream. -/
@[irreducible] def gcmCrypt (key iv m : Bytes) : Bytes := xorBytes m ((List.range m.length).map (gcmStream key iv))

/-- The 16-byte GCM tag. GMAC is the tag of an empty ciphertext. -/
@[irreducible] def gcmMac (key iv aad ct : Bytes) : Bytes :=
  let h := BitVec.ofNat 128 (beNat (aes256 key (zeros 16)))
  let y := ghashOver h (ghashOver h (ghashOver h 0 aad) ct) (toBE 8 (8 * aad.length) ++ toBE 8 (8 * ct.length))
  fitBytes 16 (xorBytes (toBE 16 y.toNat) (aes256 key (fitBytes 12 iv ++ toBE 4 1)))

/-- AES-256-GCM sealing: ciphertext and tag. -/
def gcmSeal (key iv aad m : Bytes) : Bytes :=
  let ct := gcmCrypt key iv m
  ct ++ gcmMac key iv aad ct

/-- AES-256-GCM opening of a ciphertext with its tag at the end. -/
def gcmOpen (key iv aad sealed : Bytes) : Option Bytes :=
  let n := sealed.length - 16
  let ct := sealed.take n
  if sealed.drop n = gcmMac key iv aad ct then some (gcmCrypt key iv ct) else none

/-! ## CTR_DRBG (SP 800-90A) with the derivation function

The state is the 32-byte key and the 16-byte V. -/

/-- Three blocks of counter output after V: 48 bytes. -/
def drbgBlocks (key : Bytes) (v n : Nat) : Bytes := ((List.range n).map (fun i => aes256 key (toBE 16 (v + 1 + i)))).flatten

/-- CTR_DRBG_Update: the state after 48 bytes of provided data. -/
def drbgUpdate (st data : Bytes) : Bytes := xorBytes (drbgBlocks (st.take 32) (beNat (st.drop 32)) 3) data

/-- The block-chained value of a byte string of whole blocks. -/
def drbgChain (key b : Bytes) : Bytes := (chunks 16 (b.length / 16) b).foldl (fun c x => aes256 key (xorBytes c x)) (zeros 16)

/-- The derivation function, to 48 bytes. -/
def drbgDerive (m : Bytes) : Bytes :=
  let s := toBE 4 m.length ++ toBE 4 48 ++ m ++ [0x80]
  let s := s ++ zeros ((16 - s.length % 16) % 16)
  let key := (List.range 32).map (BitVec.ofNat 8)
  let t := ((List.range 3).map (fun i => drbgChain key (toBE 4 i ++ zeros 12 ++ s))).flatten
  let k := t.take 32
  let x1 := aes256 k (t.drop 32)
  let x2 := aes256 k x1
  x1 ++ x2 ++ aes256 k x2

/-- The state of an instance from entropy, nonce and personalisation string. -/
@[irreducible] def drbgInstantiate (entropy nonce person : Bytes) : Bytes := fitBytes 48 (drbgUpdate (zeros 48) (drbgDerive (entropy ++ nonce ++ person)))

/-- The state after a reseed. -/
@[irreducible] def drbgReseed (st entropy : Bytes) : Bytes := fitBytes 48 (drbgUpdate st (drbgDerive entropy))

/-- The `n` bytes of a generate request without additional input. -/
@[irreducible] def drbgOutput (st : Bytes) (n : Nat) : Bytes := fitBytes n (drbgBlocks (st.take 32) (beNat (st.drop 32)) ((n + 15) / 16))

/-- The state after a generate request of `n` bytes. -/
@[irreducible] def drbgNext (st : Bytes) (n : Nat) : Bytes :=
  fitBytes 48 (drbgUpdate (st.take 32 ++ toBE 16 (beNat (st.drop 32) + (n + 15) / 16)) (zeros 48))

/-! ## ChaCha20 (RFC 8439) -/

/-- A quarter round on four words of the state. -/
def chachaQuarter (s : List Word32) (i : Nat × Nat × Nat × Nat) : List Word32 :=
  let a := s.getD i.1 0
  let b := s.getD i.2.1 0
  let c := s.getD i.2.2.1 0
  let d := s.getD i.2.2.2 0
  let a := a + b
  let d := (d ^^^ a).rotateLeft 16
  let c := c + d
  let b := (b ^^^ c).rotateLeft 12
  let a := a + b
  let d := (d ^^^ a).rotateLeft 8
  let c := c + d
  let b := (b ^^^ c).rotateLeft 7
  (((s.set i.1 a).set i.2.1 b).set i.2.2.1 c).set i.2.2.2 d

/-- A column round and a diagonal round. -/
def chachaDouble (s : List Word32) : List Word32 :=
  [(0, 4, 8, 12), (1, 5, 9, 13), (2, 6, 10, 14), (3, 7, 11, 15), (0, 5, 10, 15), (1, 6, 11, 12), (2, 7, 8, 13), (3, 4, 9, 14)].foldl
    chachaQuarter s

/-- The keystream block of a counter, with a zero nonce (R198). -/
@[irreducible] def chachaBlock (key : Bytes) (n : Nat) : Bytes :=
  let words (b : Bytes) : List Word32 := (chunks 4 (b.length / 4) b).map (fun x => BitVec.ofNat 32 (leNat x))
  let s := words (ascii "expand 32-byte k" ++ fitBytes 32 key ++ toLE 4 n ++ zeros 12)
  let r := (List.range 10).foldl (fun s _ => chachaDouble s) s
  ((List.zipWith (· + ·) r s).map (fun x => toLE 4 x.toNat)).flatten

/-- Byte `n` of the keystream of a key with a zero nonce, counters from 0 (R198). -/
def chachaByte (key : Bytes) (n : Nat) : Byte := (chachaBlock key (n / 64)).getD (n % 64) 0

end Sys2Proof.Machine
end

