-- ==== Sys2Proof/Machine/Sha.lean ====
section
/-! DEFINITION. SHA-2, HMAC and HKDF (FIPS 180-4, FIPS 198-1, RFC 5869; R275, R290), and SHA-3 (FIPS 202; R227, R275). -/

namespace Sys2Proof.Machine

open Sys2Proof

/-- The first `n` bytes of a numbered byte stream. -/
def stream (n : Nat) (f : Nat → Byte) : Bytes := (List.range n).map f

/-- A byte string in whole pieces of `n` bytes. -/
def pieces (n : Nat) (b : Bytes) : List Bytes := chunks n (b.length / n) b

/-! ## SHA-2 (FIPS 180-4)

The two variants differ in the word width, the number of rounds and the rotations. Their constants are the leading bits of the fractional
parts of the roots of the first primes. -/

/-- The integer part of the `k`-th root of a number below 2^(k·bits). -/
def rootOf (k bits n : Nat) : Nat :=
  (List.range bits).reverse.foldl (fun r i => if (r + 2 ^ i) ^ k ≤ n then r + 2 ^ i else r) 0

/-- The first `n` primes, all below 410. -/
def firstPrimes (n : Nat) : List Nat :=
  ((List.range 410).filter (fun p => decide (2 ≤ p) && (List.range p).all (fun d => decide (d < 2) || p % d != 0))).take n

/-- The round constants of SHA-2: cube roots. -/
def shaConstants (w rounds : Nat) : List (BitVec w) :=
  (firstPrimes rounds).map (fun q => BitVec.ofNat w (rootOf 3 (w + 4) (q * 2 ^ (3 * w))))

/-- The initial hash value of SHA-2: square roots. -/
def shaStart (w : Nat) : List (BitVec w) := (firstPrimes 8).map (fun q => BitVec.ofNat w (rootOf 2 (w + 4) (q * 2 ^ (2 * w))))

/-- A variant of SHA-2 with words of `w` bits: its constants, and the rotations (two and a shift for the schedule) of its four functions. -/
structure Sha2 (w : Nat) where
  ks : List (BitVec w)
  start : List (BitVec w)
  s0 : Nat × Nat × Nat
  s1 : Nat × Nat × Nat
  t0 : Nat × Nat × Nat
  t1 : Nat × Nat × Nat

/-- SHA-256. -/
def shaSmall : Sha2 32 :=
  { ks := shaConstants 32 64, start := shaStart 32, s0 := (2, 13, 22), s1 := (6, 11, 25), t0 := (7, 18, 3), t1 := (17, 19, 10) }

/-- SHA-512. -/
def shaLarge : Sha2 64 :=
  { ks := shaConstants 64 80, start := shaStart 64, s0 := (28, 34, 39), s1 := (14, 18, 41), t0 := (1, 8, 7), t1 := (19, 61, 6) }

/-- Three rotations joined. -/
def sigmaBig {w : Nat} (r : Nat × Nat × Nat) (x : BitVec w) : BitVec w := x.rotateRight r.1 ^^^ x.rotateRight r.2.1 ^^^ x.rotateRight r.2.2

/-- Two rotations and a shift joined. -/
def sigmaSmall {w : Nat} (r : Nat × Nat × Nat) (x : BitVec w) : BitVec w := x.rotateRight r.1 ^^^ x.rotateRight r.2.1 ^^^ (x >>> r.2.2)

/-- The message schedule of a block's 16 words, newest word first. -/
def Sha2.schedule {w : Nat} (p : Sha2 w) : Nat → List (BitVec w) → List (BitVec w)
  | 0, l => l
  | n + 1, l =>
    Sha2.schedule p n ((sigmaSmall p.t1 (l.getD 1 0) + l.getD 6 0 + sigmaSmall p.t0 (l.getD 14 0) + l.getD 15 0) :: l)

/-- One round over the eight working variables, with its constant and schedule word. -/
def Sha2.round {w : Nat} (p : Sha2 w) (v : List (BitVec w)) (k x : BitVec w) : List (BitVec w) :=
  match v with
  | [a, b, c, d, e, f, g, h] =>
    let t1 := h + sigmaBig p.s1 e + ((e &&& f) ^^^ (~~~e &&& g)) + k + x
    let t2 := sigmaBig p.s0 a + ((a &&& b) ^^^ (a &&& c) ^^^ (b &&& c))
    [t1 + t2, a, b, c, d + t1, e, f, g]
  | l => l

/-- One block joined into the hash value. -/
def Sha2.block {w : Nat} (p : Sha2 w) (h : List (BitVec w)) (b : Bytes) : List (BitVec w) :=
  let m := (pieces (w / 8) b).map (fun x => BitVec.ofNat w (beNat x))
  let ws := (p.schedule (p.ks.length - 16) m.reverse).reverse
  List.zipWith (· + ·) h ((List.zip p.ks ws).foldl (fun v x => p.round v x.1 x.2) h)

/-- The message with its padding and length. -/
def shaPad (w : Nat) (m : Bytes) : Bytes :=
  let block := 2 * w
  let n := m.length + 1 + w / 4
  m ++ [0x80] ++ zeros ((block - n % block) % block) ++ toBE (w / 4) (8 * m.length)

/-- The hash of a message. -/
def Sha2.hash {w : Nat} (p : Sha2 w) (m : Bytes) : Bytes :=
  (((pieces (2 * w) (shaPad w m)).foldl p.block p.start).map (fun x => toBE (w / 8) x.toNat)).flatten

/-- SHA-256, 32 bytes. -/
@[irreducible] def sha256 (m : Bytes) : Bytes := fitBytes 32 (shaSmall.hash m)

/-- SHA-512, 64 bytes. -/
@[irreducible] def sha512 (m : Bytes) : Bytes := fitBytes 64 (shaLarge.hash m)

/-- HMAC over a hash with blocks of `n` bytes (FIPS 198-1). -/
def hmacOf (hash : Bytes → Bytes) (n : Nat) (key m : Bytes) : Bytes :=
  let k := fitBytes n (if n < key.length then hash key else key)
  hash (k.map (· ^^^ 0x5C) ++ hash (k.map (· ^^^ 0x36) ++ m))

/-- HMAC-SHA-256, 32 bytes. -/
@[irreducible] def hmac (key m : Bytes) : Bytes := hmacOf sha256 64 key m

/-- HMAC-SHA-512, 64 bytes. -/
def hmacLarge (key m : Bytes) : Bytes := hmacOf sha512 128 key m

/-- The blocks of HKDF's expansion from the `i`-th on, after a block. -/
def hkdfBlocks (prk info : Bytes) : Nat → Nat → Bytes → Bytes
  | 0, _, _ => []
  | n + 1, i, last =>
    let t := hmac prk (last ++ info ++ [BitVec.ofNat 8 i])
    t ++ hkdfBlocks prk info n (i + 1) t

/-- HKDF-SHA-256 of `n` bytes (RFC 5869, R290). -/
def hkdfN (n : Nat) (ikm salt info : Bytes) : Bytes :=
  (hkdfBlocks (hmac (if salt.isEmpty then zeros 32 else salt) ikm) info ((n + 31) / 32) 1 []).take n

/-- HKDF-SHA-256 of 32 bytes (R290). -/
def hkdf (ikm salt info : Bytes) : Bytes := hkdfN 32 ikm salt info

/-! ## SHA-3 (FIPS 202)

The state is 25 lanes of 64 bits, lane (x, y) at place x + 5y. -/

/-- Rotation offset of a lane: (t + 1)(t + 2) / 2 for the t-th lane of the walk from (1, 0). -/
def keccakOffsets : List Nat :=
  ((List.range 24).foldl (fun (a : List Nat × Nat × Nat) t =>
    (a.1.set (a.2.1 + 5 * a.2.2) ((t + 1) * (t + 2) / 2 % 64), a.2.2, (2 * a.2.1 + 3 * a.2.2) % 5)) (List.replicate 25 0, 1, 0)).1

/-- The bits rc[0], rc[1], … of the round constants' shift register, and its state after `n` of them. -/
def keccakBits : Nat → Nat → List Bool
  | 0, _ => []
  | n + 1, r =>
    let r' := 2 * r
    r.testBit 0 :: keccakBits n (if r'.testBit 8 then (r' ^^^ 0x171) else r')

/-- The round constants: bit 2^j − 1 of constant i is rc[j + 7i]. -/
def keccakConstants : List Word64 :=
  let rc := keccakBits 168 1
  (List.range 24).map (fun i => BitVec.ofNat 64 (((List.range 7).map (fun j => if rc.getD (j + 7 * i) false then 2 ^ (2 ^ j - 1) else 0)).sum))

/-- One round of Keccak-f[1600]. -/
def keccakRound (off : List Nat) (a : List Word64) (rc : Word64) : List Word64 :=
  let lane (l : List Word64) (x y : Nat) : Word64 := l.getD (x % 5 + 5 * (y % 5)) 0
  let c := (List.range 5).map (fun x => lane a x 0 ^^^ lane a x 1 ^^^ lane a x 2 ^^^ lane a x 3 ^^^ lane a x 4)
  let d := (List.range 5).map (fun x => c.getD ((x + 4) % 5) 0 ^^^ (c.getD ((x + 1) % 5) 0).rotateLeft 1)
  let a := (List.range 25).map (fun i => (a.getD i 0 ^^^ d.getD (i % 5) 0).rotateLeft (off.getD i 0))
  let b := (List.range 25).map (fun i => lane a (i % 5 + 3 * (i / 5)) (i % 5))
  let e := (List.range 25).map (fun i => lane b (i % 5) (i / 5) ^^^ (~~~(lane b (i % 5 + 1) (i / 5)) &&& lane b (i % 5 + 2) (i / 5)))
  e.set 0 (e.getD 0 0 ^^^ rc)

/-- Keccak-f[1600]. -/
def keccak (a : List Word64) : List Word64 := keccakConstants.foldl (keccakRound keccakOffsets) a

/-- A block joined into the state. -/
def keccakAbsorb (a : List Word64) (b : Bytes) : List Word64 :=
  let ws := (pieces 8 b).map (fun x => BitVec.ofNat 64 (leNat x))
  keccak (a.mapIdx (fun i x => x ^^^ ws.getD i 0))

/-- Output blocks of `rate` bytes squeezed from a state. -/
def keccakSqueeze (rate : Nat) : Nat → List Word64 → Bytes
  | 0, _ => []
  | n + 1, a => ((a.map (fun x => toLE 8 x.toNat)).flatten).take rate ++ keccakSqueeze rate n (keccak a)

/-- The first `n` bytes of the sponge with a rate and a suffix byte. -/
def sponge (rate : Nat) (suffix : Byte) (n : Nat) (m : Bytes) : Bytes :=
  let p := m ++ [suffix] ++ zeros ((rate - (m.length + 1) % rate) % rate)
  let p := p.dropLast ++ [p.getLastD 0 ^^^ 0x80]
  (keccakSqueeze rate ((n + rate - 1) / rate) ((pieces rate p).foldl keccakAbsorb (List.replicate 25 0))).take n

/-- SHAKE128 and SHAKE256 of `n` bytes, SHA3-256 and SHA3-512. -/
def shake128 (n : Nat) (m : Bytes) : Bytes := sponge 168 0x1F n m
/-- Byte `n` of SHAKE128's output. -/
@[irreducible] def shakeByte (m : Bytes) (n : Nat) : Byte := (shake128 (n + 1) m).getD n 0
/-- SHAKE256. -/
def shake256 (n : Nat) (m : Bytes) : Bytes := sponge 136 0x1F n m
/-- SHA3-256. -/
def sha3Small (m : Bytes) : Bytes := sponge 136 0x06 32 m
/-- SHA3-512. -/
def sha3Large (m : Bytes) : Bytes := sponge 72 0x06 64 m

end Sys2Proof.Machine
end

