-- ==== Sys2Proof/Machine/Kem.lean ====
section
/-! DEFINITION. ML-KEM-768 (FIPS 203; R275): polynomials are lists of 256 numbers below 3 329, vectors lists of 3 polynomials. -/

namespace Sys2Proof.Machine

open Sys2Proof

/-- The prime of ML-KEM. -/
def kemPrime : Nat := 3329

/-- A number of `n` bits with its bits in reverse. -/
def bitsReversed (n i : Nat) : Nat := bitsOf n (fun b => i.testBit (n - 1 - b))

/-- ζ = 17 to the bit-reversed index of a butterfly layer's block, numbered as a heap from 1. -/
def kemZeta (i : Nat) : Nat := expMod kemPrime 17 (bitsReversed 7 i)

/-- Sums, differences and products of polynomials, coefficient by coefficient. -/
def polySum (a b : List Nat) : List Nat := List.zipWith (fun x y => (x + y) % kemPrime) a b
/-- Differences. -/
def polyDiff (a b : List Nat) : List Nat := List.zipWith (fun x y => (x + kemPrime - y) % kemPrime) a b
/-- Multiples. -/
def polyTimes (k : Nat) (a : List Nat) : List Nat := a.map (fun x => k * x % kemPrime)

/-- The number-theoretic transform of block `i` and what lies under it, `n` layers deep. -/
def kemNtt : Nat → Nat → List Nat → List Nat
  | 0, _, f => f
  | n + 1, i, f =>
    let lo := f.take (f.length / 2)
    let t := polyTimes (kemZeta i) (f.drop (f.length / 2))
    kemNtt n (2 * i) (polySum lo t) ++ kemNtt n (2 * i + 1) (polyDiff lo t)

/-- Its inverse: half of the sum, and half of the difference over ζ. -/
def kemInv : Nat → Nat → List Nat → List Nat
  | 0, _, f => f
  | n + 1, i, f =>
    let lo := kemInv n (2 * i) (f.take (f.length / 2))
    let hi := kemInv n (2 * i + 1) (f.drop (f.length / 2))
    let half := (kemPrime + 1) / 2
    polyTimes half (polySum lo hi) ++ polyTimes (half * expMod kemPrime (kemZeta i) (kemPrime - 2) % kemPrime) (polyDiff lo hi)

/-- The product of two transformed polynomials: 128 products modulo X² − ζ^(2·BitRev7(i) + 1). -/
def kemMul (a b : List Nat) : List Nat :=
  ((List.range 128).map (fun i =>
    let g := expMod kemPrime 17 (2 * bitsReversed 7 i + 1)
    let a0 := a.getD (2 * i) 0
    let a1 := a.getD (2 * i + 1) 0
    let b0 := b.getD (2 * i) 0
    let b1 := b.getD (2 * i + 1) 0
    [(a0 * b0 + a1 * b1 % kemPrime * g) % kemPrime, (a0 * b1 + a1 * b0) % kemPrime])).flatten

/-- The inner product of two vectors of transformed polynomials. -/
def kemDot (a b : List (List Nat)) : List Nat := (List.zipWith kemMul a b).foldl polySum (List.replicate 256 0)

/-- ByteEncode: numbers of `d` bits, least significant bit first. -/
def kemEncode (d : Nat) (f : List Nat) : Bytes := toLE (d * f.length / 8) ((f.mapIdx (fun i x => x * 2 ^ (d * i))).sum)

/-- ByteDecode of 256 numbers; of 12 bits they are reduced. -/
def kemDecode (d : Nat) (b : Bytes) : List Nat :=
  let n := leNat b
  (List.range 256).map (fun i => n / 2 ^ (d * i) % 2 ^ d % (if d = 12 then kemPrime else 2 ^ d))

/-- Compress and Decompress. -/
def kemCompress (d x : Nat) : Nat := (2 ^ (d + 1) * x + kemPrime) / (2 * kemPrime) % 2 ^ d
/-- Decompress. -/
def kemDecompress (d y : Nat) : Nat := (kemPrime * y + 2 ^ (d - 1)) / 2 ^ d

/-- The numbers below the prime that triples of bytes give, two a triple. -/
def kemAccept : Nat → Bytes → List Nat
  | 0, _ => []
  | n + 1, b =>
    let c0 := byteAt b 0
    let c1 := byteAt b 1
    [c0 + 256 * (c1 % 16), c1 / 16 + 16 * byteAt b 2].filter (fun d => decide (d < kemPrime)) ++ kemAccept n (b.drop 3)

/-- SampleNTT over the first 1 024 triples of SHAKE128, of which 128 accepted pairs would do (log entry 6). -/
def kemUniform (rho : Bytes) (j i : Nat) : List Nat :=
  (kemAccept 1024 (shake128 3072 (rho ++ [BitVec.ofNat 8 j, BitVec.ofNat 8 i]))).take 256

/-- The centred binomial sample of η = 2 from SHAKE256. -/
def kemNoise (s : Bytes) (n : Nat) : List Nat :=
  let x := leNat (shake256 128 (s ++ [BitVec.ofNat 8 n]))
  let bit (i : Nat) : Nat := (x.testBit i).toNat
  (List.range 256).map (fun i => (bit (4 * i) + bit (4 * i + 1) + kemPrime - bit (4 * i + 2) - bit (4 * i + 3)) % kemPrime)

/-- Row i of the matrix A, or of its transpose. -/
def kemRow (rho : Bytes) (transposed : Bool) (i : Nat) : List (List Nat) :=
  (List.range 3).map (fun j => if transposed then kemUniform rho i j else kemUniform rho j i)

/-- The key pair of a seed d ‖ z: encapsulation key of 1 184 bytes, decapsulation key of 2 400 bytes. -/
def kemKeys (seed : Bytes) : Bytes × Bytes :=
  let g := sha3Large (seed.take 32 ++ [3])
  let rho := g.take 32
  let s := (List.range 3).map (fun i => kemNtt 7 1 (kemNoise (g.drop 32) i))
  let t := (List.range 3).map (fun i => polySum (kemDot (kemRow rho false i) s) (kemNtt 7 1 (kemNoise (g.drop 32) (3 + i))))
  let ek := (t.map (kemEncode 12)).flatten ++ rho
  (ek, (s.map (kemEncode 12)).flatten ++ ek ++ sha3Small ek ++ seed.drop 32)

/-- The ciphertext of a message under an encapsulation key, with given randomness. -/
def kemEncrypt (ek m r : Bytes) : Bytes :=
  let t := (pieces 384 (ek.take 1152)).map (kemDecode 12)
  let rho := ek.drop 1152
  let y := (List.range 3).map (fun i => kemNtt 7 1 (kemNoise r i))
  let u := (List.range 3).map (fun i => polySum (kemInv 7 1 (kemDot (kemRow rho true i) y)) (kemNoise r (3 + i)))
  let v := polySum (polySum (kemInv 7 1 (kemDot t y)) (kemNoise r 6)) ((kemDecode 1 m).map (kemDecompress 1))
  (u.map (fun f => kemEncode 10 (f.map (kemCompress 10)))).flatten ++ kemEncode 4 (v.map (kemCompress 4))

/-- The message that a ciphertext decrypts to. -/
def kemDecrypt (dk ct : Bytes) : Bytes :=
  let u := (pieces 320 (ct.take 960)).map (fun b => kemNtt 7 1 ((kemDecode 10 b).map (kemDecompress 10)))
  let v := (kemDecode 4 (ct.drop 960)).map (kemDecompress 4)
  let s := (pieces 384 (dk.take 1152)).map (kemDecode 12)
  kemEncode 1 ((polyDiff v (kemInv 7 1 (kemDot s u))).map (kemCompress 1))

/-- The pair of a 64-byte seed, as byte strings of their lengths. -/
@[irreducible] def kemPair (seed : Bytes) : Bytes × Bytes :=
  let k := kemKeys (fitBytes 64 seed)
  (fitBytes 1184 k.1, fitBytes 2400 k.2)

/-- Encapsulation with given randomness: ciphertext of 1 088 bytes and shared secret. -/
@[irreducible] def kemSeal (ek rnd : Bytes) : Bytes × Bytes :=
  let g := sha3Large (fitBytes 32 rnd ++ sha3Small ek)
  (fitBytes 1088 (kemEncrypt ek (fitBytes 32 rnd) (g.drop 32)), g.take 32)

/-- Decapsulation: the shared secret, or the pseudorandom one of a ciphertext that does not encrypt again to itself. -/
@[irreducible] def kemOpen (dk ct : Bytes) : Bytes :=
  let ek := slice dk 1152 1184
  let m := kemDecrypt dk ct
  let g := sha3Large (m ++ slice dk 2336 32)
  fitBytes 32 (if kemEncrypt ek m (g.drop 32) = ct then g.take 32 else shake256 32 (slice dk 2368 32 ++ ct))

end Sys2Proof.Machine
end

