-- ==== Sys2Proof/Machine/Slh.lean ====
section
/-! DEFINITION. SLH-DSA (FIPS 205; R275): SLH-DSA-SHA2-128f keys and deterministic signatures, and verification for both parameter sets. -/

namespace Sys2Proof.Machine

open Sys2Proof

/-- A parameter set: n, layers d, height h' of a layer's tree, height a and number k of the FORS trees, and SHA-512 in H, T and the message
hash. -/
structure SlhSet where
  n : Nat
  d : Nat
  height : Nat
  a : Nat
  k : Nat
  large : Bool

/-- SLH-DSA-SHA2-128f. -/
def slhFast : SlhSet := { n := 16, d := 22, height := 3, a := 6, k := 33, large := false }

/-- SLH-DSA-SHA2-256s. -/
def slhSmall : SlhSet := { n := 32, d := 8, height := 8, a := 14, k := 22, large := true }

/-- A compressed address: layer, tree, type and its three words. -/
structure SlhAddr where
  layer : Nat
  tree : Nat
  type : Nat
  w1 : Nat
  w2 : Nat
  w3 : Nat

/-- The 22 bytes of an address. -/
def SlhAddr.bytes (x : SlhAddr) : Bytes :=
  [BitVec.ofNat 8 x.layer] ++ toBE 8 x.tree ++ [BitVec.ofNat 8 x.type] ++ toBE 4 x.w1 ++ toBE 4 x.w2 ++ toBE 4 x.w3

/-- F and PRF: one value of n bytes. -/
def SlhSet.f (p : SlhSet) (pk : Bytes) (x : SlhAddr) (m : Bytes) : Bytes := (sha256 (pk ++ zeros (64 - p.n) ++ x.bytes ++ m)).take p.n

/-- H and T: several values. -/
def SlhSet.t (p : SlhSet) (pk : Bytes) (x : SlhAddr) (m : Bytes) : Bytes :=
  if p.large then (sha512 (pk ++ zeros (128 - p.n) ++ x.bytes ++ m)).take p.n else p.f pk x m

/-- The first `n` bytes of MGF1. -/
def mgf1 (hash : Bytes → Bytes) (len n : Nat) (seed : Bytes) : Bytes :=
  (((List.range ((n + len - 1) / len)).map (fun i => hash (seed ++ toBE 4 i))).flatten).take n

/-- Bytes of the message digest that give the FORS indices, the tree and the leaf. -/
def SlhSet.parts (p : SlhSet) : Nat × Nat × Nat :=
  ((p.k * p.a + 7) / 8, (p.height * (p.d - 1) + 7) / 8, (p.height + 7) / 8)

/-- The message digest. -/
def SlhSet.digest (p : SlhSet) (r pk root m : Bytes) : Bytes :=
  let n := p.parts.1 + p.parts.2.1 + p.parts.2.2
  if p.large then mgf1 sha512 64 n (r ++ pk ++ sha512 (r ++ pk ++ root ++ m)) else mgf1 sha256 32 n (r ++ pk ++ sha256 (r ++ pk ++ root ++ m))

/-- The first `n` numbers of `b` bits of a byte string, most significant first. -/
def baseDigits (b n : Nat) (x : Bytes) : List Nat :=
  (List.range n).map (fun i => beNat x / 2 ^ (8 * x.length - b * (i + 1)) % 2 ^ b)

/-! ## WOTS+ -/

/-- Steps of a chain from one position. -/
def SlhSet.chain (p : SlhSet) (pk : Bytes) (x : SlhAddr) (from_ steps : Nat) (v : Bytes) : Bytes :=
  (List.range steps).foldl (fun v i => p.f pk { x with w3 := from_ + i } v) v

/-- The digits that sign a value, and their checksum's. -/
def SlhSet.digits (p : SlhSet) (m : Bytes) : List Nat :=
  let l := baseDigits 4 (2 * p.n) m
  l ++ baseDigits 4 3 (toBE 2 (16 * (l.map (fun x => 15 - x)).sum))

/-- The start of a chain. -/
def SlhSet.secret (p : SlhSet) (pk sk : Bytes) (x : SlhAddr) (i : Nat) : Bytes := p.f pk { x with type := 5, w2 := i, w3 := 0 } sk

/-- The public key of a leaf; the address has type WOTS_HASH and its key pair. -/
def SlhSet.wotsPk (p : SlhSet) (pk sk : Bytes) (x : SlhAddr) : Bytes :=
  p.t pk { x with type := 1, w2 := 0, w3 := 0 }
    (((List.range (2 * p.n + 3)).map (fun i => p.chain pk { x with w2 := i } 0 15 (p.secret pk sk x i))).flatten)

/-- A signature of a value of n bytes. -/
def SlhSet.wotsSign (p : SlhSet) (pk sk : Bytes) (x : SlhAddr) (m : Bytes) : Bytes :=
  ((p.digits m).mapIdx (fun i v => p.chain pk { x with w2 := i } 0 v (p.secret pk sk x i))).flatten

/-- The public key that a signature gives. -/
def SlhSet.wotsFrom (p : SlhSet) (pk : Bytes) (x : SlhAddr) (m sig : Bytes) : Bytes :=
  p.t pk { x with type := 1, w2 := 0, w3 := 0 }
    (((p.digits m).mapIdx (fun i v => p.chain pk { x with w2 := i } v (15 - v) (slice sig (p.n * i) p.n))).flatten)

/-! ## Trees -/

/-- The node at a height and index of the tree of a layer (XMSS). -/
def SlhSet.node (p : SlhSet) (pk sk : Bytes) (layer tree : Nat) : Nat → Nat → Bytes
  | 0, i => p.wotsPk pk sk { layer := layer, tree := tree, type := 0, w1 := i, w2 := 0, w3 := 0 }
  | z + 1, i =>
    p.t pk { layer := layer, tree := tree, type := 2, w1 := 0, w2 := z + 1, w3 := i }
      (SlhSet.node p pk sk layer tree z (2 * i) ++ SlhSet.node p pk sk layer tree z (2 * i + 1))

/-- The root that a leaf's value and its authentication path give; `x` is the address of the leaf's tree. -/
def SlhSet.climb (p : SlhSet) (pk : Bytes) (x : SlhAddr) (i : Nat) (auth : List Bytes) (v : Bytes) : Bytes :=
  ((auth.mapIdx (fun j s => (j, s))).foldl (fun (v : Bytes) e =>
    p.t pk { x with w2 := e.1 + 1, w3 := i / 2 ^ (e.1 + 1) } (if i / 2 ^ e.1 % 2 = 0 then v ++ e.2 else e.2 ++ v)) v)

/-- The tree and the leaf of a layer in the hypertree. -/
def SlhSet.place (p : SlhSet) (tree leaf layer : Nat) : Nat × Nat :=
  if layer = 0 then (tree, leaf) else (tree / 2 ^ (p.height * layer), tree / 2 ^ (p.height * (layer - 1)) % 2 ^ p.height)

/-- Bytes of a layer's signature. -/
def SlhSet.layerBytes (p : SlhSet) : Nat := p.n * (2 * p.n + 3 + p.height)

/-- The root that a layer's signature gives. -/
def SlhSet.layerRoot (p : SlhSet) (pk : Bytes) (layer : Nat) (at_ : Nat × Nat) (m sig : Bytes) : Bytes :=
  let x : SlhAddr := { layer := layer, tree := at_.1, type := 0, w1 := at_.2, w2 := 0, w3 := 0 }
  let cut := p.n * (2 * p.n + 3)
  p.climb pk { x with type := 2, w1 := 0 } at_.2 (pieces p.n (sig.drop cut)) (p.wotsFrom pk x m (sig.take cut))

/-- A layer's signature. -/
def SlhSet.layerSign (p : SlhSet) (pk sk : Bytes) (layer : Nat) (at_ : Nat × Nat) (m : Bytes) : Bytes :=
  p.wotsSign pk sk { layer := layer, tree := at_.1, type := 0, w1 := at_.2, w2 := 0, w3 := 0 } m
    ++ ((List.range p.height).map (fun j => p.node pk sk layer at_.1 j (at_.2 / 2 ^ j ^^^ 1))).flatten

/-! ## FORS -/

/-- The secret value of a FORS leaf. -/
def SlhSet.forsSecret (p : SlhSet) (pk sk : Bytes) (tree leaf i : Nat) : Bytes :=
  p.f pk { layer := 0, tree := tree, type := 6, w1 := leaf, w2 := 0, w3 := i } sk

/-- A node of the FORS trees. -/
def SlhSet.forsNode (p : SlhSet) (pk sk : Bytes) (tree leaf : Nat) : Nat → Nat → Bytes
  | 0, i => p.f pk { layer := 0, tree := tree, type := 3, w1 := leaf, w2 := 0, w3 := i } (p.forsSecret pk sk tree leaf i)
  | z + 1, i =>
    p.t pk { layer := 0, tree := tree, type := 3, w1 := leaf, w2 := z + 1, w3 := i }
      (SlhSet.forsNode p pk sk tree leaf z (2 * i) ++ SlhSet.forsNode p pk sk tree leaf z (2 * i + 1))

/-- The FORS signature of a digest. -/
def SlhSet.forsSign (p : SlhSet) (pk sk : Bytes) (tree leaf : Nat) (md : Bytes) : Bytes :=
  ((baseDigits p.a p.k md).mapIdx (fun i x =>
    p.forsSecret pk sk tree leaf (i * 2 ^ p.a + x)
      ++ ((List.range p.a).map (fun j => p.forsNode pk sk tree leaf j (i * 2 ^ (p.a - j) + (x / 2 ^ j ^^^ 1)))).flatten)).flatten

/-- The FORS public key that a signature of a digest gives. -/
def SlhSet.forsFrom (p : SlhSet) (pk : Bytes) (tree leaf : Nat) (md sig : Bytes) : Bytes :=
  let x : SlhAddr := { layer := 0, tree := tree, type := 3, w1 := leaf, w2 := 0, w3 := 0 }
  let roots := (baseDigits p.a p.k md).mapIdx (fun i d =>
    let s := slice sig (p.n * (p.a + 1) * i) (p.n * (p.a + 1))
    let at_ := i * 2 ^ p.a + d
    p.climb pk x at_ (pieces p.n (s.drop p.n)) (p.f pk { x with w3 := at_ } (s.take p.n)))
  p.t pk { x with type := 4 } roots.flatten

/-! ## Signatures -/

/-- The digest's FORS part, tree and leaf. -/
def SlhSet.split (p : SlhSet) (d : Bytes) : Bytes × Nat × Nat :=
  let (a, b, c) := p.parts
  (d.take a, beNat (slice d a b) % 2 ^ (p.height * (p.d - 1)), beNat (slice d (a + b) c) % 2 ^ p.height)

/-- The message with its context, as pure signing forms it. -/
def slhMessage (ctx m : Bytes) : Bytes := [0, BitVec.ofNat 8 ctx.length] ++ ctx ++ m

/-- The public key of SK.seed ‖ SK.prf ‖ PK.seed. -/
def SlhSet.publicKey (p : SlhSet) (seed : Bytes) : Bytes :=
  let pk := slice seed (2 * p.n) p.n
  pk ++ p.node pk (seed.take p.n) (p.d - 1) 0 p.height 0

/-- A deterministic signature of a message with a context. -/
def SlhSet.sign (p : SlhSet) (seed ctx msg : Bytes) : Bytes :=
  let m := slhMessage ctx msg
  let sk := seed.take p.n
  let pk := slice seed (2 * p.n) p.n
  let root := (p.publicKey seed).drop p.n
  let prf := slice seed p.n p.n
  let r := (if p.large then hmacLarge prf (pk ++ m) else hmac prf (pk ++ m)).take p.n
  let (md, tree, leaf) := p.split (p.digest r pk root m)
  let fors := p.forsSign pk sk tree leaf md
  let ht := (List.range p.d).foldl (fun (a : Bytes × Bytes) layer =>
    let at_ := p.place tree leaf layer
    let sig := p.layerSign pk sk layer at_ a.2
    (a.1 ++ sig, p.layerRoot pk layer at_ a.2 sig)) ([], p.forsFrom pk tree leaf md fors)
  r ++ fors ++ ht.1

/-- Bytes of a signature. -/
def SlhSet.sigBytes (p : SlhSet) : Nat := p.n * (1 + p.k * (p.a + 1)) + p.d * p.layerBytes

/-- A signature of a message with a context is valid under a public key. -/
def SlhSet.verify (p : SlhSet) (key ctx msg sig : Bytes) : Bool :=
  let pk := key.take p.n
  let root := slice key p.n p.n
  let (md, tree, leaf) := p.split (p.digest (sig.take p.n) pk root (slhMessage ctx msg))
  let cut := p.n * (1 + p.k * (p.a + 1))
  let top := (List.range p.d).foldl (fun v layer => p.layerRoot pk layer (p.place tree leaf layer) v (slice sig (cut + p.layerBytes * layer) p.layerBytes))
    (p.forsFrom pk tree leaf md (slice sig p.n (cut - p.n)))
  decide (sig.length = p.sigBytes) && top == root

/-- The SLH-DSA-SHA2-128f public key of a 48-byte seed. -/
@[irreducible] def slhPublic (seed : Bytes) : Bytes := fitBytes 32 (slhFast.publicKey seed)

/-- The deterministic SLH-DSA-SHA2-128f signature of a message with a context, 17 088 bytes. -/
@[irreducible] def slhSign (seed ctx m : Bytes) : Bytes := fitBytes 17088 (slhFast.sign seed ctx m)

/-- SLH-DSA-SHA2-256s verification: public key, context, message, signature. -/
@[irreducible] def slhVerify (key ctx m sig : Bytes) : Bool := slhSmall.verify key ctx m sig

end Sys2Proof.Machine
end

