-- ==== Sys2Proof/Machine/Crypto.lean ====
section
/-! DEFINITION. The published primitives that the manual cites (R275, R309, R347), and CRC-32C. -/

namespace Sys2Proof.Machine

open Sys2Proof

/-! ## CRC-32C (R33, R387) -/

/-- One bit of the reflected CRC with polynomial 0x1EDC_6F41. -/
def crcBit (c : BitVec 32) : BitVec 32 := if c.getLsbD 0 then (c >>> 1) ^^^ 0x82F63B78#32 else c >>> 1

/-- One byte of the CRC. -/
def crcByte (c : BitVec 32) (b : Byte) : BitVec 32 :=
  crcBit (crcBit (crcBit (crcBit (crcBit (crcBit (crcBit (crcBit (c ^^^ b.setWidth 32))))))))

/-- CRC-32C with initial value and final exclusive or 0xFFFF_FFFF, reflected (R33: DCHK). -/
def crc32c (m : Bytes) : BitVec 32 := (m.foldl crcByte 0xFFFFFFFF#32) ^^^ 0xFFFFFFFF#32

end Sys2Proof.Machine
end

