-- ==== Sys2Proof/Machine/State.lean ====
section
/-! DEFINITION. The state of the LN7300 as plain data: every register, queue, table, key, mode and pin the manual gives the
device, the outputs that left it, and the queue of waiting commands. -/

namespace Sys2Proof.Machine

/-- Why the block would stop with a fault. -/
inductive Fault where
  /-- Raised by no command: the manual says what every access to an address without memory does (R348, R360, R422). Safe. -/
  | addressHole
  deriving DecidableEq, Repr, Inhabited

/-- Why the block refuses a command. -/
inductive Refusal where
  /-- Raised by an arm of `exec` whose command has no meaning; every command has one. Safe. -/
  | notModelled (mnemonic : String)
  deriving DecidableEq, Repr, Inhabited

/-! ## Time and units (chapter 01) -/

/-- Which row of R21's accuracy table is in force for the local oscillators. -/
inductive OscError where
  | neverTrimmed | referencePresent | heldTrim
  deriving DecidableEq, Repr, Inhabited

/-- Powered time (R21 to R23). -/
structure TimeState where
  /-- Vilmin's powered-time counter PTIME in ns (R22). -/
  ptime : Word64
  /-- The shadow of SEC_PTIME's upper half, while it is valid (R22, SEC_PTIME note 2). -/
  shadow : Option Word32
  /-- The PTIME mirrors of F0 to F3 (R23). -/
  mirrors : List Word64
  /-- The PCIe 100 MHz reference is present (R21). -/
  refPresent : Bool
  /-- The oscillators have been trimmed since power application (R21). -/
  trimmed : Bool
  /-- Trims made since power application, one every 10 ms of powered time (R21). -/
  trims : Nat
  deriving DecidableEq, Repr, Inhabited

/-- What a core does (R17, R28). -/
inductive CoreRole where
  | off | active | spare | retired
  deriving DecidableEq, Repr, Inhabited

/-- What a command processor does (R28, R404). -/
inductive CpRole where
  | off | active | spare | retired
  deriving DecidableEq, Repr, Inhabited

/-! ## Command rings (chapter 03) -/

/-- STATE of HST_RING_STATUS (R65). -/
inductive RingMode where
  | disabled | enabled | stopping | error
  deriving DecidableEq, Repr, Inhabited

/-- A completion record formed and waiting for CQ space (R68, R69, R97). -/
structure WaitingRecord where
  cid : Nat
  tag : Word32
  status : Nat
  opcode : Nat
  detail : Word32
  result : Word64
  notify : Bool
  deriving DecidableEq, Repr, Inhabited

/-- One command ring: its registers, and what the device keeps of it (R62 to R70, R460). -/
structure Ring where
  enable : Bool
  /-- CLASS: true for a control ring. -/
  control : Bool
  sqLog2 : BitVec 4
  cqLog2 : BitVec 5
  weight : BitVec 4
  vector : BitVec 8
  irqEn : Bool
  sqBase : BitVec 52
  cqBase : BitVec 52
  sqHead : BitVec 16
  cqTail : BitVec 16
  mode : RingMode
  sqPhase : Bool
  cqPhase : Bool
  /-- HST_RING_ERROR: CONFIG, DOORBELL_RANGE, STALE_SLATE, FETCH_ERROR, CQ_WRITE_ERROR, DOORBELL_DISABLED. -/
  errors : BitVec 6
  /-- TAIL as last written to HST_SQ_DOORBELL. -/
  tail : BitVec 16
  /-- HEAD as last written to HST_CQ_DOORBELL. -/
  head : BitVec 16
  /-- A slate failed the phase check once and its slot will be read again (R66). -/
  reread : Bool
  /-- Records waiting for CQ space, in completion order (R83, R97). -/
  records : List WaitingRecord
  /-- The ring stands in ERROR or discards records (R460). -/
  stretch : Bool
  /-- The RING_ERROR event of this stretch has been posted (R460). -/
  posted : Bool
  /-- A CQ_WRITE_ERROR makes the ring discard its records (R65, R460). -/
  discarding : Bool
  /-- Records discarded over the stretch (R460). -/
  discarded : Nat
  deriving DecidableEq, Repr, Inhabited

/-- The opcodes of R90. -/
inductive Opcode where
  | nop | identify | setHostTime | cmdAbort | tenantOpen | tenantHandover | tenantPolicySet | jobOpen | jobClose
  | takeOpen | takeClose | takeAbort | setBudget | regionRegister | regionRevoke | connOpen | connClose | wrPost
  | wrCancel | stagingMap | scrubConfigure | graphLoad | groupOpen | groupDrain | groupClose | accConfigure
  | accCombine | maskConfigure | maskSeedsSubmit | maskRemove | polyParamsLoad | polyTableBuild | polyKeyLoad
  | polyNtt | polyAdd | polyKeyswitch | polyModred | polyEncNoise | polyDecShare | polyToShares | gatePolicySet
  | gateRelease | vaultConfigure | vaultLoad | vaultStep | vaultExport | attest | challenge | ownerEnrol | keyUpdate
  | keyStage | keyCommit | devsetEnrol | getRandom | cntRead | cntConfigure | dailiesConfigure | traceConfigure
  | traceRead | debugRead | warpConfigure | warpRetrain | linkTest | selfTest | fwStage | fwActivate
  deriving DecidableEq, Repr, Inhabited

/-- Status codes of R92. -/
inductive Status where
  | ok | badOpcode | badParam | noResource | timeout | aborted | notPermitted | busyDeferred | depFailed | hostFault
  | regionRevoked | keyInvalid | outOfBounds | rights | groupClosed | seqGap | scaleExhausted | longSum | authFail
  | keyMismatch | noiseExhausted | seedRule | duplicateClient | cohortTooSmall | noEntropy | entropyFail | sigInvalid
  | counterStale | zeroized
  deriving DecidableEq, Repr, Inhabited

/-- How far an outstanding command has come (R77, R86). -/
inductive CmdPhase where
  | fetched | started | working | committed
  deriving DecidableEq, Repr, Inhabited

/-! ## The reel (chapter 04) -/

/-- Event types of R106. -/
inductive EventType where
  | deviceReady | degraded | outOfService | ringError | overflow | warmRestart | fwActivated | portLink | connError
  | remoteAccessError | reassemblyTimeout | wrNotify | groupFailed | scaleStep | longSum | sliceMigrated | openAuthFail
  | tableReady | entropyFail | entropyReady | zeroized | zeroizeReleased | debugDenied | tenantChanged | keyChanged
  | throttle | hotIn | thermalWarn | thermTrip | inputPower | faultRecovered | faultEscalated | eccCorrected
  | eccUncorrectable | dailiesWritten | counterSample | warpLink | testDone
  deriving DecidableEq, Repr, Inhabited

/-- One event: what its 64-byte record carries (R101), and the command whose completion waits for it (R70). -/
structure Event where
  type : EventType
  /-- Source class of R103. -/
  srcClass : Nat
  /-- Instance within the source class (R103). -/
  srcInst : Nat
  job : BitVec 8
  group : BitVec 8
  ptime : Word64
  /-- Up to 40 bytes; the rest of PAYLOAD is zero. -/
  payload : Bytes
  /-- EVENT_SEQ (R104). -/
  seq : Word32
  summary : Bool
  coarsened : Bool
  /-- SUPPRESSED (R112). -/
  suppressed : Nat
  /-- The outstanding command whose execution posted it. -/
  cid : Option Nat
  deriving DecidableEq, Repr, Inhabited

/-- An open rate-limit window of a key (R112). -/
structure RateWindow where
  type : EventType
  srcClass : Nat
  srcInst : Nat
  /-- Events of the key suppressed in this window. -/
  count : Nat
  /-- The last suppressed event. -/
  last : Event
  deriving DecidableEq, Repr, Inhabited

/-- Moderation of one MSI-X vector (R113). -/
structure VecMod where
  count : BitVec 16
  delayUs : BitVec 16
  /-- Records pending on the vector. -/
  pending : Nat
  deriving DecidableEq, Repr, Inhabited

/-- The reel, its registers and the on-die event queue (R98 to R114). -/
structure Reel where
  enable : Bool
  log2 : BitVec 5
  vector : BitVec 8
  irqEn : Bool
  critEn : Bool
  critVector : BitVec 8
  base : BitVec 52
  head : BitVec 16
  tail : BitVec 16
  phase : Bool
  enabled : Bool
  overflowing : Bool
  headError : Bool
  writeError : Bool
  config : Bool
  /-- LOST of HST_REEL_LOST. -/
  lost : Word32
  /-- SUPPRESSED of HST_REEL_LOST. -/
  suppressed : Word32
  /-- The on-die event queue, oldest first, at most 1024 records (R109). -/
  queue : List Event
  /-- The next EVENT_SEQ (R104). -/
  nextSeq : Word32
  /-- Events lost since the last OVERFLOW end record, for its payload (R111). -/
  owed : Nat
  owedHigh : Nat
  firstLost : Word64
  lastLost : Word64
  windows : List RateWindow
  /-- HST_VEC_MOD and pending counts of the 256 vectors (R113). -/
  vectors : List VecMod
  deriving DecidableEq, Repr, Inhabited

/-! ## PCI Express and the shuttle (chapter 15) -/

/-- One MSI-X table entry (R372). -/
structure MsixEntry where
  addr : Word64
  data : Word32
  mask : Bool
  deriving DecidableEq, Repr, Inhabited

/-- The PCI Express function and the shuttle (R364 to R382). -/
structure Pcie where
  /-- Configuration requests complete successfully (R368). -/
  ready : Bool
  busMaster : Bool
  memSpace : Bool
  d3hot : Bool
  linkUp : Bool
  speed : BitVec 3
  width : BitVec 5
  msixEnable : Bool
  functionMask : Bool
  /-- The 256 entries of the MSI-X table. -/
  table : List MsixEntry
  /-- The pending bits of the 256 vectors. -/
  pba : BitVec 256
  /-- Base addresses held by the three BARs, as last written. -/
  bars : List Word64
  /-- What was last written to the other configuration double words, by offset (R366). -/
  config : List (Nat × Word32)
  /-- Device Control: Enable Relaxed Ordering, Max_Payload_Size, Extended Tag, Max_Read_Request_Size. -/
  relaxedOrdering : Bool
  maxPayload : BitVec 3
  extendedTag : Bool
  maxReadRequest : BitVec 3
  /-- Device Control 2: 10-Bit Tag Requester Enable. -/
  tenBitTag : Bool
  /-- DMA_CTRL. -/
  addrBits : BitVec 7
  roBulk : Bool
  /-- DMA_ERR: CPL_TIMEOUT, CPL_UR, CPL_CA, CPL_POISONED, ADDR_LIMIT, UNEXPECTED_CPL, BAR_WIDTH. -/
  err : BitVec 7
  errAddr : Word64
  barErrCount : Word32
  barErrOffset : BitVec 26
  barErrBar2 : Bool
  bytesRead : Word64
  bytesWritten : Word64
  preempts : Word32
  maxWaitNs : BitVec 16
  /-- Writes and read requests that wait while the shuttle may issue nothing (R373): address, bytes, bulk; and reader, input offset,
  address, length. -/
  writes : List (Nat × Bytes × Bool)
  asks : List (Sys2Proof.Reader × Nat × Nat × Nat)
  /-- Bytes of issued reads not yet returned: for whom, input offset, address, length. -/
  reads : List (Sys2Proof.Reader × Nat × Nat × Nat)
  /-- Completions held out of order (R379): for whom, input offset, bytes. -/
  buffer : List (Sys2Proof.Reader × Nat × Bytes)
  deriving DecidableEq, Repr, Inhabited

/-! ## Transport (chapter 05) -/

/-- One Ethernet port: its ING_ page and what the port engine keeps (R115, R116). -/
structure Port where
  enable : Bool
  allowDegrade : Bool
  ipv4En : Bool
  ipv6En : Bool
  vlanEn : Bool
  dscp : BitVec 6
  vid : BitVec 12
  pcp : BitVec 3
  linkUp : Bool
  /-- 0 down, 1 two lanes, 2 four lanes. -/
  width : BitVec 2
  lanesGood : BitVec 4
  mac : BitVec 48
  ipv4 : Word32
  ipv6 : BitVec 128
  icvFail : BitVec 16
  noConn : BitVec 16
  malformed : BitVec 16
  creditViolation : BitVec 16
  /-- The port engine is in service (R402). -/
  inService : Bool
  /-- It has run at 200 Gb/s since it was last at 400 Gb/s (R116). -/
  degraded : Bool
  /-- ENABLE has been written 0 since it was degraded: it may come back at 400 Gb/s (R116). -/
  rearmed : Bool
  deriving DecidableEq, Repr, Inhabited

/-- How far a connection has come (R123, R125). -/
inductive ConnPhase where
  | connecting | halfOpen | opened | closing
  deriving DecidableEq, Repr, Inhabited

/-- A work request (R137, R138). -/
structure WorkReq where
  /-- Its identity on its connection. -/
  id : Nat
  kind : Nat
  notify : Bool
  triggered : Bool
  fence : Bool
  setTrigger : Bool
  waitTrig : Nat
  sendTrig : Nat
  threshold : Nat
  lkey : Word32
  laddr : Nat
  len : Nat
  rkey : Word32
  raddr : Nat
  operand : Word64
  cookie : Word64
  /-- MSG_ID taken when it started. -/
  msgId : Option Word32
  /-- Units of 4 KiB of READ_RESP data placed. -/
  units : List Nat
  /-- Bytes read so far of a source in host memory, until its message leaves. -/
  fetched : Option Bytes
  deriving DecidableEq, Repr, Inhabited

/-- A message on the receive side (R133 to R135). -/
structure RxMsg where
  type : Nat
  rkey : Word32
  len : Nat
  raddr : Nat
  trigger : Bool
  trigId : Nat
  /-- Units of 4 KiB marked in the reassembly bitmap. -/
  units : List Nat
  /-- Data of SEND and of atomics, by message offset, kept until visibility. -/
  data : List (Nat × Bytes)
  /-- The message failed; its packets are acknowledged and discarded (R135). -/
  failed : Bool
  /-- The receive work request that a SEND has taken (R138). -/
  recv : Option WorkReq
  /-- Path of the last packet placed of it: a port 0 to 7, or 8 + a warp link. -/
  path : Nat
  deriving DecidableEq, Repr, Inhabited

/-- A data-class packet that waits for credit or window and takes its PSN when it is sent: header bytes 16 to 55, and data. -/
structure TxItem where
  type : Nat
  flags : Nat
  tail : Bytes
  data : Bytes
  /-- A receipt's start point, PTIME in ns, whose latency ends when it is issued (R161). -/
  since : Option Nat
  deriving DecidableEq, Repr, Inhabited

/-- A data-class packet sent and not yet acknowledged, byte-identical on every sending (R121, R131). -/
structure TxPacket where
  psn : Nat
  type : Nat
  body : Bytes
  /-- Covered by the last SACK. -/
  sacked : Bool
  deriving DecidableEq, Repr, Inhabited

/-- A connection (R121 to R138). -/
structure Conn where
  /-- Its identity: connection numbers are given out again, this is not. -/
  id : Nat
  phase : ConnPhase
  job : Nat
  windowMode : Bool
  portMask : BitVec 8
  reasmMs : Nat
  window : Nat
  creditInit : Nat
  /-- The listener that accepted it. -/
  listener : Option Nat
  /-- The command that opens it and waits for CONNECT_ACCEPT. -/
  cid : Option Nat
  /-- This device sent CONNECT_REQ. -/
  initiator : Bool
  /-- The warp link that carries it (chapter 16), if it is no Ethernet connection. -/
  link : Option Nat
  peerConn : Nat
  ipVer : Nat
  peerIp : Bytes
  peerMac : BitVec 48
  nonceI : Bytes
  nonceR : Bytes
  /-- OKM of R121: keys and salts of both directions, as the key registers of its ports' GMAC units or of its warp engine hold them (R280;
  log entry 118). -/
  okm : Bytes
  /-- CONNECT_REQ or CONNECT_ACCEPT as sent, for repeats. -/
  greeting : Bytes
  tries : Nat
  rxCum : Nat
  rxSet : List Nat
  rxCtl : Option Nat
  /-- Units received, at the first receipt of each PSN (R130). -/
  rxUnits : Nat
  /-- CREDIT_LIMIT granted since set-up. -/
  granted : Nat
  msgs : List (Nat × RxMsg)
  cumMsg : Word32
  /-- Data packets received since the last ACK (R129). -/
  sinceAck : Nat
  violations : Nat
  txPsn : Nat
  txCtl : Nat
  txMsg : Word32
  /-- Packets waiting for credit or window, oldest first. -/
  txQueue : List TxItem
  unacked : List TxPacket
  txLimit : Word32
  txSpent : Word32
  expiries : Nat
  /-- The last 64 atomic results: request MSG_ID and prior value (R128). -/
  atomics : List (Word32 × Word64)
  wrs : List WorkReq
  recvs : List WorkReq
  /-- Work requests accepted since set-up: the next one's identity. -/
  wrMade : Nat
  /-- Messages to resend after RETRY_US (R132). -/
  retries : List Word32
  /-- Units of INGEST messages whose return has fallen due (R158). -/
  fallen : Nat
  /-- It has written an INGEST region (R158). -/
  ingest : Bool
  /-- PSN of the DISCONNECT sent. -/
  discPsn : Option Nat
  /-- READ_REQs of host regions that wait for host memory: message, key, length, bytes read (R127). -/
  answers : List (Word32 × Word32 × Nat × Bytes)
  /-- Messages sent for no work request, until CUM_MSG passes them: message, RKEY, RADDR (R160). -/
  posted : List (Word32 × Word32 × Nat)
  deriving DecidableEq, Repr, Inhabited

/-- A listener (R124). -/
structure Listener where
  job : Nat
  /-- The warp link that it listens on (R391), if it is no Ethernet listener. -/
  link : Option Nat
  windowMode : Bool
  portMask : BitVec 8
  reasmMs : Nat
  window : Nat
  creditInit : Nat
  max : Nat
  accepted : Nat
  deriving DecidableEq, Repr, Inhabited

/-- SPACE of a region (R126). -/
inductive Space where
  | device | host | ingest | combine
  deriving DecidableEq, Repr, Inhabited

/-- A region (R126, R140). -/
structure Region where
  gen : BitVec 8
  space : Space
  job : Nat
  rights : BitVec 4
  base : Nat
  len : Nat
  revoking : Bool
  /-- Local work requests that hold it (R140). -/
  inFlight : Nat
  deriving DecidableEq, Repr, Inhabited

/-- Connections, listeners and regions (chapter 05). -/
structure Transport where
  ports : List Port
  conns : List (Nat × Conn)
  listeners : List (Nat × Listener)
  regions : List (Nat × Region)
  /-- The generation last issued for each index used (R126). -/
  lastGen : List (Nat × BitVec 8)
  /-- Connections made since power application: the next one's identity. -/
  made : Nat
  deriving DecidableEq, Repr, Inhabited

/-! ## Ingest (chapter 06) -/

/-- How far a visible envelope has come (R146 to R157). -/
inductive MsgStage where
  /-- In the handshake queue. -/
  | handshake
  /-- K_MSG is available; waiting for admission. -/
  | keyed
  /-- Admitted; segments are being verified. -/
  | opening
  /-- Every segment verified; awaiting the arbiter. -/
  | verified
  /-- Committed; its contributions are in flight, or its second pass runs. -/
  | committed
  deriving DecidableEq, Repr, Inhabited

/-- State of a splice slot (R155). -/
inductive SlotMode where
  | reserved | opened | committed
  deriving DecidableEq, Repr, Inhabited

/-- Where a committed tile stands on its way into ACCUMULATE: in its splice's queue, in the stream into the node, or taken by the node
(R36, R39, R155). -/
inductive TilePlace where
  | splice | stream | node
  deriving DecidableEq, Repr, Inhabited

/-- A tile in a splice, or the placeholder of one that waits for a slot (R151, R152, R155, R156). -/
structure SpliceTile where
  group : Nat
  tile : Nat
  segment : Nat
  core : Nat
  /-- The slot it holds, if it holds one. -/
  slot : Option SlotMode
  /-- Its mark: the position of its slot in the splice, 0 to 63 (R156). -/
  mark : Nat
  /-- Its 64-byte tile descriptor (R33, R155). -/
  desc : Bytes
  /-- Plaintext, VALID_BYTES long. -/
  data : Bytes
  /-- Placement epoch when it was written (R33). -/
  epoch : Nat
  place : TilePlace
  /-- Token positions whose sums have left the bottom row (R54, R164). -/
  done : List Nat
  /-- A seed tile that the node has taken: the descriptors of the bank tiles that POLY makes of it (R227). -/
  made : List Bytes
  deriving DecidableEq, Repr, Inhabited

/-- A visible envelope, from its checks until its last contribution leaves flight (R146 to R157). -/
structure Message where
  conn : Nat
  /-- The connection's identity: its number may be given out again. -/
  connId : Nat
  msgId : Word32
  /-- Region index, and offset of its byte 0. -/
  region : Nat
  raddr : Nat
  len : Nat
  kem : Bool
  job : Nat
  take : Nat
  segCount : Nat
  rcptKey : Word32
  rcptAddr : Nat
  token : Bytes
  nonceBase : Bytes
  sessionRef : Word64
  ctr : Nat
  stage : MsgStage
  /-- Large: opened twice (R152). -/
  large : Bool
  kSess : Bytes
  /-- K_MSG, as the spools' key registers hold it (R280; log entry 118). -/
  kMsg : Bytes
  /-- PTIME in ns at its start point (R161). -/
  start : Nat
  /-- Segments verified; from the commit of a large message on, segments whose second pass has ended. -/
  verified : List Nat
  /-- Segments whose units have fallen due before the commit (R157). -/
  paid : List Nat
  tiles : List SpliceTile
  /-- CLIP's tile partials: group, tile, q_t (R177). -/
  clipQ : List (Nat × Nat × Word64)
  /-- Clip scale per group (R178). -/
  clip : List (Nat × Word64)
  /-- Sequence number per group, once committed (R48). -/
  seqs : List (Nat × Nat)
  /-- Its place among the commits of the device, once committed. -/
  order : Nat
  /-- Groups whose contribution is still in flight (R54). -/
  flying : List Nat
  /-- Units whose return has fallen due (R157). -/
  due : Nat
  deriving DecidableEq, Repr, Inhabited

/-- A session entry (R149). -/
structure Session where
  gen : BitVec 16
  job : Nat
  token : Bytes
  kSess : Bytes
  ctr : Nat
  msgs : Nat
  created : Word64
  /-- Commit order of its last commit, for eviction. -/
  lastCommit : Nat
  deriving DecidableEq, Repr, Inhabited

/-- A return of units that waits to be paid: whose it is, and whether POOL bounds it (R130, R158). -/
structure OwedReturn where
  conn : Nat
  connId : Nat
  units : Nat
  /-- Its units were placed in an INGEST region. -/
  pooled : Bool
  deriving DecidableEq, Repr, Inhabited

/-- Ingest: envelopes, sessions, credits and its registers (chapter 06). -/
structure Ingest where
  msgs : List (Nat × Message)
  nextMsg : Nat
  /-- The handshake queue in arrival order (R148). -/
  hsQueue : List Nat
  /-- Messages whose K_MSG is available, in that order (R151). -/
  keyOrder : List Nat
  sessions : List (Nat × Session)
  /-- Generation last used by each index (R149). -/
  sessionGen : List (Nat × BitVec 16)
  commits : Nat
  /-- POOL in units (R158). -/
  pool : Word32
  /-- Owed returns, oldest first. -/
  owed : List OwedReturn
  hsRetry : BitVec 16
  late : Word32
  maxUs : Word32
  deriving DecidableEq, Repr, Inhabited

/-! ## Jobs, groups, banks and graphs (chapters 02 and 07) -/

/-- Aggregation mode of a job (R33, R38). -/
inductive Mode where
  | masked | homomorphic | trusted
  deriving DecidableEq, Repr, Inhabited

/-- A node entry of a station graph (R39). -/
structure GraphNode where
  station : Nat
  inst : Nat
  maxTiles : Nat
  groups : Word64
  deriving DecidableEq, Repr, Inhabited

/-- An edge entry of a station graph (R40). -/
structure GraphEdge where
  src : Nat
  dst : Nat
  kind : Nat
  depth : Nat
  group : Nat
  deriving DecidableEq, Repr, Inhabited

/-- A loaded station graph (R38 to R41). -/
structure Graph where
  mode : Mode
  nodes : List GraphNode
  edges : List GraphEdge
  /-- Laid-out groups and their first segments, in block order. -/
  layout : List (Nat × Nat)
  segments : Nat
  deriving DecidableEq, Repr, Inhabited

/-- State of a bank (R51). -/
inductive BankMode where
  | zero | filling | draining | final | zeroing
  deriving DecidableEq, Repr, Inhabited

/-- One bank element (R175): `a` holds the integer, or STAT's COUNT; `x` and `y` hold S and C, or MEAN and M2. -/
structure Elem where
  a : Int
  x : Word64
  y : Word64
  deriving DecidableEq, Repr, Inhabited

/-- One of a group's two banks (R51 to R54, R173, R179, R181, R185, R252). -/
structure Bank where
  mode : BankMode
  take : Nat
  /-- First sequence number. -/
  start : Nat
  /-- D, one past the last, once a barrier is placed. -/
  stop : Option Nat
  /-- Elements that are not zero, by index. -/
  elems : List (Nat × Elem)
  scale : Int
  steps : Nat
  /-- Contribution count, saturating at 0xFFFF_FFFF. -/
  count : Nat
  cohort : Nat
  nonfinite : Nat
  longSum : Bool
  /-- A GROUP_DRAIN cut the take, so that the bank holds a part of it (R53, R207). -/
  cut : Bool
  /-- Partials have been combined in (R190, R252). -/
  combined : Bool
  /-- Overflow reports: slice and sequence number (R181). -/
  reports : List (Nat × Nat)
  /-- Stations of the graph that have finished with the bank (R51). -/
  finished : List Nat
  /-- NEXT of each bank tile of a spilled bank (R185). -/
  nexts : List (Nat × Nat)
  deriving DecidableEq, Repr, Inhabited

/-- A migration of a slice that has not been merged (R57, R61): its boundary M, the placements before and after it, its cause, and the
take of the FILLING bank at the boundary. -/
structure MoveStep where
  boundary : Nat
  oldCore : Nat
  oldEpoch : Nat
  core : Nat
  epoch : Nat
  cause : Nat
  take : Nat
  deriving DecidableEq, Repr, Inhabited

/-- A slice's placement, and its migrations that have not been merged, oldest first (R47, R57). -/
structure Slice where
  core : Nat
  epoch : Nat
  moves : List MoveStep
  deriving DecidableEq, Repr, Inhabited

/-- Why a group has failed (R182). -/
inductive GroupFail where
  | seqGap | scaleExhausted
  deriving DecidableEq, Repr, Inhabited

/-- An open group (R44 to R60, R176, R184). -/
structure Group where
  job : Nat
  format : Nat
  kind : Nat
  count : Nat
  sliceTiles : Nat
  relaxed : Bool
  startScale : Int
  place : Nat
  paramSet : Nat
  spilled : Bool
  frac : Nat
  clip : Bool
  clipNorm : Word64
  nextSeq : Nat
  slices : List Slice
  bankA : Bank
  bankB : Bank
  /-- The bank that was FILLING most recently: true for B. -/
  lastB : Option Bool
  failed : Option GroupFail
  deriving DecidableEq, Repr, Inhabited

/-- An open job (R43, R52, R136, R150, R295). -/
structure Job where
  graph : Option Graph
  /-- Mode of the last graph loaded. -/
  mode : Option Mode
  /-- Highest take number used. -/
  lastTake : Option Nat
  filling : Option Nat
  /-- Tokens committed in the take (R153). -/
  tokens : List Bytes
  trigs : List Word32
  /-- The ingest section (R150), with its zero values already replaced. -/
  sessions : Nat
  lifeS : Nat
  sessionMsgs : Nat
  tokensMax : Nat
  kinds : BitVec 2
  /-- PRG and THRESH (R199). -/
  prg : Nat
  thresh : Nat
  /-- The encapsulation key of the ML-KEM-768 pair, and its EK_SERIAL (R295). -/
  ek : Bytes
  ekSerial : Word32
  /-- The encapsulation key of a staged pair (R297). -/
  staged : Option Bytes
  /-- Partial counter PCTR (R187). -/
  pctr : Nat
  /-- Release counter RCTR (R264). -/
  rctr : Nat
  deriving DecidableEq, Repr, Inhabited

/-- A partial tile held by reference, or accepted for a source (R186, R189). -/
structure PartialTile where
  conn : Nat
  /-- The connection's identity, and its job. -/
  connId : Nat
  job : Nat
  /-- Device address of its first byte. -/
  addr : Nat
  len : Nat
  deriving DecidableEq, Repr, Inhabited

/-- Groups, jobs and COMBINE (chapters 02 and 07). -/
structure Accum where
  jobs : List (Nat × Job)
  groups : List (Nat × Group)
  /-- Partial tiles held by reference, oldest first (R189). -/
  held : List PartialTile
  /-- Claims that completed with OK or LONG_SUM: job, group, take, connection by its identity (R189). -/
  claimed : List (Nat × Nat × Nat × Nat)
  dropCheck : Word32
  dropLate : Word32
  deriving DecidableEq, Repr, Inhabited

/-! ## Mask removal (chapter 08) -/

/-- Seed state of a token (R200, R204). -/
inductive SeedMode where
  | self | pair
  deriving DecidableEq, Repr, Inhabited

/-- A regeneration work item (R205). -/
structure RegenItem where
  ledger : Nat
  group : Nat
  slice : Nat
  /-- Mask key KM (R197), as the spools' key registers hold it (R280; log entry 118). -/
  key : Bytes
  negative : Bool
  /-- Next tile to add, and one past the last. -/
  next : Nat
  last : Nat
  deriving DecidableEq, Repr, Inhabited

/-- A seed ledger (R200 to R207). -/
structure Ledger where
  take : Nat
  isSealed : Bool
  partials : Bool
  committed : List Bytes
  prg : Nat
  thresh : Nat
  /-- Tokens with state SELF or PAIR. -/
  states : List (Bytes × SeedMode)
  selfs : List Bytes
  pairs : List (Bytes × Bytes)
  /-- Mask sums A: group, element, value, for values that are not zero (R200). -/
  sums : List (Nat × Nat × Nat)
  items : List RegenItem
  /-- Groups whose mask sum lies in the bank store (R200). -/
  inStore : List Nat
  /-- Banks whose MASK_REMOVE has passed its commit point: group, and true for B (R207). -/
  removed : List (Nat × Bool)
  deriving DecidableEq, Repr, Inhabited

/-- Mask removal (chapter 08). -/
structure Masks where
  /-- Ledgers by 2j + L for ledger L of job j. -/
  ledgers : List (Nat × Ledger)
  done : Word32
  deriving DecidableEq, Repr, Inhabited

/-! ## The heddle (chapter 09) -/

/-- A parameter set (R218). -/
structure ParamSet where
  logN : Nat
  limbs : Nat
  special : Nat
  ingestForm : Nat
  ingestDomain : Nat
  eta : Nat
  ingestVer : Nat
  inputBits : Nat
  roundBits : Nat
  t : Nat
  encKeyTag : Word64
  primes : List Nat
  /-- Defined table versions and their roots (R222). -/
  versions : List (Nat × List Nat)
  deriving DecidableEq, Repr, Inhabited

/-- State of a table slot (R221). -/
inductive SlotState where
  | empty | building | ready | retiring
  deriving DecidableEq, Repr, Inhabited

/-- A table slot of a heddle (R221, R222). -/
structure TableSlot where
  set : Nat
  ver : Nat
  state : SlotState
  /-- Commands that have named the version and not yet completed. -/
  users : List Nat
  /-- Its build runs, or ran, as C1 (R223). -/
  raised : Bool
  /-- Order in which its last build ended. -/
  order : Nat
  /-- Limbs built and compared. -/
  built : Nat
  /-- The entries of those limbs: for each, ψ^j and then ψ^(512·j) for j = 0 to 511, in Montgomery form (R215, R221). -/
  entries : List (List Nat)
  /-- The build that waits for this slot's users to complete: set, version. -/
  next : Option (Nat × Nat)
  deriving DecidableEq, Repr, Inhabited

/-- One heddle (R211 to R222, R249). -/
structure Heddle where
  slot0 : TableSlot
  slot1 : TableSlot
  spareCols : Nat
  inService : Bool
  deriving DecidableEq, Repr, Inhabited

/-- An object or key of a job (R228 to R232): the descriptor's fields and the data. -/
structure PolyObject where
  kind : Nat
  paramSet : Nat
  tableVer : Nat
  level : Nat
  ntt : Bool
  keyTag : Word64
  targetTag : Word64
  noise : Nat
  count : Nat
  dnum : Nat
  special : Nat
  comps : Nat
  contribs : Nat
  auxBits : Nat
  take : Nat
  idHash : Bytes
  seqEnd : Nat
  /-- Residues in the layout of R224, R228 or R231. -/
  data : List Nat
  /-- A key's tile headers of 32 bytes, one for each 64 KiB of its data (R230). -/
  headers : List Bytes
  /-- A free has been accepted: no new users (R232). -/
  freeing : Bool
  /-- Commands that use it. -/
  users : List Nat
  /-- Release provenance (R253): group, true for bank B, take and cohort of each entry. -/
  sources : List (Nat × Bool × Nat × Nat)
  /-- σ of the encrypted noise that it carries (R253, R258). -/
  sigma : Option (Nat × Nat)
  /-- A union of more than 8 entries (R253). -/
  unbounded : Bool
  /-- First sequence number summed, and whether a source bank had taken partials (R252, R263). -/
  seqStart : Nat
  combined : Bool
  deriving DecidableEq, Repr, Inhabited

/-- The heddles, parameter sets and objects (chapter 09). -/
structure Poly where
  sets : List (Nat × ParamSet)
  heddles : List Heddle
  /-- Objects by job × 4096 + handle. -/
  objects : List (Nat × PolyObject)
  builds : Nat
  /-- POL_OBJ_SEL. -/
  selJob : BitVec 4
  selHandle : BitVec 12
  selGroup : BitVec 6
  selBank : Bool
  keyMismatch : BitVec 16
  noiseExhausted : BitVec 16
  tableWaits : BitVec 16
  deriving DecidableEq, Repr, Inhabited

/-! ## The gate and the vault (chapter 10) -/

/-- A release policy (R254). -/
structure GatePolicy where
  noisy : Bool
  outMask : BitVec 3
  localOnly : Bool
  requireEnc : Bool
  minCohort : Nat
  sigmaNum : Nat
  sigmaDen : Nat
  unitExp : Int
  deriving DecidableEq, Repr, Inhabited

/-- An item at the gate, HELD or RELEASED; FINISHED items are gone (R251). -/
structure GateItem where
  job : Nat
  take : Nat
  released : Bool
  /-- The output kept for REPEAT, and whether its first release was sealed (R262, R264). -/
  kept : Bytes
  isSealed : Bool
  /-- Vault slot the released elements wait for (R265), and the cohort and the scale exponent of their release (R263, R271). -/
  slot : Option Nat
  cohort : Nat
  scale : Int
  /-- Unmasked elements (mode M), or released elements waiting for the vault, that are not zero. -/
  elems : List (Nat × Elem)
  /-- A POLY item: its destination, and DEST2 of a POLY_TO_SHARES with its handle. -/
  dest : Option PolyObject
  dest2 : Option PolyObject
  handle2 : Nat
  /-- The descriptors of the tiles that UNMASK or POLY wrote to GATE, in order (R208, R248). -/
  descs : List Bytes
  deriving DecidableEq, Repr, Inhabited

/-- One vault slot (R267 to R271); elements that are zero are not listed. -/
structure VaultSlot where
  job : Nat
  opt : Nat
  biasCorr : Bool
  average : Bool
  elems : Nat
  modelId : Bytes
  lr : Word64
  beta1 : Word64
  beta2 : Word64
  eps : Word64
  frac : Nat
  ownerEk : Bytes
  w : List (Nat × Word32)
  m : List (Nat × Word32)
  v : List (Nat × Word32)
  t : Nat
  p1 : Word64
  p2 : Word64
  lastTake : Nat
  deriving DecidableEq, Repr, Inhabited

/-- The gate and the vault (chapter 10). -/
structure Gate where
  /-- Policies by group, and the default of each job for groups opened later (R254). -/
  policies : List (Nat × GatePolicy)
  defaults : List (Nat × GatePolicy)
  /-- Bank and unmasked items by 2 × group + bank (1 for B). -/
  items : List (Nat × GateItem)
  /-- POLY items by job × 4096 + DEST handle. -/
  polyItems : List (Nat × GateItem)
  cohortRefused : BitVec 16
  entropyRefused : BitVec 16
  saturated : BitVec 16
  slots : List (Option VaultSlot)
  /-- WCTR (R269). -/
  wctr : Word64
  deriving DecidableEq, Repr, Inhabited

/-! ## Vilmin and tenancy (chapter 11) -/

/-- The fuses (R277): each logical bit is three physical fuses, held as three copies of the logical bytes 0x0000 to 0x027F. -/
structure Fuses where
  one : Bytes
  two : Bytes
  three : Bytes
  deriving DecidableEq, Repr, Inhabited

/-- A byte of logical fuses: each bit by majority (R277). -/
def majority (a b c : Byte) : Byte := (a &&& b) ||| (a &&& c) ||| (b &&& c)

/-- The logical bytes of the fuses. -/
def Fuses.logical (f : Fuses) : Bytes := List.zipWith (fun a bc => majority a bc.1 bc.2) f.one (List.zip f.two f.three)

/-- Fuses of which the three copies agree. -/
def Fuses.of (b : Bytes) : Fuses := { one := b, two := b, three := b }

/-- The unique device secret. -/
def Fuses.uds (f : Fuses) : Bytes := f.logical.take 32
/-- FW_KEY_HASH. -/
def Fuses.fwKeyHash (f : Fuses) : Bytes := (f.logical.drop 0x100).take 32
/-- MFG_KEY_HASH. -/
def Fuses.mfgKeyHash (f : Fuses) : Bytes := (f.logical.drop 0x120).take 32
/-- SERIAL. -/
def Fuses.serial (f : Fuses) : Bytes := (f.logical.drop 0x140).take 16
/-- ORDER_CODE. -/
def Fuses.orderCode (f : Fuses) : Nat := (f.logical.getD 0x150 0).toNat
/-- STEPPING. -/
def Fuses.stepping (f : Fuses) : Nat := (f.logical.getD 0x151 0).toNat
/-- SPARE_CORES, a byte for each field. -/
def Fuses.spareCores (f : Fuses) : List Nat := ((f.logical.drop 0x152).take 4).map (·.toNat)
/-- MAC_BASE, little-endian. -/
def Fuses.macBase (f : Fuses) : BitVec 48 := ((f.logical.drop 0x156).take 6).foldr (fun b n => (n <<< 8) ||| b.setWidth 48) 0
/-- Ones in a byte. -/
def onesOf (b : Byte) : Nat := (List.range 8).countP (fun i => b.getLsbD i)
/-- The value of the FW_SVN thermometer: its ones. -/
def Fuses.svn (f : Fuses) : Nat := (((f.logical.drop 0x200).take 128).map onesOf).sum

/-- The 128 bytes of a thermometer code: bits 0 to n − 1. -/
def thermometer (n : Nat) : Bytes := (List.range 128).map (fun i => BitVec.ofNat 8 (2 ^ min 8 (n - 8 * i) - 1))

/-- The logical bytes of fuses with these fields. -/
def fuseImage (uds fwKeyHash mfgKeyHash serial : Bytes) (orderCode stepping : Nat) (spareCores : List Nat) (svn : Nat) : Bytes :=
  let z (n : Nat) : Bytes := List.replicate n 0
  uds ++ z 0xE0 ++ fwKeyHash ++ mfgKeyHash ++ serial ++ [BitVec.ofNat 8 orderCode, BitVec.ofNat 8 stepping]
    ++ spareCores.map (BitVec.ofNat 8) ++ z 6 ++ z 0xA4 ++ thermometer svn

/-- Module flash (R282, R286): the two image slots, the boot record and the identity certificate. -/
structure Flash where
  slotA : Bytes
  slotB : Bytes
  /-- Active slot: true for B. -/
  active : Bool
  /-- The other slot is STAGED. -/
  staged : Bool
  cert : Bytes
  deriving DecidableEq, Repr, Inhabited

/-- An open tenant (R291, R292). -/
structure Tenant where
  id : Bytes
  openHash : Bytes
  /-- The 64-byte policy (R293). -/
  policy : Bytes
  /-- Last trailer counter accepted for role T (R79), and the key counter (R296). -/
  counter : Nat
  uctr : Nat
  deriving DecidableEq, Repr, Inhabited

/-- An installed model owner (R291, R294). -/
structure ModelOwner where
  ownHash : Bytes
  counter : Nat
  deriving DecidableEq, Repr, Inhabited

/-- Membership of a device set (R298). -/
structure DeviceSet where
  id : Bytes
  member : Nat
  members : Nat
  hash : Bytes
  deriving DecidableEq, Repr, Inhabited

/-- A handover that runs (R301): its command, and PTIME in ms at the start of its settle. -/
structure Handover where
  cid : Nat
  settleStart : Nat
  deriving DecidableEq, Repr, Inhabited

/-- A secret key that Vilmin keeps (R278, R291): the root secrets of the tenant and of the model owner and what is formed from them, the
binding keys and the vault wrap key, the enrolment pair's DK_ENR, and each job's secret, keys and decapsulation keys. -/
inductive KeyName where
  | tenantRoot | cmdT | pairT | delivery | update | ownerRoot | cmdM | pairM
  | binding | wrap | prevBinding | stagedSet | enrolDk
  | jobSecret (job : Nat)
  | transport (job : Nat)
  | part (job : Nat)
  | warp (job : Nat)
  | release (job : Nat)
  | keyImport (job : Nat)
  | jobDk (job : Nat)
  | stagedDk (job : Nat)
  deriving DecidableEq, Repr, Inhabited

/-- Vilmin's stores and registers (chapter 11). -/
structure Trust where
  fuses : Fuses
  flash : Flash
  /-- BOOT_ID, once a start-up test has passed (R278). -/
  bootId : Option Bytes
  /-- The key store: every entry sealed under KS (R278). Its entries, of at most 2 428 bytes and at most 13 and eight for each of 16 jobs,
  take less than the 256 KiB of R276. -/
  store : List (KeyName × Bytes)
  /-- The key register of the hash cluster's HMAC units (R280). -/
  macKey : Bytes
  /-- The working-key register's two shares (R279), and the next position of the mask stream. -/
  shareA : Bytes
  shareB : Bytes
  maskKey : Bytes
  maskPos : Nat
  /-- HCOUNT (R290). -/
  hcount : Nat
  /-- EK_ENR of the enrolment pair. -/
  enrol : Option Bytes
  tenant : Option Tenant
  owner : Option ModelOwner
  kgen : Word32
  /-- The generation of a key staged by KEY_STAGE. -/
  staged : Option Word32
  set : Option DeviceSet
  handover : Option Handover
  romMode : Bool
  /-- The identity has been derived (R285). -/
  identity : Bool
  certOk : Bool
  fwVersion : Word32
  imageSvn : BitVec 11
  zeroizes : BitVec 16
  handovers : BitVec 16
  keyRefused : BitVec 16
  deriving DecidableEq, Repr, Inhabited

/-! ## Random numbers (chapter 12) -/

/-- STATE of RNG_STATUS (R315). -/
inductive RngMode where
  | unseeded | ready | failed | retesting
  deriving DecidableEq, Repr, Inhabited

/-- Who waits for random bytes (R318). -/
inductive Consumer where
  /-- The nonce pool of port 0 to 7 or of warp link 8 to 15 (R320). -/
  | pool (engine : Nat)
  /-- The enrolment pair (R291). -/
  | enrol
  /-- An outstanding command. -/
  | command (cid : Nat)
  /-- Work item `k` of an outstanding POLY command (R247). -/
  | item (cid k : Nat)
  deriving DecidableEq, Repr, Inhabited

/-- The random values of a POLY work item, each for a number of coefficients (R247): u, e0 and e1 with their ETA; E and M with the sizes
of their ranges. -/
structure ItemDraw where
  coeffs : Nat
  eta : Option Nat
  e : Option Nat
  m : Option Nat
  deriving DecidableEq, Repr, Inhabited

/-- A waiting request (R318): bytes still to generate, and bytes generated. -/
structure RngRequest where
  level : Nat
  consumer : Consumer
  /-- Bytes that it asked for at first. -/
  size : Nat
  left : Nat
  got : Bytes
  /-- Bytes that one generate request takes at most (R318). -/
  piece : Nat
  /-- What its bytes are read as: a stream that may need more of them, or plain bytes. -/
  draw : Option ItemDraw
  deriving DecidableEq, Repr, Inhabited

/-- What brought the generator to UNSEEDED (R315, R322). -/
inductive UnseededBy where
  | power | warmRestart | zeroization
  deriving DecidableEq, Repr, Inhabited

/-- The random number generator (chapter 12). -/
structure Rng where
  mode : RngMode
  bootSeeded : Bool
  katFail : Bool
  srcFail : BitVec 8
  retriesLeft : BitVec 2
  /-- Waiting requests in arrival order. -/
  requests : List RngRequest
  /-- The DRBG's internal state (R314). -/
  drbg : Bytes
  /-- PTIME of the last seeding, and generate requests served since. -/
  seededAt : Nat
  served : Nat
  reseedDue : Bool
  /-- RNG_CTRL. -/
  retest : Bool
  reseed : Bool
  failures : BitVec 16
  reseeds : BitVec 16
  generates : Word32
  failedAt : Nat
  cause : UnseededBy
  /-- A start-up test runs in UNSEEDED (R312). -/
  testing : Bool
  /-- ENTROPY_FAIL has been posted in this stretch of UNSEEDED (R322). -/
  posted : Bool
  /-- Nonce pools of ports 0 to 7 and warp links 8 to 15 (R320). -/
  pools : List (List Bytes)
  deriving DecidableEq, Repr, Inhabited

/-! ## Power (chapter 13) -/

/-- One field's supply and temperature (R326, R329). -/
structure FieldPower where
  mv : Nat
  /-- T_f in quarters of a degree. -/
  temp : Int
  warn : Bool
  /-- Its cores carry the fixed settle pattern and no station work (R19, R301, R331). -/
  settle : Bool
  deriving DecidableEq, Repr, Inhabited

/-- Readings of one window, kept for the 100 ms means of R304 and the 250 ms of R301; powers in mW. -/
structure PowerSample where
  inputMw : Nat
  dieMw : Nat
  bobbinMw : Nat
  temps : List Int
  bobbinTemps : List Int
  mvs : List Nat
  speeds : List Nat
  deriving DecidableEq, Repr, Inhabited

/-- The power controller (chapter 13). -/
structure Power where
  /-- The input is in range and the rails are on. -/
  railsOn : Bool
  /-- A trip has latched: only removal of the input restarts the device (R330). -/
  tripped : Bool
  hostCap : BitVec 10
  sideCap : BitVec 10
  vMax : BitVec 10
  hotIn : Bool
  inputLimit : Bool
  /-- C of the present window. -/
  cap : Nat
  fields : List FieldPower
  bobbinTemps : List Int
  bobbinWarn : BitVec 8
  /-- A window has been read since the rails settled (R329). -/
  measured : Bool
  input10mv : BitVec 14
  inputW : Nat
  dieW : Nat
  bobbinW : Nat
  energyUj : Nat
  /-- ENERGY_MJ as it reads while POWER is set: it advances every 100 ms (R344). -/
  coarseMj : Nat
  /-- The last 251 windows, newest first. -/
  history : List PowerSample
  rate : Word32
  vBase : BitVec 10
  c1Slowed : Bool
  c2Deferred : Bool
  c3Deferred : Bool
  /-- C2 or C3 was deferred for energy in the last window (R337). -/
  short : Bool
  /-- Die power of the fixed load in W while a handover settles, else zero (R301 step 7, R343). -/
  settleW : Nat
  /-- Windows of T_fall still to pass (R339). -/
  fall : Nat
  /-- K × 1024 (R334). -/
  k : BitVec 16
  debtUj : Nat
  c1Windows : BitVec 16
  c2Windows : BitVec 16
  thermalWindows : BitVec 16
  /-- Windows since power application. -/
  windows : Nat
  /-- Energy dispatched in the last window by class C1 and C2, C1 tiles per field, and the energy of B_w, all in femtojoules. -/
  spentC1 : Nat
  spentC2 : Nat
  spentAll : Nat
  budgetFj : Int
  c1Counts : List Nat
  /-- Fields with C2 or C3 tiles waiting at the end of the window. -/
  waiting : BitVec 4
  /-- Measured and modelled dynamic energy since the last update of K, in microjoules. -/
  measuredUj : Int
  modelledUj : Nat
  /-- CLASSES of the last THROTTLE. -/
  throttle : BitVec 3
  /-- Why pressure changed last (R345 CAUSE): cap lowered, HOT_IN or input. -/
  capCause : Nat
  deriving DecidableEq, Repr, Inhabited

/-! ## Memory (chapter 14) -/

/-- What owns a piece of protected memory (R305, R359). -/
inductive Owner where
  /-- A bank of a group: group, true for bank B. -/
  | bank (group : Nat) (isB : Bool)
  /-- Ledger L of job j, by 2j + L; and the mask sum of one of its groups (R200). -/
  | ledger (ledger : Nat)
  | maskSum (ledger group : Nat)
  /-- A POLY object or key, by job × 4096 + handle. -/
  | object (id : Nat)
  /-- The gate item of a bank, or of an object. -/
  | gateBank (group : Nat) (isB : Bool)
  | gateObject (id : Nat)
  | session (index : Nat)
  | vault (slot : Nat)
  /-- The scratch of a running POLY command, for DEST or for DEST2 (R239). -/
  | scratch (cid : Nat) (second : Bool)
  deriving DecidableEq, Repr, Inhabited

/-- A protected allocation (R348 note 2): stack, offset in the stack, bytes. -/
structure Alloc where
  owner : Owner
  stack : Nat
  off : Nat
  len : Nat
  deriving DecidableEq, Repr, Inhabited

/-- A copy to a spare channel, or a reshape, in progress (R353). -/
inductive Move where
  /-- Slot, spare channel, rows copied. -/
  | copy (slot target rows : Nat)
  /-- Slot removed, progress pointer in units. -/
  | reshape (slot pointer : Nat)
  deriving DecidableEq, Repr, Inhabited

/-- One bobbin stack (R348 to R354 and its MEM_ page). -/
structure Stack where
  inService : Bool
  /-- The base die's memory encryption keys, of class 0 and class 1 (R291, R351): empty until the key path has delivered them. -/
  keys : List Bytes
  /-- SLOT_MAP: physical channel of each slot in service. -/
  map : List Nat
  retired : BitVec 34
  /-- Unused spare channels, lowest first. -/
  spares : List Nat
  move : Option Move
  /-- Channels whose retirement waits for the reshape to end (R363). -/
  waiting : List Nat
  hotRefresh : Bool
  corrected : Word32
  uncorrectable : BitVec 16
  latePasses : BitVec 16
  lastAddr : BitVec 48
  lastChannel : BitVec 6
  lastSymbols : BitVec 3
  lastSyndrome : Word64
  /-- PTIME and channel of the corrections of the last 10 s (R353). -/
  recent : List (Nat × Nat)
  /-- Lines that patrol scrub has rewritten after a correction, and those that needed another one since (R353). -/
  scrubbed : List Nat
  repeated : List Nat
  deriving DecidableEq, Repr, Inhabited

/-- Bobbin memory, SRAM and the staging window (chapter 14). -/
structure Memory where
  /-- Unprotected bytes by device address, in rising order, with none equal to what an unlisted address reads as. -/
  cells : List Host.Cell
  /-- Key rotations since power application: lines written before the last one decrypt to unrelated bytes (R351). -/
  rotations : Nat
  /-- Lines that a test has overwritten (R438, R440): of stack b, those whose 256-byte unit has this remainder modulo c, and which test
  it was. -/
  tested : List Sys2Proof.TestedLines
  /-- Lines marked as poisoned, by device address / 64 (R359). -/
  poison : List Nat
  bobbins : List Stack
  allocs : List Alloc
  sramCorrected : Word32
  sramUncorrectable : BitVec 16
  sramLastCore : BitVec 6
  sramLastBank : BitVec 6
  /-- Rows corrected by scrub, and rows that needed a repeat correction: core, bank, row (R359 note 1). -/
  rowsScrubbed : List (Nat × Nat × Nat)
  rowsRepeated : List (Nat × Nat × Nat)
  bobbinHours : BitVec 16
  sramSeconds : BitVec 16
  /-- Periods that govern from the next pass (R358). -/
  nextBobbinHours : BitVec 16
  nextSramSeconds : BitVec 16
  /-- DEVICE_ADDR / 2^27 of each mapped staging entry (R360). -/
  staging : List (Option Nat)
  stagingMiss : Word32
  deriving DecidableEq, Repr, Inhabited

/-! ## Warp links (chapter 16) -/

/-- One warp link (R385 to R392 and its WRP_ page). -/
structure Link where
  enable : Bool
  allowDegrade : Bool
  requireSet : Bool
  expectMember : BitVec 16
  up : Bool
  /-- 0 down, 1 four lanes, 2 six, 3 eight. -/
  width : BitVec 2
  lanesGood : BitVec 9
  /-- Physical lanes in logical order. -/
  lanes : List Nat
  peerMember : BitVec 16
  peerId : Word32
  replays : Word32
  retrains : BitVec 16
  starved : BitVec 16
  laneErr : List (Word32 × Word32)
  /-- CAUSE of R396 while the link trains. -/
  training : Option Nat
  /-- The widest lane count that training may reach: 8 when enabled or restored (R386). -/
  maxWidth : Nat
  /-- Lanes in use before the present training, zero when the link was enabled, and the lane whose failure started it. -/
  was : Nat
  lost : Option Nat
  nextLseq : Word32
  expectLseq : Word32
  /-- DATA frames kept until ACK_SEQ passes them, oldest first: LSEQ and transport packet (R388). -/
  replayBuf : List (Word32 × Bytes)
  /-- Replays of the oldest frame without progress. -/
  tries : Nat
  /-- Link credit units held, and units to return (R389). -/
  credit : Nat
  toReturn : Nat
  /-- Transport packets waiting for link credit or the replay buffer. -/
  queue : List Bytes
  inService : Bool
  deriving DecidableEq, Repr, Inhabited

/-- An export route (R391). -/
structure Route where
  conn : Nat
  rkey : Word32
  raddr : Nat
  trigger : Bool
  trigId : Nat
  deriving DecidableEq, Repr, Inhabited

/-- Warp links and export routes (chapter 16). -/
structure Warp where
  links : List Link
  routes : List (Nat × Route)
  /-- What EXPORT last wrote of a bank, kept for RESEND: group, true for bank B, and the messages of its tiles (R391, R393). -/
  exported : List ((Nat × Bool) × List Bytes)
  deriving DecidableEq, Repr, Inhabited

/-! ## Faults and recovery (chapter 17) -/

/-- A recovery in progress (R399 to R402); `kind` and `unit` number units as R410 does. -/
structure Recovery where
  kind : Nat
  unit : Nat
  level : Nat
  /-- Detector of the first fault, its PTIME in ns, and the unit that it was a fault of. -/
  detector : Nat
  since : Nat
  origin : Sys2Proof.FaultSite
  /-- Units whose retirement takes effect when this recovery completes (R402). -/
  retire : List Sys2Proof.FaultSite
  deriving DecidableEq, Repr, Inhabited

/-- A fault counted against a unit (R402). -/
structure FaultMark where
  site : Sys2Proof.FaultSite
  time : Nat
  /-- Detector 11: it counts toward escalation only. -/
  injected : Bool
  deriving DecidableEq, Repr, Inhabited

/-- A device warm restart in progress (R405). -/
structure WarmRestart where
  /-- FW_ACTIVATE started it: its command. -/
  activate : Option Nat
  /-- R402's full self-test runs in it, for the units of these kinds and numbers. -/
  selfTest : List Sys2Proof.FaultSite
  causeType : Nat
  causeSource : Nat
  since : Nat
  /-- Its steps have begun: until then it is due. -/
  started : Bool
  /-- The third within 10 s: it leaves the device out of service. -/
  last : Bool
  deriving DecidableEq, Repr, Inhabited

/-- One command processor (R28, R404). -/
structure Cp where
  role : CpRole
  /-- Its work is being taken over or restarted. -/
  recovering : Bool
  /-- Fields it schedules (bit f). -/
  fields : BitVec 4
  /-- PTIME of its faults in the last 10 s. -/
  faults : List Nat
  deriving DecidableEq, Repr, Inhabited

/-- One core (R15 to R17, R28, and its SPL_ page). -/
structure CoreUnit where
  role : CoreRole
  /-- Spare reed lanes left, of 2. -/
  spareLanes : Nat
  /-- SPL_ENGINE_FAULTS: REED, HEDDLE0, HEDDLE1, SPOOL0, SPOOL1, VECTOR, SPLICE, CORE. -/
  engineFaults : List (BitVec 8)
  tiles : Word32
  rewinds : Word32
  deriving DecidableEq, Repr, Inhabited

/-- One direction of one field crossing (R12, R13, R28): channels in service, retired channels and spare wires used. -/
structure CrossingDir where
  inService : Word64
  retired : Word64
  /-- Channel and how many of its two spare wires are used. -/
  wires : List (Nat × Nat)
  deriving DecidableEq, Repr, Inhabited

/-- Units, faults and recoveries (chapters 01 and 17). -/
structure Faults where
  cores : List CoreUnit
  cps : List Cp
  /-- Crossing k direction d stands at 2k + d. -/
  crossings : List CrossingDir
  /-- Hash units in service, 0 to 15 SHA-256 and 16 to 31 Keccak (R107). -/
  hash : Word32
  /-- Shuttle engines in service (R107). -/
  shuttle : BitVec 3
  outOfService : Bool
  recoveries : List Recovery
  marks : List FaultMark
  warm : Option WarmRestart
  /-- PTIME of the warm restarts of the last 10 s. -/
  restarts : List Nat
  warmRestarts : BitVec 16
  injectRefused : Bool
  lastInject : Option Nat
  /-- Units into whose next operation a fault is to be injected (FLT_INJECT). -/
  armed : List (Nat × Nat)
  engines : BitVec 16
  coreRecoveries : BitVec 16
  fieldRecoveries : BitVec 16
  migrations : BitVec 16
  cpRestarts : BitVec 16
  cpTakeovers : BitVec 16
  lastKind : BitVec 5
  lastLevel : BitVec 3
  lastDetector : BitVec 4
  lastUnit : BitVec 16
  lastUs : Word32
  deriving DecidableEq, Repr, Inhabited

/-! ## Counters and trace (chapter 18) -/

/-- One counter slot (R412 to R416). -/
structure CounterSlot where
  event : BitVec 16
  inst : BitVec 8
  job : BitVec 8
  enable : Bool
  sample : Bool
  period : Word32
  /-- What the sample counter holds. -/
  left : Nat
  /-- Samples asked for and not yet taken. -/
  due : Nat
  value : BitVec 48
  ovf : Bool
  deriving DecidableEq, Repr, Inhabited

/-- One trace record (R419). -/
structure TraceRec where
  kind : Nat
  job : BitVec 8
  group : BitVec 8
  source : Nat
  ptime : Word64
  arg : Bytes
  deriving DecidableEq, Repr, Inhabited

/-- A latched snapshot (R418). -/
structure Snapshot where
  cfgGen : BitVec 16
  dseq : Word64
  ptime : Word64
  coarsened : Bool
  /-- SLOT_0 to SLOT_255. -/
  slots : List Word64
  deriving DecidableEq, Repr, Inhabited

/-- The counter collector (chapter 18). -/
structure Counters where
  slots : List CounterSlot
  cfgGen : BitVec 16
  dailies : Bool
  log2 : Nat
  periodMs : Nat
  base : Nat
  tail : BitVec 12
  head : BitVec 12
  phase : Bool
  missed : Word32
  /-- Snapshots missed since the previous record. -/
  missedRec : Nat
  dseq : Word64
  snapshot : Option Snapshot
  /-- MODE: 0 off, 1 wrap, 2 stop; and the mask of kinds. -/
  traceMode : Nat
  kinds : BitVec 16
  trace : List TraceRec
  dropped : Word32
  denied : Word32
  /-- Samples since the last COUNTER_SAMPLE record (R416). -/
  samples : Nat
  deriving DecidableEq, Repr, Inhabited

/-! ## Power-up, sideband and tests (chapter 19) -/

/-- A LINK_TEST that runs (R436 to R439). -/
structure LinkTest where
  cid : Nat
  target : Nat
  unit : Nat
  lanes : Nat
  deriving DecidableEq, Repr, Inhabited

/-- The TAP's instruction register (R433). -/
inductive TapInstr where
  | idcode | samplePreload | extest | extestPulse | extestTrain | clamp | highz | dbgRead | scanEnter | bypass
  deriving DecidableEq, Repr, Inhabited

/-- Power-up progress, sideband pins and the debug connector (chapter 19). -/
structure Side where
  step : BitVec 4
  halted : Bool
  readyMs : Word32
  /-- What the checks of R426 find in this module. -/
  health : Sys2Proof.Health
  /-- Filtered levels and qualified assertions of ZEROIZE_N, HOT_IN_N, THERM_TRIP_N, PERST_N, PWR_OK (bits 0 to 4). -/
  raw : BitVec 5
  qualified : BitVec 5
  /-- The SLOT_ID contacts, and what step 4 latched of them. -/
  slotPins : BitVec 5
  slotId : BitVec 5
  smbAddr : BitVec 7
  eid : BitVec 8
  /-- PLDM terminus ID. -/
  tid : BitVec 8
  counts : List (BitVec 16 × BitVec 16)
  tests : List LinkTest
  selfTest : Option Nat
  /-- Enables of ports 0 to 7 and links 8 to 15 that wait for a LINK_TEST to end (R442). -/
  waitingEnables : List Nat
  tap : TapInstr
  testHold : Bool
  smbAlert : Bool
  /-- The device drives THERM_TRIP_N low (R430). -/
  tripDriven : Bool
  /-- PTIME at which ZEROIZE_N qualified asserted, for HELD_MS. -/
  zeroizeSince : Nat
  /-- A PERST_N warm reset is in force: the pin, DL_Down or test hold (R428). -/
  inWarmReset : Bool
  deriving DecidableEq, Repr, Inhabited

/-! ## Outstanding commands (chapter 03) -/

/-- One source of an ACC_COMBINE: its connection, what its first accepted tile said of the partial (contributions, SEQ, SEQ_END,
scale exponent), and the tiles accepted, by bank tile (R188, R189). -/
structure CombineSource where
  conn : Nat
  /-- The connection's identity. -/
  connId : Nat
  head : Option (Nat × Nat × Nat × Int)
  tiles : List (Nat × Bytes)
  deriving DecidableEq, Repr, Inhabited

/-- What a started command still has to do, in the terms of its owning chapter. -/
inductive Work where
  | none
  /-- Waits for these banks to become FINAL: group, and true for bank B; one that has ended carried LONG_SUM; RESULT (R52, R53). -/
  | draining (banks : List (Nat × Bool)) (longSum : Bool) (result : Nat)
  /-- Waits for a revoking region to be freed: its index (R140). -/
  | revoking (index : Nat)
  /-- Waits for the regions of a closing job to be freed (R140). -/
  | closing (job : Nat)
  /-- Waits for CONNECT_ACCEPT (R124). -/
  | connecting (conn : Nat)
  /-- ACC_COMBINE waits for its sources: true for bank B, the take (R188). -/
  | combining (isB : Bool) (take : Nat) (sources : List CombineSource)
  /-- MASK_REMOVE waits for its group's regeneration items: true for bank B, the take (R207). -/
  | unmasking (isB : Bool) (take : Nat)
  /-- A POLY command whose checks have passed: its random values are drawn, set and version, and σ of encrypted noise, zero for
  none (R239, R253). -/
  | poly (drawn : Bool) (set ver num den : Nat)
  /-- POLY_TABLE_BUILD waits for every heddle in service: set, version, and PTIME of its acceptance (R222, R249). -/
  | tables (set ver since : Nat)
  /-- A free waits for an object's users: job × 4096 + handle (R232). -/
  | freeing (object : Nat)
  /-- GATE_RELEASE waits for noise seeds, asked for under this σ (R261, R274). -/
  | seeds (num den : Nat)
  /-- GATE_RELEASE has committed, and its output waits for the shuttle (R262, R373). -/
  | writing (out : Bytes)
  /-- WARP_RETRAIN waits for its link (R392). -/
  | retraining (link : Nat)
  /-- VAULT_STEP computes in scratch (R271). -/
  | stepping
  deriving DecidableEq, Repr, Inhabited

/-- A command fetched and not yet complete (R74 to R89). -/
structure Cmd where
  ring : Nat
  /-- The slate, 64 bytes (R74). -/
  slate : Bytes
  op : Opcode
  phase : CmdPhase
  /-- Commands it awaits by DEP, as fetched (R85). -/
  awaits : List Nat
  /-- An awaited command completed with a status other than OK or LONG_SUM (R85). -/
  depBad : Bool
  /-- The parameter block, once read (R77 check 6). -/
  block : Bytes
  /-- Bytes of input asked for from host memory, and the bytes delivered so far in address order (R94, R379). -/
  inputLen : Nat
  input : Bytes
  /-- The command runs on with no record to write (R97: its ring was reset). -/
  silent : Bool
  work : Work
  deriving DecidableEq, Repr, Inhabited

/-- The command arbiters and the processors (R72, R96, R79). -/
structure Front where
  /-- Control ring last served, and bulk ring last served with the slates it took this turn. -/
  lastControl : Option Nat
  lastBulk : Option Nat
  taken : Nat
  hostTime : Word64
  hostTimePtime : Word64
  nextCid : Nat
  deriving DecidableEq, Repr, Inhabited

/-! ## What leaves the device -/

/-- A frame that leaves an Ethernet port: its 802.1Q tag, DSCP and ECN field, its TTL or hop limit, DF, the UDP ports and checksum, and the
transport packet (R115, R117). -/
structure SentFrame where
  tag : Option (BitVec 12 × BitVec 3)
  dscp : BitVec 6
  ecn : BitVec 2
  hops : Nat
  dontFragment : Bool
  srcPort : Nat
  dstPort : Nat
  checksum : BitVec 16
  packet : Sys2Proof.Packet
  deriving DecidableEq, Repr, Inhabited

/-- An effect at the device's boundary, in the order in which it was issued. -/
inductive Output where
  /-- A memory write request at a host bus address, and whether it carries Relaxed Ordering (R381). -/
  | hostWrite (addr : Nat) (data : Bytes) (relaxed : Bool)
  /-- A read request: for whom, offset within the input, bus address, length (R380). -/
  | hostRead (who : Sys2Proof.Reader) (off addr len : Nat)
  /-- An MSI-X message of a vector. -/
  | msix (vector : Nat) (addr : Word64) (data : Word32)
  /-- What a register read returned, in the low bits. -/
  | readData (value : Word64)
  /-- What a BAR4 read returned, and whether the completion is poisoned (R359). -/
  | stagingData (data : Bytes) (poisoned : Bool)
  /-- A configuration read answered, a configuration write completed, and Configuration Request Retry Status (R368). -/
  | configData (value : Word32)
  | configDone
  | configRetry
  /-- A BAR access answered with Unsupported Request (R373). -/
  | unsupported
  /-- A transport packet on an Ethernet port (R115, R117). -/
  | packet (port : Nat) (frame : SentFrame)
  /-- An ARP reply, and a Neighbour Advertisement, with their 802.1Q tag (R115). -/
  | arpReply (port : Nat) (tag : Option (BitVec 12 × BitVec 3)) (mac : BitVec 48) (ip : Word32) (toMac : BitVec 48) (toIp : Word32)
  | neighbourAdvertisement (port : Nat) (tag : Option (BitVec 12 × BitVec 3)) (mac : BitVec 48) (ip : BitVec 128) (toMac : BitVec 48)
      (toIp : BitVec 128)
  /-- A link frame on a warp link (R387). -/
  | linkFrame (link : Nat) (frame : Bytes)
  /-- A line of the UART console: a step of R426, or none for a warm restart, PTIME in ms and the outcome (R435). -/
  | uart (step : Option Nat) (ms : Nat) (good : Bool)
  /-- The answer to an MCTP control or PLDM request: completion code and data (R431). -/
  | sideReply (code : Nat) (data : Bytes)
  /-- The TAP's IDCODE register, and a line that DBG_READ shifts out (R433, R434). -/
  | tapIdcode (word : Word32)
  | tapLine (data : Bytes)
  deriving DecidableEq, Repr, Inhabited

/-- The whole device. -/
structure State where
  time : TimeState
  front : Front
  rings : List Ring
  cmds : List (Nat × Cmd)
  reel : Reel
  pcie : Pcie
  trans : Transport
  ingest : Ingest
  accum : Accum
  masks : Masks
  poly : Poly
  gate : Gate
  trust : Trust
  rng : Rng
  power : Power
  mem : Memory
  warp : Warp
  faults : Faults
  counters : Counters
  side : Side
  /-- How many free values have been drawn. -/
  draws : Nat
  /-- Everything that left the device, oldest first. -/
  out : List Output
  /-- Commands waiting, the front one first. -/
  pending : List Sys2Proof.Instr
  deriving DecidableEq, Repr, Inhabited

/-! ## Reset: the device at power application, before step 1 of R426 -/

/-- One ring at its reset values (R63 to R65). -/
def Ring.reset : Ring :=
  { enable := false, control := false, sqLog2 := 4, cqLog2 := 4, weight := 0, vector := 0, irqEn := false, sqBase := 0,
    cqBase := 0, sqHead := 0, cqTail := 0, mode := .disabled, sqPhase := true, cqPhase := true, errors := 0, tail := 0,
    head := 0, reread := false, records := [], stretch := false, posted := false, discarding := false, discarded := 0 }

/-- Reset moderation of a vector (R113). -/
def VecMod.reset : VecMod := { count := 1, delayUs := 0, pending := 0 }

/-- The reel at its reset values (R98). The first EVENT_SEQ after power application is 0 (R104 gives none: DESIGN CHOICE, log entry 107). -/
def Reel.reset : Reel :=
  { enable := false, log2 := 6, vector := 0, irqEn := false, critEn := false, critVector := 0, base := 0, head := 0, tail := 0,
    phase := true, enabled := false, overflowing := false, headError := false, writeError := false, config := false, lost := 0,
    suppressed := 0, queue := [], nextSeq := 0, owed := 0, owedHigh := 0, firstLost := 0, lastLost := 0, windows := [],
    vectors := List.replicate 256 VecMod.reset }

/-- The PCI Express function at its reset values (R364 to R382; log entry 7). -/
def Pcie.reset : Pcie :=
  { ready := false, busMaster := false, memSpace := false, d3hot := false, linkUp := false, speed := 0, width := 0,
    msixEnable := false, functionMask := false, table := List.replicate 256 { addr := 0, data := 0, mask := true }, pba := 0,
    bars := [0, 0, 0], config := [], relaxedOrdering := true, maxPayload := 0, extendedTag := false, maxReadRequest := 2, tenBitTag := false,
    addrBits := 64, roBulk := true, err := 0, errAddr := 0, barErrCount := 0, barErrOffset := 0, barErrBar2 := false,
    bytesRead := 0, bytesWritten := 0, preempts := 0, maxWaitNs := 0, writes := [], asks := [], reads := [], buffer := [] }

/-- One Ethernet port at its reset values (R115, R116). -/
def Port.reset : Port :=
  { enable := false, allowDegrade := true, ipv4En := false, ipv6En := false, vlanEn := false, dscp := 0, vid := 0, pcp := 0,
    linkUp := false, width := 0, lanesGood := 0, mac := 0, ipv4 := 0, ipv6 := 0, icvFail := 0, noConn := 0, malformed := 0,
    creditViolation := 0, inService := true, degraded := false, rearmed := false }

/-- An empty table slot (R221). -/
def TableSlot.reset : TableSlot :=
  { set := 0, ver := 0, state := .empty, users := [], raised := false, order := 0, built := 0, entries := [], next := none }

/-- One heddle at reset (R221, R249). -/
def Heddle.reset : Heddle := { slot0 := TableSlot.reset, slot1 := TableSlot.reset, spareCols := 2, inService := false }

/-- One stack at its reset values (R349 and the MEM_ page). -/
def Stack.reset : Stack :=
  { inService := false, keys := [], map := List.range 32, retired := 0, spares := [32, 33], move := none, waiting := [], hotRefresh := false,
    corrected := 0, uncorrectable := 0, latePasses := 0, lastAddr := 0, lastChannel := 0, lastSymbols := 0, lastSyndrome := 0,
    recent := [], scrubbed := [], repeated := [] }

/-- One warp link at its reset values (R385 to R396). -/
def Link.reset : Link :=
  { enable := false, allowDegrade := true, requireSet := false, expectMember := 0xFFFF, up := false, width := 0, lanesGood := 0,
    lanes := [], peerMember := 0, peerId := 0, replays := 0, retrains := 0, starved := 0,
    laneErr := List.replicate 9 (0, 0), training := none, maxWidth := 8, was := 0, lost := none, nextLseq := 0, expectLseq := 0,
    replayBuf := [], tries := 0, credit := 1024, toReturn := 0, queue := [], inService := true }

/-- One core before power-up identifies it (R17). -/
def CoreUnit.reset : CoreUnit :=
  { role := .off, spareLanes := 2, engineFaults := List.replicate 8 0, tiles := 0, rewinds := 0 }

/-- One counter slot at reset (R412). -/
def CounterSlot.reset : CounterSlot :=
  { event := 0, inst := 0, job := 0, enable := false, sample := false, period := 0, left := 0, due := 0, value := 0,
    ovf := false }

/-- One field's power state at reset: its registers read zero until it is measured (R329). -/
def FieldPower.reset : FieldPower := { mv := 0, temp := 0, warn := false, settle := false }

/-- The power controller at its reset values (R324 to R345). -/
def Power.reset : Power :=
  { railsOn := false, tripped := false, hostCap := 450, sideCap := 0, vMax := 800, hotIn := false, inputLimit := false, cap := 450,
    fields := List.replicate 4 FieldPower.reset, bobbinTemps := List.replicate 8 0, bobbinWarn := 0, measured := false,
    input10mv := 0, inputW := 0, dieW := 0, bobbinW := 0, energyUj := 0, coarseMj := 0, history := [], rate := 0, vBase := 0,
    c1Slowed := false, c2Deferred := false, c3Deferred := false, short := false, settleW := 0, fall := 0, k := 1024, debtUj := 0, c1Windows := 0, c2Windows := 0,
    thermalWindows := 0, windows := 0, spentC1 := 0, spentC2 := 0, spentAll := 0, budgetFj := 0,
    c1Counts := List.replicate 4 0, waiting := 0, measuredUj := 0, modelledUj := 0, throttle := 0, capCause := 0 }

/-- The fuses of the module that `State.reset` describes: a blank part that names no spares (log entry 3). -/
def Fuses.blank : Fuses :=
  Fuses.of (fuseImage (zeros 32) (zeros 32) (zeros 32) (zeros 16) 1 1 [255, 255, 255, 255] 0)

/-- The flash of that module: empty slots and no certificate (log entry 3). -/
def Flash.blank : Flash := { slotA := [], slotB := [], active := false, staged := false, cert := [] }

/-- What the power-up checks find in a healthy module (log entry 3). -/
def healthy : Sys2Proof.Health :=
  { busGood := true, railsGood := true, romGood := true, cpsGood := 31,
    channelsGood := List.replicate 8 0x3FFFFFFFF, coresGood := 0xFFFFFFFFF,
    crossingsGood := List.replicate 8 0xFFFFFFFFFFFFFFFF }

/-- Vilmin at power application (R277 to R291). -/
def Trust.powerOn (f : Fuses) (fl : Flash) : Trust :=
  { fuses := f, flash := fl, bootId := none, store := [], macKey := [], shareA := zeros 32, shareB := zeros 32, maskKey := zeros 32, maskPos := 0, hcount := 0,
    enrol := none, tenant := none, owner := none, kgen := 0, staged := none, set := none,
    handover := none, romMode := false, identity := false, certOk := false, fwVersion := 0, imageSvn := 0, zeroizes := 0,
    handovers := 0, keyRefused := 0 }

/-- The generator at power application (R315). -/
def Rng.reset : Rng :=
  { mode := .unseeded, bootSeeded := false, katFail := false, srcFail := 0, retriesLeft := 0, requests := [], drbg := zeros 48,
    seededAt := 0, served := 0, reseedDue := false, retest := false, reseed := false, failures := 0, reseeds := 0, generates := 0,
    failedAt := 0, cause := .power, testing := false, posted := false, pools := List.replicate 16 [] }

/-- Memory at power application: nothing listed (R363; log entry 4). -/
def Memory.reset : Memory :=
  { cells := [], rotations := 0, tested := [], poison := [], bobbins := List.replicate 8 Stack.reset, allocs := [], sramCorrected := 0,
    sramUncorrectable := 0, sramLastCore := 0, sramLastBank := 0, rowsScrubbed := [], rowsRepeated := [], bobbinHours := 24,
    sramSeconds := 10, nextBobbinHours := 24, nextSramSeconds := 10, staging := List.replicate 8 none, stagingMiss := 0 }

/-- Units and faults at power application. -/
def Faults.reset : Faults :=
  { cores := List.replicate 36 CoreUnit.reset,
    cps := List.replicate 5 { role := .off, recovering := false, fields := 0, faults := [] },
    crossings := List.replicate 8 { inService := 0, retired := 0, wires := [] }, hash := 0xFFFFFFFF, shuttle := 7,
    outOfService := false, recoveries := [], marks := [], warm := none, restarts := [], warmRestarts := 0, injectRefused := false,
    lastInject := none, armed := [], engines := 0, coreRecoveries := 0, fieldRecoveries := 0, migrations := 0, cpRestarts := 0,
    cpTakeovers := 0, lastKind := 0, lastLevel := 0, lastDetector := 0, lastUnit := 0, lastUs := 0 }

/-- The collector at power application. -/
def Counters.reset : Counters :=
  { slots := List.replicate 256 CounterSlot.reset, cfgGen := 0, dailies := false, log2 := 4, periodMs := 10, base := 0, tail := 0,
    head := 0, phase := true, missed := 0, missedRec := 0, dseq := 0, snapshot := none, traceMode := 0, kinds := 0, trace := [],
    dropped := 0, denied := 0, samples := 0 }

/-- Sideband pins and the TAP at power application: inputs at their pulled levels, except PWR_OK before its first sample. -/
def Side.reset : Side :=
  { step := 0, halted := false, readyMs := 0, health := healthy, raw := 0, qualified := 0, slotPins := 31, slotId := 0, smbAddr := 0,
    eid := 0, tid := 0, counts := List.replicate 5 (0, 0), tests := [], selfTest := none, waitingEnables := [], tap := .idcode,
    testHold := false, smbAlert := false, tripDriven := false, zeroizeSince := 0, inWarmReset := false }

/-- The device at power application, with given fuses and flash (R426, R427). -/
def State.powerOn (f : Fuses) (fl : Flash) : State :=
  { time := { ptime := 0, shadow := none, mirrors := [0, 0, 0, 0], refPresent := false, trimmed := false, trims := 0 },
    front := { lastControl := none, lastBulk := none, taken := 0, hostTime := 0, hostTimePtime := 0, nextCid := 0 },
    rings := List.replicate 64 Ring.reset, cmds := [], reel := Reel.reset, pcie := Pcie.reset,
    trans := { ports := (List.range 8).map (fun i => { Port.reset with mac := f.macBase + BitVec.ofNat 48 i })
               conns := [], listeners := [], regions := [], lastGen := [], made := 0 },
    ingest := { msgs := [], nextMsg := 0, hsQueue := [], keyOrder := [], sessions := [], sessionGen := [], commits := 0, pool := 0,
                owed := [], hsRetry := 0, late := 0, maxUs := 0 },
    accum := { jobs := [], groups := [], held := [], claimed := [], dropCheck := 0, dropLate := 0 },
    masks := { ledgers := [], done := 0 },
    poly := { sets := [], heddles := List.replicate 72 Heddle.reset, objects := [], builds := 0, selJob := 0, selHandle := 0,
              selGroup := 0, selBank := false, keyMismatch := 0, noiseExhausted := 0, tableWaits := 0 },
    gate := { policies := [], defaults := [], items := [], polyItems := [], cohortRefused := 0, entropyRefused := 0, saturated := 0,
              slots := List.replicate 8 none, wctr := 0 },
    trust := Trust.powerOn f fl, rng := Rng.reset, power := Power.reset, mem := Memory.reset,
    warp := { links := List.replicate 8 Link.reset, routes := [], exported := [] }, faults := Faults.reset,
    counters := Counters.reset, side := Side.reset, draws := 0, out := [], pending := [] }

/-- The machine right after reset: power application of a blank, healthy module with an empty queue. -/
def State.reset : State := State.powerOn Fuses.blank Flash.blank

end Sys2Proof.Machine
end

