-- ==== Sys2Proof/Machine/Draws.lean ====
section
/-! DEFINITION. The random values of POLY's work items, read from their byte streams (R247). -/

namespace Sys2Proof.Machine

open Sys2Proof

/-- A byte modulo 3 as a ternary value. -/
def ternary (x : Byte) : Int := match x.toNat % 3 with | 0 => 0 | 1 => 1 | _ => -1

/-- `n` ternary values, one for each byte below 243; how many bytes are missing otherwise. -/
def takeTernary : Nat → Bytes → List Int → Sum Nat (List Int × Bytes)
  | 0, b, acc => .inr (acc.reverse, b)
  | n + 1, [], _ => .inl (n + 1)
  | n + 1, x :: rest, acc => if 243 ≤ x.toNat then takeTernary (n + 1) rest acc else takeTernary n rest (ternary x :: acc)

/-- Bit `i` of a byte string, the least significant of each byte first. -/
def streamBit (b : Bytes) (i : Nat) : Bool := (b.getD (i / 8) 0).getLsbD (i % 8)

/-- `n` centred binomial values of parameter η. -/
def takeBinomial (eta n : Nat) (b : Bytes) : Sum Nat (List Int × Bytes) :=
  let len := (2 * eta * n + 7) / 8
  if b.length < len then .inl (len - b.length)
  else
    let ones (i : Nat) : Nat := ((List.range eta).filter (fun k => streamBit b (i + k))).length
    .inr ((List.range n).map (fun k => (ones (2 * eta * k) : Int) - ones (2 * eta * k + eta)), b.drop len)

/-- `n` values uniform in [0, W); `words` is how many words the stream holds. -/
def takeUniform (w : Nat) : Nat → Nat → Bytes → List Nat → Sum Nat (List Nat × Bytes)
  | _, 0, b, acc => .inr (acc.reverse, b)
  | 0, n + 1, _, _ => .inl (8 * (n + 1))
  | words + 1, n + 1, b, acc =>
    let x := leAt b 0 8
    if 2 ^ 64 / w * w ≤ x then takeUniform w words (n + 1) (b.drop 8) acc else takeUniform w words n (b.drop 8) (x % w :: acc)

/-- The values of one work item; those that it does not draw are empty. -/
structure ItemValues where
  u : List Int
  e0 : List Int
  e1 : List Int
  e : List Nat
  m : List Nat
  deriving DecidableEq, Repr, Inhabited

/-- u, e0 and e1 from a stream, and what is left of it. -/
def takeErrors (d : ItemDraw) (b : Bytes) : Sum Nat (ItemValues × Bytes) :=
  match d.eta with
  | none => .inr (default, b)
  | some eta =>
    match takeTernary d.coeffs b [] with
    | .inl k => .inl k
    | .inr (u, b) => match takeBinomial eta d.coeffs b with
      | .inl k => .inl k
      | .inr (x, b) => match takeBinomial eta d.coeffs b with
        | .inl k => .inl k
        | .inr (y, b) => .inr ({ (default : ItemValues) with u := u, e0 := x, e1 := y }, b)

/-- Values of a range's size from a stream, if the item draws them, and what is left of it. -/
def takeRange (w : Option Nat) (n : Nat) (b : Bytes) : Sum Nat (List Nat × Bytes) :=
  match w with
  | none => .inr ([], b)
  | some w => takeUniform w (b.length / 8) n b []

/-- An item's values in the order u, e0, e1, E, M; or how many bytes its stream still lacks. -/
def ItemDraw.read (d : ItemDraw) (b : Bytes) : Sum Nat ItemValues :=
  match takeErrors d b with
  | .inl k => .inl k
  | .inr (v, b) => match takeRange d.e d.coeffs b with
    | .inl k => .inl k
    | .inr (e, b) => match takeRange d.m d.coeffs b with
      | .inl k => .inl k
      | .inr (m, _) => .inr { v with e := e, m := m }

/-- Bytes that an item's values take when no draw is rejected. -/
def ItemDraw.size (d : ItemDraw) : Nat :=
  (match d.eta with | some eta => d.coeffs + 2 * ((2 * eta * d.coeffs + 7) / 8) | none => 0)
  + (if d.e.isSome then 8 * d.coeffs else 0) + (if d.m.isSome then 8 * d.coeffs else 0)

/-- Bytes that a request's stream lacks once those it asked for are there. -/
def RngRequest.lacks (q : RngRequest) (got : Bytes) : Nat :=
  match q.draw with
  | none => 0
  | some d => match d.read got with
    | .inl k => k
    | .inr _ => 0

end Sys2Proof.Machine
end

