-- ==== Sys2Proof/Machine/Operands.lean ====
section
/-! DEFINITION. Opcodes, statuses and the fields of a slate: the operand forms of ring commands (R74 to R93). -/

namespace Sys2Proof.Machine

open Sys2Proof

/-! ## Codes -/

/-- Value of a status (R92). -/
def Status.code : Status → Nat
  | .ok => 0x0000 | .badOpcode => 0x0001 | .badParam => 0x0002 | .noResource => 0x0003 | .timeout => 0x0004
  | .aborted => 0x0005 | .notPermitted => 0x0006 | .busyDeferred => 0x0007 | .depFailed => 0x0008 | .hostFault => 0x0009
  | .regionRevoked => 0x0100 | .keyInvalid => 0x0101 | .outOfBounds => 0x0102 | .rights => 0x0103 | .groupClosed => 0x0200
  | .seqGap => 0x0201 | .scaleExhausted => 0x0202 | .longSum => 0x0203 | .authFail => 0x0300 | .keyMismatch => 0x0301
  | .noiseExhausted => 0x0302 | .seedRule => 0x0303 | .duplicateClient => 0x0304 | .cohortTooSmall => 0x0400
  | .noEntropy => 0x0401 | .entropyFail => 0x0402 | .sigInvalid => 0x0500 | .counterStale => 0x0501 | .zeroized => 0x0502

/-- Who may issue an opcode (R90): O, O\*, T and M. -/
structure Roles where
  o : Bool
  oStar : Bool
  t : Bool
  m : Bool
  deriving DecidableEq, Repr, Inhabited

/-- Role O. -/
def rolesO : Roles := { o := true, oStar := false, t := false, m := false }

/-- Role O\*. -/
def rolesStar : Roles := { o := false, oStar := true, t := false, m := false }

/-- Role T. -/
def rolesT : Roles := { o := false, oStar := false, t := true, m := false }

/-- Roles O and T. -/
def rolesOT : Roles := { o := true, oStar := false, t := true, m := false }

/-- Role M. -/
def rolesM : Roles := { o := false, oStar := false, t := false, m := true }

/-- Roles O and M. -/
def rolesOM : Roles := { o := true, oStar := false, t := false, m := true }

/-- How an opcode uses the JOB or GROUP field of its slate (R76; log entry 20). -/
inductive Use where
  /-- It holds a number. -/
  | must
  /-- It holds 0xFF. -/
  | none
  /-- It holds a number or 0xFF. -/
  | free
  /-- It holds 0xFF or the number at this byte of INLINE. -/
  | inline (at_ : Nat)
  deriving DecidableEq, Repr, Inhabited

/-- A row of the opcode table (R90) with its slate operands (R76) and the engine class of its work, if it has any. -/
structure OpRow where
  code : Nat
  control : Bool
  roles : Roles
  /-- Default timeout in ms; zero for none (R88). -/
  timeoutMs : Nat
  job : Use
  group : Use
  /-- Highest-priority default class of its engine work (R76). -/
  cls : Option Nat
  deriving DecidableEq, Repr, Inhabited

/-- The opcode table of R90. -/
def Opcode.row : Opcode → OpRow
  | .nop => ⟨0x0000, true, rolesO, 100, .none, .none, none⟩
  | .identify => ⟨0x0001, true, rolesO, 100, .none, .none, none⟩
  | .setHostTime => ⟨0x0002, true, rolesO, 100, .none, .none, none⟩
  | .cmdAbort => ⟨0x0003, true, rolesO, 100, .none, .none, none⟩
  | .tenantOpen => ⟨0x0010, false, rolesStar, 1000, .none, .none, none⟩
  | .tenantHandover => ⟨0x0011, false, rolesO, 0, .none, .none, none⟩
  | .tenantPolicySet => ⟨0x0012, false, rolesT, 100, .none, .none, none⟩
  | .jobOpen => ⟨0x0020, false, rolesT, 1000, .free, .none, none⟩
  | .jobClose => ⟨0x0021, false, rolesOT, 1000, .must, .none, none⟩
  | .takeOpen => ⟨0x0030, false, rolesOT, 10000, .must, .none, none⟩
  | .takeClose => ⟨0x0031, false, rolesOT, 10000, .must, .none, none⟩
  | .takeAbort => ⟨0x0032, false, rolesOT, 1000, .must, .none, none⟩
  | .setBudget => ⟨0x0040, true, rolesO, 100, .none, .none, none⟩
  | .regionRegister => ⟨0x0100, false, rolesO, 100, .inline 1, .none, none⟩
  | .regionRevoke => ⟨0x0101, false, rolesO, 1000, .none, .none, none⟩
  | .connOpen => ⟨0x0110, false, rolesO, 100, .free, .none, none⟩
  | .connClose => ⟨0x0111, false, rolesO, 1000, .none, .none, none⟩
  | .wrPost => ⟨0x0120, false, rolesO, 100, .none, .none, none⟩
  | .wrCancel => ⟨0x0121, false, rolesO, 100, .none, .none, none⟩
  | .stagingMap => ⟨0x0130, false, rolesO, 100, .none, .none, none⟩
  | .scrubConfigure => ⟨0x0131, false, rolesO, 100, .none, .none, none⟩
  | .graphLoad => ⟨0x0200, false, rolesT, 100, .free, .none, none⟩
  | .groupOpen => ⟨0x0210, false, rolesT, 100, .inline 1, .inline 0, none⟩
  | .groupDrain => ⟨0x0211, false, rolesOT, 10000, .must, .must, none⟩
  | .groupClose => ⟨0x0212, false, rolesOT, 1000, .must, .must, none⟩
  | .accConfigure => ⟨0x0300, false, rolesT, 100, .free, .inline 0, none⟩
  | .accCombine => ⟨0x0301, false, rolesOT, 10000, .must, .must, some 1⟩
  | .maskConfigure => ⟨0x0400, false, rolesT, 100, .must, .none, none⟩
  | .maskSeedsSubmit => ⟨0x0401, false, rolesO, 1000, .must, .none, some 2⟩
  | .maskRemove => ⟨0x0402, false, rolesOT, 60000, .must, .must, some 2⟩
  | .polyParamsLoad => ⟨0x0500, false, rolesT, 1000, .none, .none, none⟩
  | .polyTableBuild => ⟨0x0501, false, rolesOT, 1000, .none, .none, some 2⟩
  | .polyKeyLoad => ⟨0x0502, false, rolesT, 10000, .must, .none, some 2⟩
  | .polyNtt => ⟨0x0503, false, rolesOT, 10000, .must, .free, some 2⟩
  | .polyAdd => ⟨0x0504, false, rolesOT, 10000, .must, .free, some 2⟩
  | .polyKeyswitch => ⟨0x0505, false, rolesOT, 10000, .must, .free, some 2⟩
  | .polyModred => ⟨0x0506, false, rolesOT, 10000, .must, .free, some 2⟩
  | .polyEncNoise => ⟨0x0507, false, rolesT, 10000, .must, .free, some 2⟩
  | .polyDecShare => ⟨0x0508, false, rolesT, 10000, .must, .free, some 2⟩
  | .polyToShares => ⟨0x0509, false, rolesT, 10000, .must, .free, some 2⟩
  | .gatePolicySet => ⟨0x0600, false, rolesT, 100, .must, .free, none⟩
  | .gateRelease => ⟨0x0601, false, rolesOT, 10000, .must, .free, some 2⟩
  | .vaultConfigure => ⟨0x0610, false, rolesM, 100, .must, .none, none⟩
  | .vaultLoad => ⟨0x0611, false, rolesM, 10000, .none, .none, some 3⟩
  | .vaultStep => ⟨0x0612, false, rolesOM, 10000, .must, .must, some 3⟩
  | .vaultExport => ⟨0x0613, false, rolesM, 10000, .none, .none, some 3⟩
  | .attest => ⟨0x0700, false, rolesO, 1000, .none, .none, none⟩
  | .challenge => ⟨0x0701, true, rolesO, 100, .none, .none, none⟩
  | .ownerEnrol => ⟨0x0702, false, rolesStar, 1000, .none, .none, none⟩
  | .keyUpdate => ⟨0x0703, false, rolesStar, 1000, .free, .none, none⟩
  | .keyStage => ⟨0x0704, false, rolesStar, 1000, .none, .none, none⟩
  | .keyCommit => ⟨0x0705, false, rolesStar, 1000, .none, .none, none⟩
  | .devsetEnrol => ⟨0x0706, false, rolesStar, 1000, .none, .none, none⟩
  | .getRandom => ⟨0x0710, false, rolesOT, 100, .none, .none, none⟩
  | .cntRead => ⟨0x0800, true, rolesOT, 100, .none, .none, none⟩
  | .cntConfigure => ⟨0x0801, false, rolesO, 100, .none, .none, none⟩
  | .dailiesConfigure => ⟨0x0802, false, rolesO, 100, .none, .none, none⟩
  | .traceConfigure => ⟨0x0810, false, rolesO, 100, .none, .none, none⟩
  | .traceRead => ⟨0x0811, false, rolesO, 100, .none, .none, none⟩
  | .debugRead => ⟨0x0812, false, rolesO, 100, .none, .none, none⟩
  | .warpConfigure => ⟨0x0900, false, rolesO, 1000, .free, .free, none⟩
  | .warpRetrain => ⟨0x0901, false, rolesO, 1000, .none, .none, none⟩
  | .linkTest => ⟨0x0910, false, rolesO, 10000, .none, .none, none⟩
  | .selfTest => ⟨0x0911, false, rolesO, 60000, .none, .none, none⟩
  | .fwStage => ⟨0x0920, false, rolesStar, 60000, .none, .none, none⟩
  | .fwActivate => ⟨0x0921, false, rolesO, 0, .none, .none, none⟩

/-- Every opcode, in the order of R90. -/
def Opcode.all : List Opcode :=
  [.nop, .identify, .setHostTime, .cmdAbort, .tenantOpen, .tenantHandover, .tenantPolicySet, .jobOpen, .jobClose,
   .takeOpen, .takeClose, .takeAbort, .setBudget, .regionRegister, .regionRevoke, .connOpen, .connClose, .wrPost,
   .wrCancel, .stagingMap, .scrubConfigure, .graphLoad, .groupOpen, .groupDrain, .groupClose, .accConfigure,
   .accCombine, .maskConfigure, .maskSeedsSubmit, .maskRemove, .polyParamsLoad, .polyTableBuild, .polyKeyLoad]
  ++
  [.polyNtt, .polyAdd, .polyKeyswitch, .polyModred, .polyEncNoise, .polyDecShare, .polyToShares, .gatePolicySet,
   .gateRelease, .vaultConfigure, .vaultLoad, .vaultStep, .vaultExport, .attest, .challenge, .ownerEnrol, .keyUpdate,
   .keyStage, .keyCommit, .devsetEnrol, .getRandom, .cntRead, .cntConfigure, .dailiesConfigure, .traceConfigure,
   .traceRead, .debugRead, .warpConfigure, .warpRetrain, .linkTest, .selfTest, .fwStage, .fwActivate]

/-- The opcode of a code, if R90 lists it. -/
def opcodeOf? (code : Nat) : Option Opcode := Opcode.all.find? (fun o => o.row.code = code)

/-- Does an opcode have T or M among its roles (R91, R97, R301)? -/
def Opcode.tenantRole (o : Opcode) : Bool := o.row.roles.t || o.row.roles.m

/-- The opcodes whose DETAIL is formed by list entry (R81). -/
def Opcode.isList : Opcode → Bool
  | .wrPost | .maskSeedsSubmit | .cntConfigure => true
  | _ => false

/-! ## Slate fields (R74, R75) -/

/-- FLAGS bit 0. -/
def slateNoWait (sl : Bytes) : Bool := (leAt sl 2 2).testBit 0
/-- FLAGS bit 1. -/
def slateFence (sl : Bytes) : Bool := (leAt sl 2 2).testBit 1
/-- FLAGS bit 2. -/
def slateDep (sl : Bytes) : Bool := (leAt sl 2 2).testBit 2
/-- FLAGS bit 3. -/
def slateAuth (sl : Bytes) : Bool := (leAt sl 2 2).testBit 3
/-- FLAGS bit 4. -/
def slatePhase (sl : Bytes) : Bool := (leAt sl 2 2).testBit 4
/-- FLAGS bit 5. -/
def slateNotify (sl : Bytes) : Bool := (leAt sl 2 2).testBit 5
/-- FLAGS bit 6. -/
def slateNeedOk (sl : Bytes) : Bool := (leAt sl 2 2).testBit 6
/-- TAG. -/
def slateTag (sl : Bytes) : Word32 := BitVec.ofNat 32 (leAt sl 4 4)
/-- JOB. -/
def slateJob (sl : Bytes) : Nat := byteAt sl 8
/-- GROUP. -/
def slateGroup (sl : Bytes) : Nat := byteAt sl 9
/-- CLASS (R76). -/
def slateClass (sl : Bytes) : Nat := byteAt sl 10 / 16
/-- PARAM_LEN. -/
def slateParamLen (sl : Bytes) : Nat := leAt sl 12 2
/-- PARAM_PTR. -/
def slateParamPtr (sl : Bytes) : Nat := leAt sl 16 8
/-- INLINE, 32 bytes. -/
def slateInline (sl : Bytes) : Bytes := slice sl 32 32

/-- A little-endian field of INLINE. -/
def Cmd.inl (c : Cmd) (off len : Nat) : Nat := leAt c.slate (32 + off) len

/-- A byte string of INLINE. -/
def Cmd.inlB (c : Cmd) (off len : Nat) : Bytes := slice c.slate (32 + off) len

/-- Bytes `off` to `off + len - 1` of INLINE are zero. -/
def Cmd.inlZero (c : Cmd) (off len : Nat) : Bool := zeroAt c.slate (32 + off) len

/-- AUTH is set. -/
def Cmd.auth (c : Cmd) : Bool := slateAuth c.slate

/-- The parameter block without its trailer (R78). -/
def Cmd.body (c : Cmd) : Bytes := if c.auth then c.block.take (c.block.length - 48) else c.block

/-- The trailer's COUNTER (R78). -/
def Cmd.counter (c : Cmd) : Nat := leAt c.block (c.block.length - 40) 8

/-- A little-endian field of the parameter block. -/
def Cmd.par (c : Cmd) (off len : Nat) : Nat := leAt c.block off len

/-- A byte string of the parameter block. -/
def Cmd.parB (c : Cmd) (off len : Nat) : Bytes := slice c.block off len

/-- Bytes of the parameter block are zero. -/
def Cmd.parZero (c : Cmd) (off len : Nat) : Bool := zeroAt c.block off len

/-- JOB of the slate. -/
def Cmd.job (c : Cmd) : Nat := slateJob c.slate

/-- GROUP of the slate. -/
def Cmd.group (c : Cmd) : Nat := slateGroup c.slate

/-- ITEM of a GATE_RELEASE names a POLY item (R261). -/
def Cmd.polyItem (c : Cmd) : Bool := c.inl 0 1 == 2

/-- ITEM of a GATE_RELEASE names bank B. -/
def Cmd.itemB (c : Cmd) : Bool := c.inl 0 1 == 1

/-- An operand of a POLY command's INLINE: SRC_KIND and handle (R236). -/
def Cmd.src (c : Cmd) (off : Nat) : Nat × Nat := (c.inl off 1, c.inl (off + 2) 2)

/-- A command reads or waits for a bank or its gate item. -/
def Cmd.readsBank (c : Cmd) (g : Nat) (isB : Bool) : Bool :=
  c.group == g && (match c.work with
    | .combining b _ _ => b == isB
    | .unmasking b _ => b == isB
    | .draining bs _ _ => bs.contains (g, isB)
    | .seeds _ _ => !c.polyItem && c.itemB == isB
    | .stepping => (c.inl 1 1 == 1) == isB
    | .poly _ _ _ _ _ => [c.src 4, c.src 8].any (fun x => x.1 == (if isB then 3 else 2))
    | _ => false)

/-- The slate's JOB is 0xFF or the number that the command's own block carries (R76). -/
def Cmd.jobIs (c : Cmd) (j : Nat) : Bool × Nat := (c.job == 0xFF || c.job == j, 8)

/-- The slate's GROUP is 0xFF or the number that the command's own block carries (R76). -/
def Cmd.groupIs (c : Cmd) (g : Nat) : Bool × Nat := (c.group == 0xFF || c.group == g, 9)

/-- DETAIL of a BAD_PARAM in INLINE: slate bytes count from 0 (R81). -/
def inlineAt (off : Nat) : Nat := 32 + off

/-- DETAIL of a BAD_PARAM in the parameter block: its bytes count from 64 (R81). -/
def blockAt (off : Nat) : Nat := 64 + off

/-- DETAIL of a list command's refusal that no entry causes (R81). -/
def noEntry : Nat := 0xFFFFFF

/-- The first failing check of a list: pairs of a condition that must hold and what is wrong otherwise. -/
def firstBad {α : Type} : List (Bool × α) → Option α
  | [] => none
  | (ok, a) :: r => if ok then firstBad r else some a

/-- The offset of a reserved field that is not zero: a wrong field is named by its first byte (R81; log entry 21). -/
def nonZero? (bs : Bytes) (off len : Nat) : Option Nat := if zeroAt bs off len then none else some off

/-- One piece of a scatter list (R94): bus address and length. -/
structure Piece where
  addr : Nat
  len : Nat
  deriving DecidableEq, Repr, Inhabited

/-- Reads a scatter list at an offset of a block (R94): its pieces, or the block offset of the first wrong field. -/
def scatterAt (b : Bytes) (off : Nat) : Sum Nat (List Piece × Nat) :=
  let n := leAt b off 2
  if b.length < off + 8 then .inl off
  else if n = 0 ∨ n > 256 then .inl off
  else match nonZero? b (off + 2) 6 with
    | some o => .inl o
    | none =>
      if b.length < off + 8 + 16 * n then .inl off
      else
        let bad := (List.range n).findSome? (fun i =>
          let e := off + 8 + 16 * i
          let l := leAt b (e + 8) 4
          if l = 0 ∨ l > 2 ^ 31 then some (e + 8) else nonZero? b (e + 12) 4)
        match bad with
        | some o => .inl o
        | none => .inr ((List.range n).map (fun i =>
            let e := off + 8 + 16 * i
            { addr := leAt b e 8, len := leAt b (e + 8) 4 }), 8 + 16 * n)

/-- Bytes a scatter list names in all. -/
def piecesLen (ps : List Piece) : Nat := (ps.map (·.len)).sum

/-- The read requests of one piece (R380): from its start to the next multiple of the read request size, then aligned requests,
then the rest. `off` is the offset of the piece's next byte in the input. -/
def pieceReads (mrrs : Nat) : Nat → Nat → Nat → Nat → List (Nat × Nat × Nat)
  | 0, _, _, _ => []
  | fuel + 1, addr, len, off =>
    if len = 0 then []
    else
      let n := min len (mrrs - addr % mrrs)
      (addr, n, off) :: pieceReads mrrs fuel (addr + n) (len - n) (off + n)

/-- The read requests of a scatter list, in address order of the input: bus address, bytes, input offset (R380). -/
def readRequests (mrrs : Nat) (ps : List Piece) : List (Nat × Nat × Nat) :=
  (ps.foldl (fun (a : List (Nat × Nat × Nat) × Nat) p =>
    (a.1 ++ pieceReads mrrs (p.len / mrrs + 2) p.addr p.len a.2, a.2 + p.len)) ([], 0)).1

end Sys2Proof.Machine
end

