-- ==== Sys2Proof/Machine/Ops.lean ====
section
/-! DEFINITION. The operations every family of commands is built from: units, time stamps, events, the shuttle's writes and
signals, memory, and the life of a ring command. -/

namespace Sys2Proof.Machine

open Sys2Proof

/-! ## Units -/

/-- Ring `n`. -/
def State.ring (s : State) (n : Nat) : Ring := unit s.rings n

/-- Changes ring `n`. -/
def State.updRing (s : State) (n : Nat) (f : Ring → Ring) : State := { s with rings := s.rings.modify n f }

/-- The outstanding command of a number. -/
def State.cmd? (s : State) (cid : Nat) : Option Cmd := Table.get? s.cmds cid

/-- Changes an outstanding command. -/
def State.updCmd (s : State) (cid : Nat) (f : Cmd → Cmd) : State := { s with cmds := Table.upd s.cmds cid f }

/-- Changes port `i`. -/
def State.updPort (s : State) (i : Nat) (f : Port → Port) : State :=
  { s with trans := { s.trans with ports := s.trans.ports.modify i f } }

/-- Port `i`. -/
def State.port (s : State) (i : Nat) : Port := unit s.trans.ports i

/-- Warp link `i`. -/
def State.link (s : State) (i : Nat) : Link := unit s.warp.links i

/-- Changes warp link `i`. -/
def State.updLink (s : State) (i : Nat) (f : Link → Link) : State :=
  { s with warp := { s.warp with links := s.warp.links.modify i f } }

/-- Stack `b`. -/
def State.stack (s : State) (b : Nat) : Stack := unit s.mem.bobbins b

/-- Changes stack `b`. -/
def State.updStack (s : State) (b : Nat) (f : Stack → Stack) : State :=
  { s with mem := { s.mem with bobbins := s.mem.bobbins.modify b f } }

/-- Core `c`. -/
def State.core (s : State) (c : Nat) : CoreUnit := unit s.faults.cores c

/-- Changes core `c`. -/
def State.updCore (s : State) (c : Nat) (f : CoreUnit → CoreUnit) : State :=
  { s with faults := { s.faults with cores := s.faults.cores.modify c f } }

/-- The job of a number. -/
def State.job? (s : State) (j : Nat) : Option Job := Table.get? s.accum.jobs j

/-- Changes a job. -/
def State.updJob (s : State) (j : Nat) (f : Job → Job) : State :=
  { s with accum := { s.accum with jobs := Table.upd s.accum.jobs j f } }

/-- The open group of a number. -/
def State.group? (s : State) (g : Nat) : Option Group := Table.get? s.accum.groups g

/-- Changes a group. -/
def State.updGroup (s : State) (g : Nat) (f : Group → Group) : State :=
  { s with accum := { s.accum with groups := Table.upd s.accum.groups g f } }

/-- The connection of a number. -/
def State.conn? (s : State) (n : Nat) : Option Conn := Table.get? s.trans.conns n

/-- Changes a connection. -/
def State.updConn (s : State) (n : Nat) (f : Conn → Conn) : State :=
  { s with trans := { s.trans with conns := Table.upd s.trans.conns n f } }

/-- Active cores in ascending physical number (R47). -/
def State.activeCores (s : State) : List Nat := (List.range 36).filter (fun c => (s.core c).role == .active)

/-- Unused spare cores. -/
def State.spareCores (s : State) : List Nat := (List.range 36).filter (fun c => (s.core c).role == .spare)

/-- Command processors that run the scheduler. -/
def State.activeCps (s : State) : List Nat := (List.range 5).filter (fun i => (unit s.faults.cps i).role == .active)

/-- Stacks in service, in ascending order. -/
def State.liveStacks (s : State) : List Nat := (List.range 8).filter (fun b => (s.stack b).inService)

/-- HST_UNIT_STATUS (R31). -/
def State.unitStatus (s : State) : Word64 :=
  placeN 0 6 s.activeCores.length ||| placeN 6 3 s.spareCores.length ||| placeN 9 3 s.activeCps.length
  ||| placeB 12 ((List.range 5).any (fun i => (unit s.faults.cps i).role == .spare))
  ||| placeN 16 8 (bitsOf 8 (fun i => (s.port i).linkUp && (s.port i).width == 2))
  ||| placeN 24 8 (bitsOf 8 (fun i => (s.port i).linkUp))
  ||| placeN 32 8 (bitsOf 8 (fun b => (s.stack b).inService))
  ||| placeN 40 8 (bitsOf 8 (fun i => (s.link i).up))
  ||| placeN 48 8 (bitsOf 8 (fun i => (s.link i).up && (s.link i).width == 3))
  ||| placeB 56 s.faults.outOfService

/-! ## Time (R22, R23) -/

/-- The field that holds a source of R103 (R14). -/
def fieldOf (cls inst : Nat) : Nat :=
  match cls with
  | 0x01 => inst / 9
  | 0x02 | 0x03 | 0x04 => inst / 2
  | 0x05 => inst % 4
  | 0x07 | 0x0F => 2
  | 0x08 => if inst < 4 then inst else 3
  | 0x09 => 1
  | 0x0B => if inst = 1 ∨ inst = 3 then (if inst = 1 then 2 else 1) else 0
  | _ => 0

/-- PTIME as the mirror of a field shows it (R23). -/
def State.mirror (s : State) (f : Nat) : Word64 := unit s.time.mirrors f

/-- PTIME in ms. -/
def State.ms (s : State) : Nat := s.time.ptime.toNat / 1000000

/-- The window of 10 s of powered time that ends now contains this PTIME (R353, R402, R404). -/
def State.within10s (s : State) (t : Nat) : Bool := s.time.ptime.toNat < t + 10000000000

/-! ## Coarsening (R304, R421) -/

/-- Bit `i` of COARSEN in the policy of an open tenant: 0 POWER, 1 THROTTLE, 2 COUNTERS, 3 STAMPS. -/
def State.coarsens (s : State) (i : Nat) : Bool :=
  match s.trust.tenant with
  | none => false
  | some t => (byteAt t.policy 1).testBit i

/-- COUNTER_K of the policy. -/
def State.counterK (s : State) : Nat :=
  match s.trust.tenant with
  | none => 0
  | some t => byteAt t.policy 2

/-- A count as the operator reads it: rounded down under COUNTERS, a saturated value kept. -/
def State.coarse (s : State) {w : Nat} (v : BitVec w) : BitVec w :=
  if s.coarsens 2 ∧ v ≠ BitVec.allOnes w then BitVec.ofNat w (v.toNat / 2 ^ s.counterK * 2 ^ s.counterK) else v

/-- A count that does not saturate, as the operator reads it. -/
def State.coarseN (s : State) (n : Nat) : Nat := if s.coarsens 2 then n / 2 ^ s.counterK * 2 ^ s.counterK else n

/-- A PTIME stamp of a record of a job: rounded down under STAMPS. -/
def State.stamp (s : State) (job : BitVec 8) (t : Word64) : Word64 :=
  if s.coarsens 3 ∧ job ≠ 0xFF then BitVec.ofNat 64 (t.toNat / 1048576 * 1048576) else t

/-! ## Free values -/

/-- The next free value, and the state that has drawn it (log entry 5). -/
def State.draw (s : State) : Word64 × State := (Config.freeWord s.draws, { s with draws := s.draws + 1 })

/-! ## The trace buffer (R419) -/

/-- Records a full trace buffer holds. -/
def traceCapacity : Nat := 131072

/-- Adds a trace record, if its kind is traced. -/
def addTrace (kind : Nat) (job group : BitVec 8) (source : Nat) (field : Nat) (arg : Bytes) (s : State) : State :=
  let c := s.counters
  if c.traceMode = 0 ∨ c.kinds.getLsbD kind = false then s
  else
    let r : TraceRec := { kind := kind, job := job, group := group, source := source, ptime := s.stamp job (s.mirror field),
                          arg := fitBytes 16 arg }
    let c := if c.trace.length < traceCapacity then { c with trace := c.trace ++ [r] }
      else if c.traceMode = 1 then { c with trace := c.trace.drop 1 ++ [r], dropped := satAdd c.dropped 1 }
      else { c with dropped := satAdd c.dropped 1 }
    { s with counters := c }

/-! ## Events (R101 to R112) -/

/-- Code, severity and exemption of an event type (R106). -/
def EventType.info : EventType → Nat × Nat × Bool
  | .deviceReady => (0x0001, 0, true) | .degraded => (0x0002, 2, false) | .outOfService => (0x0003, 4, true)
  | .ringError => (0x0004, 3, false) | .overflow => (0x0005, 2, true) | .warmRestart => (0x0006, 3, true)
  | .fwActivated => (0x0007, 1, true) | .portLink => (0x0101, 1, false) | .connError => (0x0102, 2, false)
  | .remoteAccessError => (0x0103, 2, false) | .reassemblyTimeout => (0x0104, 1, false) | .wrNotify => (0x0105, 0, false)
  | .groupFailed => (0x0201, 3, true) | .scaleStep => (0x0202, 1, false) | .longSum => (0x0203, 2, false)
  | .sliceMigrated => (0x0204, 0, false) | .openAuthFail => (0x0301, 1, false) | .tableReady => (0x0302, 0, false)
  | .entropyFail => (0x0401, 4, true) | .entropyReady => (0x0402, 1, true) | .zeroized => (0x0501, 4, true)
  | .zeroizeReleased => (0x0502, 1, false) | .debugDenied => (0x0503, 2, false) | .tenantChanged => (0x0504, 1, true)
  | .keyChanged => (0x0505, 1, false) | .throttle => (0x0601, 1, false) | .hotIn => (0x0602, 2, false)
  | .thermalWarn => (0x0603, 2, false) | .thermTrip => (0x0604, 4, true) | .inputPower => (0x0605, 2, false)
  | .faultRecovered => (0x0701, 0, false) | .faultEscalated => (0x0702, 2, false) | .eccCorrected => (0x0703, 0, false)
  | .eccUncorrectable => (0x0704, 3, false) | .dailiesWritten => (0x0801, 0, false) | .counterSample => (0x0802, 0, false)
  | .warpLink => (0x0901, 1, false) | .testDone => (0x0902, 0, false)

/-- EVENT_TYPE. -/
def EventType.code (t : EventType) : Nat := t.info.1

/-- SEVERITY (R102). -/
def EventType.severity (t : EventType) : Nat := t.info.2.1

/-- Exempt from rate limiting. -/
def EventType.exempt (t : EventType) : Bool := t.info.2.2

/-- Records the on-die event queue holds (R109). -/
def queueCapacity : Nat := 1024

/-- Counts an event as lost (R109, R110): in LOST, and for the next OVERFLOW end record. -/
def countLost (e : Event) (r : Reel) : Reel :=
  { r with lost := satAdd r.lost 1, owed := r.owed + 1, owedHigh := r.owedHigh + (if e.type.severity ≥ 3 then 1 else 0),
           firstLost := if r.owed = 0 then e.ptime else r.firstLost, lastLost := e.ptime }

/-- An event enters the on-die queue with the next EVENT_SEQ, or is lost there (R104, R109). While the reel is disabled no completion
waits for it (R70). -/
def enterQueue (e : Event) (s : State) : State :=
  let r := s.reel
  let e := { e with seq := r.nextSeq, cid := if r.enabled then e.cid else none }
  let r := { r with nextSeq := r.nextSeq + 1 }
  let r := if r.queue.length < queueCapacity then { r with queue := r.queue ++ [e] } else countLost e r
  addTrace 9 e.job e.group (256 * e.srcClass + e.srcInst) (fieldOf e.srcClass e.srcInst)
    (toLE 2 e.type.code ++ toLE 4 e.seq.toNat) { s with reel := r }

/-- The open rate-limit window of a key (R112). -/
def window? (r : Reel) (t : EventType) (cls inst : Nat) : Option RateWindow :=
  r.windows.find? (fun w => w.type = t ∧ w.srcClass = cls ∧ w.srcInst = inst)

/-- Posts a formed event: exempt types pass, a key with an open window is suppressed, and otherwise a window opens (R112). -/
def postFormed (e : Event) (s : State) : State :=
  if e.type.exempt then enterQueue e s
  else match window? s.reel e.type e.srcClass e.srcInst with
    | some _ =>
      { s with reel := { s.reel with
          suppressed := satAdd s.reel.suppressed 1
          windows := s.reel.windows.map (fun w =>
            if w.type = e.type ∧ w.srcClass = e.srcClass ∧ w.srcInst = e.srcInst
            then { w with count := w.count + 1, last := e } else w) } }
    | none =>
      enterQueue e { s with reel := { s.reel with windows := s.reel.windows ++
        [{ type := e.type, srcClass := e.srcClass, srcInst := e.srcInst, count := 0, last := e }] } }

/-- The event record of a post now: PTIME from its source's mirror, coarsened under STAMPS (R101, R304). -/
def formEvent (t : EventType) (cls inst : Nat) (job group : BitVec 8) (payload : Bytes) (coarsened : Bool) (cid : Option Nat)
    (s : State) : Event :=
  let p := s.mirror (fieldOf cls inst)
  { type := t, srcClass := cls, srcInst := inst, job := job, group := group, ptime := s.stamp job p, payload := payload, seq := 0,
    summary := false, coarsened := coarsened || s.stamp job p != p, suppressed := 0, cid := cid }

/-- Posts an event that concerns no command. -/
def post (t : EventType) (cls inst : Nat) (job group : BitVec 8) (payload : Bytes) (s : State) : State :=
  postFormed (formEvent t cls inst job group payload false none s) s

/-- Posts an event with a coarsened field, or for a command. -/
def postFor (t : EventType) (cls inst : Nat) (job group : BitVec 8) (payload : Bytes) (coarsened : Bool) (cid : Option Nat)
    (s : State) : State :=
  postFormed (formEvent t cls inst job group payload coarsened cid s) s

/-- The events of the queue from the `n`-th on are those of a command's execution, for which its completion waits (R70). -/
def ofCommand (cid n : Nat) (s : State) : State :=
  if s.reel.enabled then
    { s with reel := { s.reel with queue := s.reel.queue.take n ++ (s.reel.queue.drop n).map (fun e =>
        if e.cid.isNone then { e with cid := some cid } else e) } }
  else s

/-- Runs part of a command's execution: its events are the command's (R70). -/
def forCommand (cid : Nat) (f : State → State) (s : State) : State := ofCommand cid s.reel.queue.length (f s)

/-- JOB or GROUP of an event that concerns none. -/
def nobody : BitVec 8 := 0xFF

/-- Posts DEGRADED (R31, R107): kind, unit, remaining, spares, of a source. -/
def postDegraded (cls inst kind unitNo remaining spares : Nat) (s : State) : State :=
  post .degraded cls inst nobody nobody
    ([BitVec.ofNat 8 kind, 0] ++ toLE 2 unitNo ++ toLE 2 remaining ++ toLE 2 spares ++ toLE 8 s.unitStatus.toNat) s

/-! ## The shuttle (R372, R376, R382) -/

/-- The shuttle may issue memory requests (R373). -/
def State.shuttleOpen (s : State) : Bool := s.pcie.ready && s.pcie.busMaster && !s.pcie.d3hot && !s.side.inWarmReset

/-- Every byte of a range lies within ADDR_BITS (R376). -/
def State.inReach (s : State) (addr len : Nat) : Bool := decide (addr + len ≤ 2 ^ s.pcie.addrBits.toNat)

/-- Records a shuttle error and its address (DMA_ERR, DMA_ERR_ADDR). -/
def shuttleError (bit addr : Nat) (s : State) : State :=
  { s with pcie := { s.pcie with err := s.pcie.err ||| (1#7 <<< bit), errAddr := BitVec.ofNat 64 addr } }

/-- An effect leaves the device. -/
def emit (o : Output) (s : State) : State := { s with out := s.out ++ [o] }

/-- A bulk transfer may be in progress: a bulk command runs, a connection or the dailies may move data, or reads are outstanding. -/
def State.bulkMay (s : State) : Bool :=
  s.cmds.any (fun e => !e.2.op.row.control) || !s.trans.conns.isEmpty || s.counters.dailies || !s.pcie.reads.isEmpty

/-- A control-class request of `len` bytes takes the next beats of its engine from a bulk transfer in progress, and waits on the link for
at most one TLP of it (R378): DMA_PREEMPT counts the beats taken and keeps the longest wait. How many of its beats find a bulk transfer,
and how long it waits, is timing: free values (log entry 96). -/
def controlTurn (len : Nat) (s : State) : State :=
  if !s.bulkMay ∨ len = 0 then s
  else
    let (k, s) := s.draw
    let (w, s) := s.draw
    let taken := k.toNat % ((len + 63) / 64 + 1)
    let p := s.pcie
    let ns := w.setWidth 16
    { s with pcie := { p with preempts := satAdd p.preempts taken, maxWaitNs := if p.maxWaitNs < ns then ns else p.maxWaitNs } }

/-- A memory write leaves: not issued beyond ADDR_BITS, counted otherwise (R376, R382); bulk data may carry Relaxed Ordering (R381). -/
def issueWrite (addr : Nat) (data : Bytes) (bulk : Bool) (s : State) : State :=
  if data.isEmpty then s
  else if s.inReach addr data.length then
    emit (.hostWrite addr data (bulk && s.pcie.roBulk && s.pcie.relaxedOrdering))
      (controlTurn (if bulk then 0 else data.length)
        { s with pcie := { s.pcie with bytesWritten := satAdd s.pcie.bytesWritten data.length } })
  else shuttleError 4 addr s

/-- A memory write to the host, which waits while the shuttle may issue nothing (R373). -/
def hostWrite (addr : Nat) (data : Bytes) (bulk : Bool) (s : State) : State :=
  if s.shuttleOpen then issueWrite addr data bulk s
  else { s with pcie := { s.pcie with writes := s.pcie.writes ++ [(addr, data, bulk)] } }

/-- A read request leaves (R380). -/
def issueRead (who : Reader) (off addr len : Nat) (s : State) : State :=
  emit (.hostRead who off addr len) { s with pcie := { s.pcie with reads := s.pcie.reads ++ [(who, off, addr, len)] } }

/-- A read request, which waits while the shuttle may issue nothing (R373). -/
def askRead (who : Reader) (off addr len : Nat) (s : State) : State :=
  if s.shuttleOpen then issueRead who off addr len s
  else { s with pcie := { s.pcie with asks := s.pcie.asks ++ [(who, off, addr, len)] } }

/-- What waited for the shuttle leaves once it may issue requests again (R373). -/
def flushShuttle (s : State) : State :=
  if !s.shuttleOpen then s
  else
    let w := s.pcie.writes
    let a := s.pcie.asks
    let s := { s with pcie := { s.pcie with writes := [], asks := [] } }
    let s := w.foldl (fun s x => issueWrite x.1 x.2.1 x.2.2 s) s
    a.foldl (fun s x => issueRead x.1 x.2.1 x.2.2.1 x.2.2.2 s) s

/-- What a failed host read is: its DETAIL of HOST_FAULT (R92) and its bit of DMA_ERR. -/
def readError? : HostRead → Option (Nat × Nat)
  | .data _ => none
  | .unsupportedRequest => some (1, 1)
  | .completerAbort => some (2, 2)
  | .poisoned => some (3, 3)
  | .timeout => some (4, 0)

/-- The shuttle's accounting of a read of `len` bytes at `addr` that ended so. -/
def noteRead (r : HostRead) (addr : Nat) (s : State) : State :=
  match r, readError? r with
  | .data b, _ => { s with pcie := { s.pcie with bytesRead := satAdd s.pcie.bytesRead b.length } }
  | _, some (_, bit) => shuttleError bit addr s
  | _, none => s

/-- A host read as the shuttle makes it, in a class: an address beyond ADDR_BITS is not issued and counts as Unsupported Request (R376,
R378). -/
def reach (control : Bool) (r : HostRead) (addr len : Nat) (s : State) : HostRead × State :=
  if s.inReach addr len then (r, noteRead r addr (controlTurn (if control then len else 0) s))
  else (.unsupportedRequest, shuttleError 4 addr s)

/-- Sends the MSI-X message of a vector, or sets its pending bit (R372). -/
def sendMsix (v : Nat) (s : State) : State :=
  let e := unit s.pcie.table v
  if s.pcie.msixEnable && !s.pcie.functionMask && !e.mask && s.shuttleOpen then
    emit (.msix v e.addr e.data) (controlTurn 4
      { s with pcie := { s.pcie with bytesWritten := satAdd s.pcie.bytesWritten 4, pba := s.pcie.pba &&& ~~~(1#256 <<< v) } })
  else { s with pcie := { s.pcie with pba := s.pcie.pba ||| (1#256 <<< v) } }

/-- Changes a vector's moderation. -/
def updVec (v : Nat) (f : VecMod → VecMod) (s : State) : State :=
  { s with reel := { s.reel with vectors := s.reel.vectors.modify v f } }

/-- A vector signals: its pending count clears (R113). -/
def signalVector (v : Nat) (s : State) : State := sendMsix v (updVec v (fun m => { m with pending := 0 }) s)

/-- A record becomes pending on its vector, which signals at COUNT (R113). -/
def pendVector (v : Nat) (s : State) : State :=
  let m := unit s.reel.vectors v
  if m.pending + 1 ≥ max m.count.toNat 1 then signalVector v s
  else updVec v (fun m => { m with pending := m.pending + 1 }) s

/-! ## Unprotected memory (R348, R351, R359) -/

/-- The stack and offset of a device address. -/
def stackOf (a : Nat) : Nat × Nat := (a / 0x1000000000, a % 0x1000000000)

/-- A test has overwritten the line of an address. -/
def testedBy (t : TestedLines) (a : Nat) : Bool :=
  (stackOf a).1 == t.stack && (stackOf a).2 / 256 % t.modulus == t.slot

/-- What an address that is not listed reads as: zero, and after a key rotation or a test that overwrote its line an unrelated byte
(R351, R438; log entry 4). -/
def unlisted (m : Memory) (a : Nat) : Byte :=
  match m.tested.find? (fun t => testedBy t a) with
  | some t => Config.unrelatedByte (2 * t.test + 1) a
  | none => if m.rotations = 0 then 0 else Config.unrelatedByte (2 * m.rotations) a

/-- The byte listed at an address. -/
def cell? (l : List Host.Cell) (a : Nat) : Option Byte :=
  match l with
  | [] => none
  | (b, v) :: r => if b = a then some v else cell? r a

/-- The byte an address reads as. -/
def memRead (m : Memory) (a : Nat) : Byte := (cell? m.cells a).getD (unlisted m a)

/-- Removes an address from a list of cells. -/
def dropCell (l : List Host.Cell) (a : Nat) : List Host.Cell := l.filter (fun c => c.1 ≠ a)

/-- Lists a byte at an address, keeping rising order. -/
def putCell (l : List Host.Cell) (a : Nat) (v : Byte) : List Host.Cell :=
  match l with
  | [] => [(a, v)]
  | (b, w) :: r => if a < b then (a, v) :: (b, w) :: r else if b = a then (a, v) :: r else (b, w) :: putCell r a v

/-- Writes one byte, keeping the canonical form. -/
def memWrite (m : Memory) (a : Nat) (v : Byte) : Memory :=
  if v = unlisted m a then { m with cells := dropCell m.cells a } else { m with cells := putCell m.cells a v }

/-- Reads `n` bytes from an address up. -/
def memReads (m : Memory) (a n : Nat) : Bytes := (List.range n).map (fun i => memRead m (a + i))

/-- Addresses rise strictly. -/
def rising : List Host.Cell → Bool
  | [] => true
  | [_] => true
  | (a, _) :: (b, w) :: r => decide (a < b) && rising ((b, w) :: r)

/-- The canonical form: rising addresses, and no cell equal to what an unlisted address reads as. -/
def Memory.wf (m : Memory) : Bool := rising m.cells && m.cells.all (fun c => c.2 != unlisted m c.1)

/-- The line of an address. -/
def lineOf (a : Nat) : Nat := a / 64

/-- A write of bytes within one line: discarded when the line is poisoned and not covered (R359). -/
def memWriteBytes (m : Memory) (a : Nat) : Bytes → Memory
  | [] => m
  | b :: r => memWriteBytes (memWrite m a b) (a + 1) r

/-- Writes bytes line by line: a full line clears its poison, a partial write to a poisoned line is discarded (R359). -/
def memStore (m : Memory) (a : Nat) (bs : Bytes) : Memory :=
  let n := bs.length / 64 + 2
  (List.range n).foldl (fun m i =>
    let start := if i = 0 then a else (lineOf a + i) * 64
    let stop := min (a + bs.length) ((lineOf a + i + 1) * 64)
    if start < stop then
      let piece := slice bs (start - a) (stop - start)
      if m.poison.contains (lineOf start) then
        if stop - start = 64 then memWriteBytes { m with poison := m.poison.filter (· ≠ lineOf start) } start piece else m
      else memWriteBytes m start piece
    else m) m

/-- A range touches a poisoned line. -/
def poisoned (m : Memory) (a n : Nat) : Bool := m.poison.any (fun l => decide (a < (l + 1) * 64 ∧ l * 64 < a + n))

/-- Data channels in service of a stack, c: while a reshape runs, one fewer than its map has slots (R353). -/
def Stack.channels (k : Stack) : Nat :=
  match k.move with
  | some (.reshape _ _) => k.map.length - 1
  | _ => k.map.length

/-- A range lies in the unprotected memory of one stack in service (R348). -/
def State.unprotected (s : State) (a n : Nat) : Bool :=
  let (b, o) := stackOf a
  decide (b < 8 ∧ o + n ≤ 0x200000000) && (s.stack b).inService

/-- A range lies in the present memory of one stack (R348). -/
def State.presentMem (s : State) (a n : Nat) : Bool :=
  let (b, o) := stackOf a
  decide (b < 8 ∧ o + n ≤ max 0x200000000 ((s.stack b).channels * 0x60000000)) && (s.stack b).inService

/-- An address lies in protected memory (R348). -/
def protectedAddr (a : Nat) : Bool := decide ((stackOf a).2 ≥ 0x200000000)

/-- Stores bytes in unprotected memory. -/
def State.store (s : State) (a : Nat) (bs : Bytes) : State := { s with mem := memStore s.mem a bs }

/-- Every memory encryption key is replaced: written lines now decrypt to unrelated bytes (R351, R301 step 3). -/
def rotateKeys (s : State) : State := { s with mem := { s.mem with rotations := s.mem.rotations + 1, cells := [], tested := [] } }

/-! ## Protected allocations (R348 note 2) -/

/-- Protected bytes of a stack. -/
def Stack.protectedBytes (k : Stack) : Nat := k.channels * 0x60000000 - 0x200000000

/-- Protected bytes of a stack that no allocation holds. -/
def State.freeProtected (s : State) (b : Nat) : Nat :=
  (s.stack b).protectedBytes - ((s.mem.allocs.filter (fun a => a.stack = b)).map (·.len)).sum

/-- Do two ranges meet? -/
def meets (a n b m : Nat) : Bool := decide (a < b + m ∧ b < a + n)

/-- The lowest free offset for `n` bytes of protected memory in a stack: 8 GiB, or the end of an allocation. -/
def State.lowestFree (s : State) (b n : Nat) : Option Nat :=
  let here := s.mem.allocs.filter (fun a => a.stack = b)
  let ends := 0x200000000 :: here.map (fun a => a.off + a.len)
  let fits := ends.filter (fun o => decide (o + n ≤ (s.stack b).channels * 0x60000000)
    && here.all (fun a => !meets o n a.off a.len))
  fits.foldl (fun (m : Option Nat) o => match m with | none => some o | some p => some (min o p)) none

/-- Allocates in a given stack. -/
def allocIn (o : Owner) (b n : Nat) (s : State) : Option State :=
  if n = 0 then some s
  else (s.lowestFree b n).map (fun off =>
    { s with mem := { s.mem with allocs := s.mem.allocs ++ [{ owner := o, stack := b, off := off, len := n }] } })

/-- The stack in service with the most free protected memory, the lowest number winning a tie. -/
def State.roomiest (s : State) : Option Nat :=
  s.liveStacks.foldl (fun (m : Option Nat) b => match m with
    | none => some b
    | some p => if s.freeProtected b > s.freeProtected p then some b else some p) none

/-- Allocates protected memory by R348's rule. -/
def alloc (o : Owner) (n : Nat) (s : State) : Option State :=
  if n = 0 then some s else s.roomiest.bind (fun b => allocIn o b n s)

/-- Frees what an owner holds. -/
def dealloc (o : Owner) (s : State) : State :=
  { s with mem := { s.mem with allocs := s.mem.allocs.filter (fun a => a.owner ≠ o) } }

/-! ## The life of a ring command (R65, R68, R82, R85, R86, R97, R460) -/

/-- OUTSTANDING of a ring: slates fetched whose record is not yet written. -/
def State.outstanding (s : State) (n : Nat) : Nat :=
  (s.cmds.filter (fun e => e.2.ring = n ∧ e.2.silent = false)).length + (s.ring n).records.length

/-- STATE value of a ring. -/
def RingMode.code : RingMode → Nat
  | .disabled => 0 | .enabled => 1 | .stopping => 2 | .error => 3

/-- When OUTSTANDING is 0, a stretch posts its RING_ERROR and STOPPING ends (R65, R460). -/
def ringSettle (n : Nat) (s : State) : State :=
  if s.outstanding n ≠ 0 then s
  else
    let r := s.ring n
    let s := if r.stretch && !r.posted then
        (post .ringError 0x0C n nobody nobody (toLE 4 r.errors.toNat ++ toLE 4 r.discarded) s).updRing n
          (fun r => { r with posted := true })
      else s
    if r.mode = .stopping then
      s.updRing n (fun r => { r with mode := .disabled, enable := false, stretch := false, posted := false, discarding := false,
                                     discarded := 0 })
    else s

/-- A ring error cause sets its bit. From ENABLED the ring enters ERROR, and a CQ_WRITE_ERROR makes it discard its records
(R65, R460). Bits: 0 CONFIG to 5 DOORBELL_DISABLED. -/
def ringCause (n bit : Nat) (s : State) : State :=
  let s := s.updRing n (fun r =>
    let r := { r with errors := r.errors ||| (1#6 <<< bit) }
    let r := if r.mode = .enabled then { r with mode := .error, stretch := true } else r
    if bit = 4 then
      { r with discarding := true, stretch := true, discarded := r.discarded + r.records.length, records := [] }
    else r)
  ringSettle n s

/-- Commands that have named a table version and not completed (R221). -/
def namersOf (cmds : List (Nat × Cmd)) (set ver : Nat) : List Nat :=
  (cmds.filter (fun e => match e.2.work with | .poly _ a b _ _ => a == set && b == ver | _ => false)).map (·.1)

/-- A slot that starts a build, with the commands that have named the version as its users (R221, R222). -/
def TableSlot.begin (k : TableSlot) (set ver : Nat) (users : List Nat) : TableSlot :=
  { k with set := set, ver := ver, state := .building, users := users, raised := false, built := 0, entries := [], next := none }

/-- A command no longer uses a table slot; a RETIRING slot without users takes the build that waits for it (R222). `cmds` are the
commands that go on. -/
def TableSlot.leave (k : TableSlot) (cid : Nat) (cmds : List (Nat × Cmd)) : TableSlot :=
  let k := { k with users := k.users.filter (· ≠ cid) }
  match k.state, k.next with
  | .retiring, some (set, ver) => if k.users.isEmpty then k.begin set ver (namersOf cmds set ver) else k
  | _, _ => k

/-- The command whose consumer this is. -/
def Consumer.cid? : Consumer → Option Nat
  | .command cid | .item cid _ => some cid
  | _ => none

/-- Everything in other units that waits for or belongs to a command ends with it: entropy requests, shuttle data, users, scratch. -/
def forgetCmd (cid : Nat) (s : State) : State :=
  { s with
    cmds := Table.del s.cmds cid
    rng := { s.rng with requests := s.rng.requests.filter (fun q => q.consumer.cid? ≠ some cid) }
    pcie := { s.pcie with buffer := s.pcie.buffer.filter (fun e => e.1 ≠ .command cid),
                          asks := s.pcie.asks.filter (fun e => e.1 ≠ .command cid) }
    poly := { s.poly with
      objects := Table.mapAll s.poly.objects (fun _ o => { o with users := o.users.filter (· ≠ cid) })
      heddles := s.poly.heddles.map (fun h =>
        { h with slot0 := h.slot0.leave cid (Table.del s.cmds cid), slot1 := h.slot1.leave cid (Table.del s.cmds cid) }) }
    mem := { s.mem with allocs := s.mem.allocs.filter (fun a => a.owner ≠ .scratch cid false ∧ a.owner ≠ .scratch cid true) }
    side := { s.side with tests := s.side.tests.filter (fun t => t.cid ≠ cid),
                          selfTest := if s.side.selfTest = some cid then none else s.side.selfTest }
    trans := { s.trans with conns := s.trans.conns.filter (fun e => !(e.2.phase == .connecting && e.2.cid == some cid)) } }

/-- A status with which a dependency is met: OK or LONG_SUM (R85). -/
def codeGood (code : Nat) : Bool := code == 0x0000 || code == 0x0203

/-- A command completes with a status code: its record is formed, or discarded with its ring's (R65, R460), and what waited for it
goes on (R85). -/
def completeCode (cid code detail result : Nat) (s : State) : State :=
  match s.cmd? cid with
  | none => s
  | some c =>
    let s := forgetCmd cid s
    let s := { s with cmds := Table.mapAll s.cmds (fun _ d =>
      if d.awaits.contains cid then
        { d with awaits := d.awaits.filter (· ≠ cid), depBad := d.depBad || !codeGood code }
      else d) }
    let rec_ : WaitingRecord :=
      { cid := cid, tag := slateTag c.slate, status := code, opcode := leAt c.slate 0 2, detail := BitVec.ofNat 32 detail,
        result := BitVec.ofNat 64 result, notify := slateNotify c.slate }
    let s := addTrace 3 (BitVec.ofNat 8 c.job) (BitVec.ofNat 8 c.group) (256 * 0x0C + c.ring) 0
      ([BitVec.ofNat 8 c.ring, 0, 0, 0] ++ toLE 4 (slateTag c.slate).toNat ++ toLE 2 code) s
    if c.silent then s
    else if (s.ring c.ring).discarding then
      ringSettle c.ring (s.updRing c.ring (fun r => { r with discarded := r.discarded + 1 }))
    else s.updRing c.ring (fun r => { r with records := r.records ++ [rec_] })

/-- A command completes with a status of R92. -/
def complete (cid : Nat) (st : Status) (detail result : Nat) (s : State) : State := completeCode cid st.code detail result s

/-- A command reaches its commit point before its completion (R86). -/
def commit (cid : Nat) (w : Work) (s : State) : State :=
  match s.cmd? cid with
  | none => s
  | some c =>
    addTrace 2 (BitVec.ofNat 8 c.job) (BitVec.ofNat 8 c.group) (256 * 0x0C + c.ring) 0
      ([BitVec.ofNat 8 c.ring, 0, 0, 0] ++ toLE 4 (slateTag c.slate).toNat ++ toLE 2 (leAt c.slate 0 2))
      (s.updCmd cid (fun c => { c with phase := .committed, work := w }))

/-- A started command goes on working or waiting before its commit point. -/
def setWork (cid : Nat) (w : Work) (s : State) : State := s.updCmd cid (fun c => { c with phase := .working, work := w })

/-- A key message or trailer refused with AUTH_FAIL or COUNTER_STALE counts in KEY_REFUSED (SEC_COUNTS). -/
def countKeyRefused (s : State) : State :=
  { s with trust := { s.trust with keyRefused := satAdd s.trust.keyRefused 1 } }

/-- What a started command does next, as its owning chapter states. -/
inductive Verdict where
  /-- It completes with a status other than OK and no effect (R82). -/
  | refuse (st : Status) (detail result : Nat)
  /-- It completes with every effect; the state holds the effects. -/
  | done (st : Status) (detail result : Nat) (after : State)
  /-- It goes on: the state holds its new phase and work. -/
  | goes (after : State)
  /-- It waits for a resource (R75: NO_WAIT). -/
  | waits
  /-- It waits for input or for the shuttle, which NO_WAIT does not end. -/
  | stalls
  deriving Repr, Inhabited

/-- Refuses a field of INLINE. -/
def badInline (off : Nat) : Verdict := .refuse .badParam (inlineAt off) 0

/-- Refuses a field of the parameter block. -/
def badBlock (off : Nat) : Verdict := .refuse .badParam (blockAt off) 0

/-- Completes with OK. -/
def ok (result : Nat) (s : State) : Verdict := .done .ok 0 result s

/-- Not permitted, with a DETAIL. -/
def notPermitted (detail : Nat) : Verdict := .refuse .notPermitted detail 0

/-- A check of a field: whether it holds, and the DETAIL when it does not. -/
abbrev Check := Bool × Nat

/-- Goes on to `k` when nothing is wrong, and refuses a parameter otherwise: checks in order, each with its DETAIL. -/
def checks (l : List Check) (k : Verdict) : Verdict :=
  match firstBad l with
  | some d => .refuse .badParam d 0
  | none => k

/-- Refusals in order, each with its status and DETAIL. -/
def refusals (l : List (Bool × Status × Nat)) (k : Verdict) : Verdict :=
  match l with
  | [] => k
  | (ok, st, d) :: r => if ok then refusals r k else .refuse st d 0

/-- Reserved bytes of INLINE are zero: the check with the DETAIL of the first byte that is not (R81). -/
def resInline (c : Cmd) (off len : Nat) : Check :=
  match nonZero? c.slate (32 + off) len with
  | none => (true, 0)
  | some o => (false, o)

/-- Reserved bytes of the parameter block are zero. -/
def resBlock (c : Cmd) (off len : Nat) : Check :=
  match nonZero? c.block off len with
  | none => (true, 0)
  | some o => (false, blockAt o)

/-- The key messages of R296. -/
def Opcode.keyMessage : Opcode → Bool
  | .ownerEnrol | .keyUpdate | .keyStage | .keyCommit | .devsetEnrol => true
  | _ => false

/-- Applies a verdict to the outstanding command. -/
def settle (cid : Nat) (c : Cmd) (v : Verdict) (s : State) : State :=
  match v with
  | .refuse st d r =>
    complete cid st d r (if (st = .authFail ∨ st = .counterStale) ∧ c.op.keyMessage then countKeyRefused s else s)
  | .done st d r s' => complete cid st d r s'
  | .goes s' => s'
  | .waits => if slateNoWait c.slate then complete cid .busyDeferred 0 0 s else s
  | .stalls => s

/-- A command that has started or is working, of one opcode. -/
def running? (cid : Nat) (op : Opcode) (s : State) : Option Cmd :=
  (s.cmd? cid).bind (fun c => if c.op = op ∧ (c.phase = .started ∨ c.phase = .working) then some c else none)

/-- The events that a verdict's state has posted, from the `n`-th of the queue on, are the command's (R70). -/
def Verdict.ofCommand (cid n : Nat) (v : Verdict) : Verdict :=
  match v with
  | .done st d r s => .done st d r (Machine.ofCommand cid n s)
  | .goes s => .goes (Machine.ofCommand cid n s)
  | .refuse st d r => .refuse st d r
  | .waits => .waits
  | .stalls => .stalls

/-- The row of an opcode: the started command's own checks and effect, or nothing when no such command has started
(log entry 10). -/
def runRow (op : Opcode) (f : Nat → Cmd → State → Verdict) (cid : Nat) (s : State) : State :=
  match running? cid op s with
  | none => s
  | some c => settle cid c ((f cid c s).ofCommand cid s.reel.queue.length) s

/-- A list command's refusal that no entry causes (R81). -/
def badList : Verdict := .refuse .badParam noEntry 0

/-- Goes on with a scatter list's pieces and the bytes they take in the block, or refuses its first wrong field (R94). -/
def withScatter (c : Cmd) (off : Nat) (k : List Piece → Nat → Verdict) : Verdict :=
  match scatterAt c.body off with
  | .inl o => if c.op.isList then badList else badBlock o
  | .inr (ps, n) => k ps n

/-- Goes on with the whole input of a scatter list once it has been delivered (R94, R379). -/
def withInput (c : Cmd) (off : Nat) (k : Bytes → Verdict) : Verdict :=
  withScatter c off (fun ps _ => if c.input.length < piecesLen ps then .stalls else k c.input)

/-! ## Output buffers (R87, R93) -/

/-- An output descriptor (R93). -/
structure OutDesc where
  addr : Nat
  len : Nat
  /-- Output of a bulk opcode (R377). -/
  bulk : Bool
  deriving DecidableEq, Repr, Inhabited

/-- The checks of an output descriptor at byte `off` of a structure whose byte 0 has DETAIL `base` (R93). -/
def outChecks (b : Bytes) (off base : Nat) : List Check :=
  [(leAt b off 8 % 64 = 0, base + off),
   (match nonZero? b (off + 12) 4 with | none => (true, 0) | some o => (false, base + o))]

/-- The descriptor at byte `off`, of a bulk opcode or a control-class one. -/
def outAt (b : Bytes) (off : Nat) (bulk : Bool) : OutDesc := { addr := leAt b off 8, len := leAt b (off + 8) 4, bulk := bulk }

/-- Writes an output of known length: too small a buffer, a buffer beyond ADDR_BITS, or the write; `lenAt` is the DETAIL of
OUT_LEN (R93). While the shuttle may issue nothing, the command waits (R373). -/
def writeOut (d : OutDesc) (lenAt : Nat) (data : Bytes) (k : State → Verdict) (s : State) : Verdict :=
  if data.length > d.len then .refuse .badParam lenAt data.length
  else if !s.inReach d.addr d.len then .refuse .hostFault 1 0
  else if !s.shuttleOpen then .stalls
  else k (hostWrite d.addr data d.bulk s)

/-! ## Entropy requests (R318) -/

/-- The request in which bytes are generated for a command. -/
def State.granted (s : State) (cid : Nat) : Option RngRequest := s.rng.requests.find? (fun q => q.consumer = .command cid)

/-- Every random value that a command has asked for is there. -/
def State.drawn (s : State) (cid : Nat) : Bool := s.rng.requests.all (fun q => q.consumer.cid? != some cid || q.left == 0)

/-- Adds a request for random bytes. -/
def request (level : Nat) (who : Consumer) (n piece : Nat) (s : State) : State :=
  { s with rng := { s.rng with requests := s.rng.requests ++
    [{ level := level, consumer := who, size := n, left := n, got := [], piece := piece, draw := none }] } }

/-- Adds the request of a POLY work item's stream (R247). -/
def requestItem (cid k : Nat) (d : ItemDraw) (s : State) : State :=
  { s with rng := { s.rng with requests := s.rng.requests ++
    [{ level := 3, consumer := .item cid k, size := d.size, left := d.size, got := [], piece := 65536, draw := some d }] } }

/-- The generator refuses every request (R315): FAILED or RETESTING. -/
def State.entropyFailed (s : State) : Bool := s.rng.mode == .failed || s.rng.mode == .retesting

/-- Asks for random bytes (R315, R75): refused in FAILED and RETESTING, and with NO_WAIT before the generator is seeded. -/
def askRandom (cid : Nat) (k : State → Verdict) (s : State) : Verdict :=
  if s.entropyFailed then .refuse .entropyFail 0 0
  else if s.rng.mode = .unseeded ∧ ((s.cmd? cid).map (fun c => slateNoWait c.slate)).getD false then .waits
  else k s

/-- Takes `n` random bytes for a command, in one request: asked for at first, and used once all are generated (R315, R318). -/
def withRandom (cid level n : Nat) (k : Bytes → State → Verdict) (s : State) : Verdict :=
  match s.granted cid with
  | some q => if q.left ≠ 0 then .stalls else k (q.got.take n) s
  | none => askRandom cid (fun s => .goes (setWork cid .none (request level (.command cid) n 65536 s))) s

end Sys2Proof.Machine
end

