-- ==== Sys2Proof/Machine/Keys.lean ====
section
/-! DEFINITION. The identity and every key that Vilmin forms (R285, R290, R291), and the device state that records show. -/

namespace Sys2Proof.Machine

open Sys2Proof

/-- ID_PK: the identity public key, from the first 48 bytes that the UDS expands to (R285). -/
def State.idSeed (s : State) : Bytes := hkdfN 48 s.trust.fuses.uds [] (ascii "LN7300-ID")

/-- The 32-byte identity public key (R285). -/
def State.idPk (s : State) : Bytes := slhPublic s.idSeed

/-- IDENTITY_HASH (R285), zero until Vilmin has derived the identity. -/
def State.identityHash (s : State) : Bytes := if s.trust.identity then sha256 s.idPk else zeros 32

/-- STATE of IDENTIFY (R95, R282, R302): 0 starting or ROM mode, 1 ready, 2 out of service, 3 zeroized. In ROM mode with ZEROIZE_N
held, R282 asks for 0 and R302 for 3: DESIGN CHOICE, 0 (log entry 107). -/
def State.stateCode (s : State) : Nat :=
  if s.trust.romMode then 0
  else if s.side.qualified.getLsbD 0 then 3
  else if s.faults.outOfService then 2
  else if s.side.step = 11 then 1 else 0

/-- DEVICE_SET_ID, or zero (R95). -/
def State.setId (s : State) : Bytes := (s.trust.set.map (·.id)).getD (zeros 16)

/-- MEMBER, or zero. -/
def State.member (s : State) : Nat := (s.trust.set.map (·.member)).getD 0

/-- BOOT_ID, zero before a start-up test has passed. -/
def State.bootId (s : State) : Bytes := s.trust.bootId.getD (zeros 16)

/-! ## The key store (R276, R278) -/

/-- KS (R278). -/
def State.ks (s : State) : Bytes := hkdf s.trust.fuses.uds s.bootId (ascii "LN7300-KSTORE")

/-- The number of a key's name. -/
def KeyName.code : KeyName → Nat
  | .tenantRoot => 0 | .cmdT => 1 | .pairT => 2 | .delivery => 3 | .update => 4 | .ownerRoot => 5 | .cmdM => 6 | .pairM => 7
  | .binding => 8 | .wrap => 9 | .prevBinding => 10 | .stagedSet => 11 | .enrolDk => 12
  | .jobSecret j => 16 + j | .transport j => 32 + j | .part j => 48 + j | .warp j => 64 + j | .release j => 80 + j
  | .keyImport j => 96 + j | .jobDk j => 112 + j | .stagedDk j => 128 + j

/-- A key of a job. -/
def KeyName.ofJob (n : KeyName) (j : Nat) : Bool := decide (16 ≤ n.code) && n.code % 16 == j

/-- The sealed entry of a key under KS: an initialisation vector, which the manual leaves open, and the sealed key (log entry 118). -/
def sealEntry (ks : Bytes) (n : KeyName) (k : Bytes) : Bytes :=
  let iv := toBE 12 (Config.storeIv n.code k).toNat
  iv ++ gcmSeal ks iv [] k

/-- The key of a sealed entry. -/
def openEntry (ks e : Bytes) : Option Bytes := gcmOpen ks (e.take 12) [] (e.drop 12)

/-- A key of the store, opened (R278). -/
def State.key? (s : State) (n : KeyName) : Option Bytes := (s.trust.store.find? (fun e => e.1 = n)).bind (fun e => openEntry s.ks e.2)

/-- A key is installed: its sealed entry replaces the one of that name (R278, R291). -/
def installKey (n : KeyName) (k : Bytes) (s : State) : State :=
  { s with trust := { s.trust with store := (n, sealEntry s.ks n k) :: s.trust.store.filter (fun e => e.1 ≠ n) } }

/-- Keys are erased. -/
def dropKeys (p : KeyName → Bool) (s : State) : State :=
  { s with trust := { s.trust with store := s.trust.store.filter (fun e => !p e.1) } }

/-! ## The working-key register and the key path (R279, R280) -/

/-- Loads a key into the working-key register: both shares are overwritten (R279). -/
def loadKey (k : Bytes) (s : State) : State :=
  let m := stream 32 (fun i => aesCtrByte s.trust.maskKey (s.trust.maskPos + i))
  { s with trust := { s.trust with shareA := xorBytes (fitBytes 32 k) m, shareB := m, maskPos := s.trust.maskPos + 32 } }

/-- Both shares are replaced with a fresh mask: K is unchanged (R279). -/
def remask (s : State) : State :=
  let m := stream 32 (fun i => aesCtrByte s.trust.maskKey (s.trust.maskPos + i))
  { s with trust := { s.trust with shareA := xorBytes (xorBytes s.trust.shareA s.trust.shareB) m, shareB := m,
                                   maskPos := s.trust.maskPos + 32 } }

/-- The key that the working-key register holds: its two shares combined, at the inputs of the units that use it (R279). -/
def Trust.workingKey (t : Trust) : Bytes := xorBytes t.shareA t.shareB

/-- Loads a key of the store into the working-key register, for a use. -/
def loadNamed (n : KeyName) (s : State) : State :=
  match s.key? n with
  | none => s
  | some k => loadKey k s

/-- A 32-byte key of the store as a unit receives it: from the shares of the working-key register that it has been loaded into (R279). -/
def State.using (s : State) (n : KeyName) : Bytes := (loadNamed n s).trust.workingKey

/-- The key path delivers a key of the store to the HMAC units' key register (R280). -/
def deliverMac (n : KeyName) (s : State) : State :=
  let s := loadNamed n s
  { s with trust := { s.trust with macKey := s.trust.workingKey } }

/-- HMAC-SHA-256 under a key of the store, in the HMAC units. -/
def State.mac (s : State) (n : KeyName) (m : Bytes) : Bytes := hmac (deliverMac n s).trust.macKey m

/-- The memory encryption key of a bobbin and class: UDS, BOOT_ID, and HCOUNT as 4 bytes big-endian (R290, R291). -/
def State.memoryKey (s : State) (b cls : Nat) : Bytes :=
  hkdfN 64 s.trust.fuses.uds s.bootId
    (ascii "LN7300-XTS" ++ [BitVec.ofNat 8 b] ++ toBE 4 s.trust.hcount ++ [BitVec.ofNat 8 cls])

/-- The key path delivers each base die's two memory encryption keys (R280, R291, R351). -/
def deliverMemoryKeys (s : State) : State :=
  { s with mem := { s.mem with bobbins := s.mem.bobbins.mapIdx (fun b k => { k with keys := [s.memoryKey b 0, s.memoryKey b 1] }) } }

/-! ## The keys of R291 -/

/-- The keys formed from the tenant's root secret and OPEN_HASH: K_CMD_T, PS_T, K_DLV and K_UPD. -/
def installTenantKeys (trs openHash : Bytes) (s : State) : State :=
  ([(.cmdT, "LN7300-CMDT"), (.pairT, "LN7300-PAIRT"), (.delivery, "LN7300-DLV"), (.update, "LN7300-UPD")] : List (KeyName × String)).foldl
    (fun s e => installKey e.1 (hkdf trs openHash (ascii e.2)) s) (installKey .tenantRoot trs s)

/-- The model owner's root secret and the keys formed from it and OWN_HASH: K_CMD_M and PS_M. -/
def installOwnerKeys (mrs ownHash : Bytes) (s : State) : State :=
  ([(.cmdM, "LN7300-CMDM"), (.pairM, "LN7300-PAIRM")] : List (KeyName × String)).foldl
    (fun s e => installKey e.1 (hkdf mrs ownHash (ascii e.2)) s) (installKey .ownerRoot mrs s)

/-- The standalone BK. -/
def State.standaloneBk (s : State) (trs : Bytes) : Bytes := hkdf trs s.identityHash (ascii "LN7300-BK")

/-- K_VW formed from a binding key. -/
def State.wrapKey (s : State) (bk : Bytes) : Bytes :=
  hkdf bk (match s.trust.set with | some d => d.id | none => s.identityHash) (ascii "LN7300-VW")

/-- A binding key is installed with its K_VW. -/
def installBinding (bk : Bytes) (s : State) : State := installKey .wrap (s.wrapKey bk) (installKey .binding bk s)

/-- A key of a job: secret, salt and label. -/
def jobKey (j : Nat) (jsec salt : Bytes) (label : String) : Bytes := hkdf jsec salt (ascii label ++ [BitVec.ofNat 8 j])

/-- A job's secret and the keys formed from it at JOB_OPEN: TS, K_PART, K_WARP, K_REL and K_IMP (R121, R187, R231, R264, R390). -/
def installJobKeys (j : Nat) (jsec : Bytes) (s : State) : State :=
  ([(.transport j, [], "LN7300-TS"), (.part j, s.setId, "LN7300-PART"), (.warp j, s.setId, "LN7300-WARP"),
    (.release j, s.identityHash, "LN7300-REL"), (.keyImport j, s.identityHash, "LN7300-IMP")] : List (KeyName × Bytes × String)).foldl
    (fun s e => installKey e.1 (jobKey j jsec e.2.1 e.2.2) s) (installKey (.jobSecret j) jsec s)

/-- Posts KEY_CHANGED (R306): what changed, the job and its serial, or 0xFF and zero. -/
def postKeyChanged (what job serial : Nat) (s : State) : State :=
  post .keyChanged 0x06 0 (BitVec.ofNat 8 job) nobody
    ([BitVec.ofNat 8 what, BitVec.ofNat 8 job] ++ toLE 2 s.member ++ toLE 4 s.trust.kgen.toNat ++ fitBytes 16 s.setId
      ++ toLE 4 serial) s

/-- The staged pair of a job goes into service (R295). -/
def rotateJobPair (j : Nat) (s : State) : State :=
  match (s.job? j).bind (·.staged) with
  | none => s
  | some ek =>
    let s := s.updJob j (fun jb => { jb with ek := ek, ekSerial := jb.ekSerial + 1, staged := none })
    let s := dropKeys (· == .stagedDk j) (installKey (.jobDk j) ((s.key? (.stagedDk j)).getD []) s)
    postKeyChanged 6 j (((s.job? j).map (·.ekSerial.toNat)).getD 0) s

/-- An enrolment pair is generated from 64 random bytes (R291), unless ZEROIZE_N is held (R302). -/
def installEnrol (seed : Bytes) (s : State) : State :=
  if s.side.qualified.getLsbD 0 then s
  else
    let s := installKey .enrolDk (kemPair seed).2 s
    { s with trust := { s.trust with enrol := some (kemPair seed).1 } }

/-- Asks for a new enrolment pair, if none is asked for (R291, R318); in FAILED the request ends at once (R315). -/
def wantEnrol (s : State) : State :=
  if s.side.qualified.getLsbD 0 ∨ s.rng.requests.any (fun q => q.consumer = .enrol) ∨ s.entropyFailed then s
  else request 2 .enrol 64 65536 s

end Sys2Proof.Machine
end

