-- ==== Sys2Proof/Machine/Rings.lean ====
section
/-! DEFINITION. Rings, doorbells, fetching and completion records, and the commands of chapter 03 (R62 to R97, R460). -/

namespace Sys2Proof.Machine

open Sys2Proof

/-! ## Ring registers -/

/-- BAR accesses reach the device (R368, R373). -/
def State.barOpen (s : State) : Bool := s.pcie.ready && s.pcie.memSpace && !s.pcie.d3hot && !s.side.inWarmReset

/-- An access to a BAR: Unsupported Request while the BARs cannot be accessed. -/
def atBar (f : State → State) (s : State) : State := if s.barOpen then f s else emit .unsupported s

/-- SQ slots. -/
def Ring.sqSize (r : Ring) : Nat := 2 ^ r.sqLog2.toNat
/-- CQ slots. -/
def Ring.cqSize (r : Ring) : Nat := 2 ^ r.cqLog2.toNat

/-- (a − b) mod size. -/
def ringDiff (a b : BitVec 16) (size : Nat) : Nat := (a.toNat + size - b.toNat % size) % size

/-- Unfetched slates (R67). -/
def Ring.unfetched (r : Ring) : Nat := ringDiff r.tail r.sqHead r.sqSize

/-- Free CQ slots (R68). -/
def Ring.cqFree (r : Ring) : Nat := (r.head.toNat + 2 * r.cqSize - r.cqTail.toNat - 1) % r.cqSize

/-- A write of HST_SQ_DOORBELL (R65, R67). A value that sets DOORBELL_RANGE leaves the stored TAIL as it is: DESIGN CHOICE (log
entry 107). -/
def sqDoorbellOp (n : Nat) (v : Word32) (s : State) : State :=
  let r := s.ring n
  match r.mode with
  | .disabled => ringCause n 5 s
  | .stopping => s
  | .error => s
  | .enabled =>
    let t := v.toNat % 65536
    if t ≥ r.sqSize then ringCause n 1 s else s.updRing n (fun r => { r with tail := BitVec.ofNat 16 t })

/-- A write of HST_CQ_DOORBELL (R65, R67). A value that sets DOORBELL_RANGE leaves the stored HEAD as it is: DESIGN CHOICE (log
entry 107). -/
def cqDoorbellOp (n : Nat) (v : Word32) (s : State) : State :=
  let r := s.ring n
  if r.mode = .disabled then ringCause n 5 s
  else
    let h := BitVec.ofNat 16 v.toNat
    if h.toNat ≥ r.cqSize ∨ ringDiff h r.head r.cqSize > ringDiff r.cqTail r.head r.cqSize then ringCause n 1 s
    else s.updRing n (fun r => { r with head := h })

/-- Control rings among the rings that are not DISABLED, other than `n`. -/
def otherControlRings (n : Nat) (s : State) : Nat :=
  ((List.range 64).filter (fun m => m ≠ n ∧ (s.ring m).control ∧ (s.ring m).mode ≠ .disabled)).length

/-- Enabling a ring (R64). -/
def enableRing (n : Nat) (s : State) : State :=
  let r := s.ring n
  if 4 ≤ r.sqLog2.toNat ∧ r.sqLog2.toNat ≤ 12 ∧ 4 ≤ r.cqLog2.toNat ∧ r.cqLog2.toNat ≤ 14 ∧ r.sqLog2.toNat ≤ r.cqLog2.toNat
      ∧ r.sqBase ≠ 0 ∧ r.cqBase ≠ 0 ∧ (r.control = true → otherControlRings n s < 8) then
    s.updRing n (fun r => { r with enable := true, sqHead := 0, cqTail := 0, sqPhase := true, cqPhase := true, mode := .enabled,
                                   tail := 0, head := 0, reread := false, records := [], stretch := false, posted := false,
                                   discarding := false, discarded := 0 })
  else s.updRing n (fun r => { r with enable := false, errors := r.errors ||| 1 })

/-- A write of HST_RING_CTRL (R64, R65): `m` is the mask of the bits written. -/
def writeRingCtrl (n : Nat) (m v : Word64) (s : State) : State :=
  let w (i : Nat) : Bool := m.getLsbD i
  let s := s.updRing n (fun r =>
    let r := if w 16 then { r with vector := field v 16 8 } else r
    let r := if w 24 then { r with irqEn := v.getLsbD 24 } else r
    if w 0 && r.mode == .disabled then
      { r with control := v.getLsbD 1, sqLog2 := field v 2 4, cqLog2 := field v 6 5, weight := field v 11 4 } else r)
  if !w 0 then s
  else if v.getLsbD 0 then (if (s.ring n).mode = .disabled then enableRing n s else s)
  else match (s.ring n).mode with
    | .enabled => ringSettle n (s.updRing n (fun r => { r with mode := .stopping, enable := false }))
    | .error => ringSettle n (s.updRing n (fun r => { r with mode := .stopping, enable := false }))
    | .disabled => s
    | .stopping => s

/-- HST_RING_CTRL as it reads. -/
def Ring.ctrl (r : Ring) : Word64 :=
  placeB 0 r.enable ||| placeB 1 r.control ||| place 2 r.sqLog2 ||| place 6 r.cqLog2 ||| place 11 r.weight
  ||| place 16 r.vector ||| placeB 24 r.irqEn

/-- HST_RING_STATUS as it reads. -/
def State.ringStatus (s : State) (n : Nat) : Word64 :=
  let r := s.ring n
  place 0 r.sqHead ||| place 16 r.cqTail ||| placeN 32 16 (s.outstanding n) ||| placeN 48 2 r.mode.code
  ||| placeB 50 r.sqPhase ||| placeB 51 r.cqPhase

/-! ## Fetching (R66, R68, R72, R77) -/

/-- Commands are served: the processors or the ROM run, and no warm restart does (R282, R368, R426). -/
def State.serving (s : State) : Bool :=
  !s.side.testHold && s.faults.warm.isNone
    && (s.trust.romMode || decide (8 ≤ s.side.step.toNat) || (s.side.halted && s.faults.outOfService && s.side.step == 7))

/-- A record of a control-class command that is still to be written. -/
def WaitingRecord.control (w : WaitingRecord) : Bool := ((opcodeOf? w.opcode).map (·.row.control)).getD false

/-- Control-class commands outstanding over the control rings (R73): running, or complete with a record still to be written (R63). -/
def State.controlLoad (s : State) : Nat :=
  (s.cmds.filter (fun e => e.2.op.row.control ∧ e.2.silent = false ∧ (s.ring e.2.ring).control)).length
    + ((s.rings.filter (·.control)).map (fun r => (r.records.filter (·.control)).length)).sum

/-- The device may fetch from ring `n` now. -/
def State.fetchable (s : State) (n : Nat) : Bool :=
  let r := s.ring n
  r.mode == .enabled && r.unfetched != 0 && decide (r.cqFree > s.outstanding n) && !r.reread
    && (!r.control || decide (s.controlLoad < 64))

/-- The numbers 0 to 63 from the one after `last`, wrapping. -/
def rotation (last : Option Nat) : List Nat :=
  let k := match last with | none => 0 | some l => l + 1
  (List.range 64).map (fun i => (k + i) % 64)

/-- The ring that is served next, and the arbiters after it is (R72). -/
def State.nextRing (s : State) : Option (Nat × Front) :=
  match (rotation s.front.lastControl).find? (fun n => (s.ring n).control && s.fetchable n) with
  | some n => some (n, { s.front with lastControl := some n })
  | none =>
    let again := match s.front.lastBulk with
      | none => none
      | some b => if !(s.ring b).control && s.fetchable b && decide (s.front.taken < (s.ring b).weight.toNat + 1)
          then some b else none
    match again with
    | some b => some (b, { s.front with taken := s.front.taken + 1 })
    | none =>
      match (rotation s.front.lastBulk).find? (fun n => !(s.ring n).control && s.fetchable n) with
      | some n => some (n, { s.front with lastBulk := some n, taken := 1 })
      | none => none

/-! ## What a command names (R76) -/

/-- The job that an opcode carries in its own blocks, and the group that it carries in INLINE (R76). A block that has not been read
names nothing. -/
def carried (op : Opcode) (sl block : Bytes) : Option Nat × Option Nat :=
  match op with
  | .groupOpen => (some (byteAt sl 33), some (byteAt sl 32))
  | .regionRegister => (some (byteAt sl 33), none)
  | .accConfigure => (none, some (byteAt sl 32))
  | .graphLoad => (block[2]?.map (·.toNat), none)
  | .jobOpen => (block[0]?.map (·.toNat), none)
  | .connOpen => (block[1]?.map (·.toNat), none)
  | .keyUpdate => (block[2]?.map (·.toNat), none)
  | _ => (none, none)

/-- A field that names nothing is 0xFF. -/
def named? (slate : Nat) (own : Option Nat) : Option Nat :=
  if slate ≠ 0xFF then some slate else own.filter (· ≠ 0xFF)

/-- The job and group that a command names (R76); naming a group names its job. -/
def State.names (s : State) (c : Cmd) (block : Bytes) : Option Nat × Option Nat :=
  let (j, g) := carried c.op c.slate block
  let g := named? c.group g
  let j := match named? c.job j with
    | some j => some j
    | none => g.bind (fun g => (s.group? g).map (·.job))
  (j, g)

/-! ## Check 4 of R77 -/

/-- Is a JOB or GROUP field valid for its use? `lim` is the number of jobs or groups. -/
def Use.admits (u : Use) (sl : Bytes) (v lim : Nat) : Bool :=
  match u with
  | .must => decide (v < lim)
  | .none => v == 0xFF
  | .free => decide (v < lim) || v == 0xFF
  | .inline i => v == 0xFF || v == byteAt sl (32 + i)

/-- CLASS is one the command may request (R76). -/
def classOk (row : OpRow) (k : Nat) : Bool :=
  k == 0xF || (decide (k ≤ 3) && (match row.cls with | none => true | some d => decide (d ≤ k)))

/-- Check 4 of R77: the DETAIL of the first wrong field of the slate. Where PARAM_LEN is not zero and PARAM_PTR is, the pointer is
taken as the wrong field: DESIGN CHOICE (log entry 107). -/
def slateFault (op : Opcode) (sl : Bytes) : Option Nat :=
  let row := op.row
  let bad := firstBad
    [(leAt sl 2 2 / 128 = 0 && (!slateAuth sl || op.tenantRole), 2),
     (row.job.admits sl (slateJob sl) 16, 8),
     (row.group.admits sl (slateGroup sl) 64, 9),
     (byteAt sl 10 % 16 = 0 && classOk row (slateClass sl), 10),
     (if slateDep sl then decide (byteAt sl 11 < 64) else byteAt sl 11 == 0xFF, 11),
     (leAt sl 14 2 ≤ 60000, 14),
     (slateParamPtr sl % 8 = 0 && ((slateParamLen sl == 0) == (slateParamPtr sl == 0)), 16),
     (slateDep sl || leAt sl 24 4 == 0, 24),
     (zeroAt sl 28 4, 28)]
  bad.map (fun d => if op.isList then noEntry else d)

/-- A fetched slate that cannot become a command: its record is formed at once (R77). -/
def refuseSlate (n cid : Nat) (sl : Bytes) (st : Status) (detail : Nat) (s : State) : State :=
  s.updRing n (fun r => { r with records := r.records ++
    [{ cid := cid, tag := slateTag sl, status := st.code, opcode := leAt sl 0 2, detail := BitVec.ofNat 32 detail, result := 0,
       notify := slateNotify sl }] })

/-- A slate whose phase is right is consumed, and checks 2 to 4 decide whether it becomes an outstanding command (R77). A dependency
awaits the outstanding commands of its tag: those that run, and those that have completed with a record still to be written (R85). -/
def consumeSlate (n : Nat) (sl : Bytes) (s : State) : State :=
  let s := s.updRing n (fun r =>
    let h := (r.sqHead.toNat + 1) % r.sqSize
    { r with sqHead := BitVec.ofNat 16 h, sqPhase := if h = 0 then !r.sqPhase else r.sqPhase, reread := false })
  let cid := s.front.nextCid
  let s := { s with front := { s.front with nextCid := cid + 1 } }
  match opcodeOf? (leAt sl 0 2) with
  | none => refuseSlate n cid sl .badOpcode 0 s
  | some op =>
    if (s.ring n).control && !op.row.control then refuseSlate n cid sl .notPermitted (if op.isList then noEntry else 0) s
    else match slateFault op sl with
      | some d => refuseSlate n cid sl .badParam d s
      | none =>
        let tag : Word32 := BitVec.ofNat 32 (leAt sl 24 4)
        let awaits := if slateDep sl then
            (s.cmds.filter (fun e => e.2.ring == byteAt sl 11 && !e.2.silent && slateTag e.2.slate == tag)).map (·.1)
          else []
        let bad := slateDep sl && (s.ring (byteAt sl 11)).records.any (fun w => w.tag == tag && !codeGood w.status)
        let c : Cmd := { ring := n, slate := sl, op := op, phase := .fetched, awaits := awaits, depBad := bad, block := [],
                         inputLen := 0, input := [], silent := false, work := .none }
        { s with cmds := Table.put s.cmds cid c }

/-- The read of a slate ends (R66, R77 check 1): `again` is the second read of a slot whose phase was wrong. -/
def slateRead (n : Nat) (again : Bool) (r : HostRead) (s : State) : State :=
  let q := s.ring n
  let addr := q.sqBase.toNat * 4096 + 64 * q.sqHead.toNat
  let (r, s) := reach true r addr 64 s
  match r with
  | .data b =>
    let sl := fitBytes 64 b
    if slatePhase sl = q.sqPhase then consumeSlate n sl s
    else if again then ringCause n 2 (s.updRing n (fun r => { r with reread := false }))
    else s.updRing n (fun r => { r with reread := true })
  | _ => ringCause n 3 (s.updRing n (fun r => { r with reread := false }))

/-- SLATE_FETCH: the arbiters pick a ring and its next slate is read (R72). -/
def execSlateFetch (r : HostRead) (s : State) : Host.Outcome State Fault Refusal :=
  .next (if s.serving && s.shuttleOpen then
    match s.nextRing with
    | none => s
    | some (n, f) => slateRead n false r { s with front := f }
  else s)

/-- SLATE_PHASE_REREAD: 2 µs after a phase mismatch the slot is read again (R66). -/
def execSlatePhaseReread (ring : Nat) (r : HostRead) (s : State) : Host.Outcome State Fault Refusal :=
  .next (if s.serving && s.shuttleOpen && (s.ring ring).reread && (s.ring ring).mode == .enabled then slateRead ring true r s
    else s)

/-- SQ_DOORBELL (R67). -/
def execSqDoorbell (ring : Nat) (value : Word32) (s : State) : Host.Outcome State Fault Refusal :=
  .next (atBar (sqDoorbellOp ring value) s)

/-- CQ_DOORBELL (R67). -/
def execCqDoorbell (ring : Nat) (value : Word32) (s : State) : Host.Outcome State Fault Refusal :=
  .next (atBar (cqDoorbellOp ring value) s)

/-- RING_ENABLE: a write of HST_RING_CTRL with ENABLE 1 (R64). -/
def execRingEnable (ring : Nat) (value : Word32) (s : State) : Host.Outcome State Fault Refusal :=
  .next (atBar (writeRingCtrl ring 0xFFFFFFFF (value.setWidth 64 ||| 1)) s)

/-- RING_DISABLE: a write of HST_RING_CTRL with ENABLE 0 (R65). -/
def execRingDisable (ring : Nat) (value : Word32) (s : State) : Host.Outcome State Fault Refusal :=
  .next (atBar (writeRingCtrl ring 0xFFFFFFFF (value.setWidth 64 &&& ~~~1#64)) s)

/-! ## Completion records (R69, R70, R80) -/

/-- Free reel slots (R100). -/
def Reel.free (r : Reel) : Nat := (r.head.toNat + 2 * 2 ^ r.log2.toNat - r.tail.toNat - 1) % 2 ^ r.log2.toNat

/-- The command's own events count as issued (R70): each has been written or counted lost, or the reel is disabled. An event that entered
the queue while the reel was disabled carries no command (`ofCommand`). -/
def State.eventsIssued (s : State) (cid : Nat) : Bool := !s.reel.enabled || !s.reel.queue.any (fun e => e.cid = some cid)

/-- The 32 bytes of a completion record (R80). -/
def recordBytes (n : Nat) (w : WaitingRecord) (s : State) : Bytes :=
  let r := s.ring n
  toLE 4 w.tag.toNat ++ toLE 2 w.status ++ toLE 2 w.opcode ++ toLE 2 r.sqHead.toNat
    ++ [BitVec.ofNat 8 n, if r.cqPhase then 1 else 0] ++ toLE 4 w.detail.toNat ++ toLE 8 w.result.toNat
    ++ toLE 8 (s.mirror 0).toNat

/-- CQ_RECORD_WRITE: the oldest waiting record is written (R69), signals (R70), and a ring may settle (R65). -/
def writeRecord (n : Nat) (s : State) : State :=
  let r := s.ring n
  match r.records with
  | [] => s
  | w :: rest =>
    if r.cqFree = 0 ∨ !s.shuttleOpen ∨ !s.eventsIssued w.cid then s
    else
      let addr := r.cqBase.toNat * 4096 + 32 * r.cqTail.toNat
      if !s.inReach addr 32 then ringCause n 4 (shuttleError 4 addr s)
      else
        let s := hostWrite addr (recordBytes n w s) false s
        let s := s.updRing n (fun r =>
          let t := (r.cqTail.toNat + 1) % r.cqSize
          { r with records := rest, cqTail := BitVec.ofNat 16 t, cqPhase := if t = 0 then !r.cqPhase else r.cqPhase })
        let s := if !r.irqEn then s
          else if w.notify then signalVector r.vector.toNat s else pendVector r.vector.toNat s
        ringSettle n s

/-- CQ_RECORD_WRITE. -/
def execCqRecordWrite (ring : Nat) (s : State) : Host.Outcome State Fault Refusal := .next (writeRecord ring s)

/-! ## Timeouts (R86, R88) -/

/-- The timeout of a command passes before its commit point (R86, R88). -/
def timeoutCmd (cid : Nat) (s : State) : State :=
  match s.cmd? cid with
  | none => s
  | some c =>
    if c.phase = .committed ∨ c.op.row.timeoutMs = 0 then s
    else if !s.drawn cid then
      let s := if c.op = .gateRelease then
          { s with gate := { s.gate with entropyRefused := satAdd s.gate.entropyRefused 1 } } else s
      complete cid .noEntropy 0 0 s
    else complete cid .timeout 0 0 s

/-! ## Commands owned here (R89, R95, R96) -/

/-- NOP does nothing. -/
def opNop (_ : Nat) (c : Cmd) (s : State) : Verdict := checks [resInline c 0 32] (ok 0 s)

/-- NOP. -/
def execNop (cid : Nat) (s : State) : Host.Outcome State Fault Refusal := .next (runRow .nop opNop cid s)

/-- Lanes of a port in service (R95). -/
def Port.lanes (p : Port) : Nat := if !p.linkUp then 0 else if p.width = 2 then 15 else 3

/-- INGEST_GBPS: 400 for 24 to 32 active cores while every crossing keeps at least 40 channels (R30). The manual gives no figure below
these limits, where it is a free value, and names no port among what ingest depends on, so that a port that is down leaves it as it is
(log entry 108). -/
def State.ingestGbps (s : State) : Nat :=
  let channels := s.faults.crossings.map (fun d => (bitList 64 d.inService.toNat).length)
  if 24 ≤ s.activeCores.length ∧ channels.all (40 ≤ ·) then 400 else (Config.reducedIngest s.activeCores.length channels).toNat

/-- The 512 bytes that IDENTIFY writes (R95). -/
def identityRecord (s : State) : Bytes :=
  let coreMask (r : CoreRole) : Bytes := toLE 8 (bitsOf 36 (fun c => (s.core c).role == r))
  let cpMask (r : CpRole) : Byte := BitVec.ofNat 8 (bitsOf 5 (fun i => (unit s.faults.cps i).role == r))
  toLE 2 1 ++ [BitVec.ofNat 8 s.trust.fuses.orderCode, BitVec.ofNat 8 s.trust.fuses.stepping]
    ++ toLE 4 s.trust.fwVersion.toNat ++ toLE 4 s.trust.fuses.svn
    ++ [BitVec.ofNat 8 s.stateCode, if s.trust.tenant.isSome then 1 else 0, 0, 0]
    ++ fitBytes 32 s.identityHash ++ toLE 8 s.unitStatus.toNat
    ++ coreMask .active ++ coreMask .spare ++ coreMask .retired
    ++ [cpMask .active, cpMask .retired] ++ zeros 6
    ++ (List.range 8).map (fun i => BitVec.ofNat 8 (s.port i).lanes)
    ++ ((List.range 8).map (fun i => toLE 2 (if (s.link i).up then bitsOf 9 (fun l => (s.link i).lanes.contains l) else 0))).flatten
    ++ ((List.range 8).map (fun b => toLE 8 (if (s.stack b).inService then bitsOf 34 (fun c => (s.stack b).map.contains c)
          else 0))).flatten
    ++ ((List.range 8).map (fun d => toLE 8 (unit s.faults.crossings d).inService.toNat)).flatten
    ++ toLE 4 (12 * s.activeCores.length)
    ++ toLE 4 ((s.liveStacks.map (fun b => (s.stack b).channels * 1536)).sum)
    ++ toLE 4 s.ingestGbps ++ zeros 4
    ++ toLE 8 s.front.hostTime.toNat ++ toLE 8 s.front.hostTimePtime.toNat ++ toLE 8 (s.mirror 0).toNat
    ++ fitBytes 16 s.setId ++ zeros 216

/-- IDENTIFY (R95). -/
def opIdentify (_ : Nat) (c : Cmd) (s : State) : Verdict :=
  checks (outChecks c.slate 32 0 ++ [resInline c 16 16]) <|
    let b := identityRecord s
    writeOut (outAt c.slate 32 false) (inlineAt 8) b (ok b.length) s

/-- IDENTIFY. -/
def execIdentify (cid : Nat) (s : State) : Host.Outcome State Fault Refusal := .next (runRow .identify opIdentify cid s)

/-- SET_HOST_TIME stores its claim with PTIME (R96). -/
def opSetHostTime (_ : Nat) (c : Cmd) (s : State) : Verdict :=
  checks [resInline c 8 24] <|
    let t := s.mirror 0
    ok t.toNat { s with front := { s.front with hostTime := BitVec.ofNat 64 (c.inl 0 8), hostTimePtime := t } }

/-- SET_HOST_TIME. -/
def execSetHostTime (cid : Nat) (s : State) : Host.Outcome State Fault Refusal :=
  .next (runRow .setHostTime opSetHostTime cid s)

end Sys2Proof.Machine
end

