-- ==== Sys2Proof/Machine/Flags.lean ====
section
/-! DEFINITION. How register fields read and clear: read-to-clear halves, write-one-to-clear bits and masked writes (R8, R370). -/

namespace Sys2Proof.Machine

open Sys2Proof

/-- A read covers the low half. -/
def Half.low? : Sys2Proof.Half → Bool
  | .both => true | .low => true | .high => false

/-- A read covers the high half. -/
def Half.high? : Sys2Proof.Half → Bool
  | .both => true | .low => false | .high => true

/-- What a read of one part of a register returns (R370). -/
def readPart (h : Sys2Proof.Half) (v : Word64) : Word64 :=
  match h with
  | .both => v
  | .low => v &&& 0xFFFFFFFF#64
  | .high => v >>> 32

/-- Vilmin has halted after its ROM self-test: BAR0 reads return zero except TST_PHASE (step 5 of R426). -/
def State.romDead (s : State) : Bool := s.side.halted && s.side.step == 4

/-- A read of a register with read-to-clear fields: it returns the value, and clears the fields of the halves it returns. -/
def rcRead (h : Sys2Proof.Half) (value : State → Word64) (clearLow clearHigh : State → State) (s : State) : State :=
  if !s.barOpen then emit .unsupported s
  else if s.romDead then emit (.readData 0) s
  else
    let t := emit (.readData (readPart h (value s))) s
    let t := if Half.low? h then clearLow t else t
    if Half.high? h then clearHigh t else t

/-- A masked write of a field of `w` bits at bit `lo`. -/
def maskField {w : Nat} (m v : Word64) (lo : Nat) (old : BitVec w) : BitVec w :=
  (old &&& ~~~(field m lo w)) ||| (field v lo w &&& field m lo w)

/-- A masked write of a flag. -/
def maskFlag (m v : Word64) (i : Nat) (old : Bool) : Bool := if m.getLsbD i then v.getLsbD i else old

/-- A write-one-to-clear field: the bits written 1 clear. -/
def w1c {w : Nat} (m v : Word64) (lo : Nat) (old : BitVec w) : BitVec w := old &&& ~~~(field v lo w &&& field m lo w)

/-- A write-one-to-clear flag. -/
def w1cFlag (m v : Word64) (i : Nat) (old : Bool) : Bool := old && !(m.getLsbD i && v.getLsbD i)

end Sys2Proof.Machine
end

