-- ==== Sys2Proof/Machine/Budget.lean ====
section
/-! DEFINITION. Power, heat and the budget scheduler: speed, the rate R, the budget window, caps and trips (R324 to R346). -/

namespace Sys2Proof.Machine

open Sys2Proof

/-- Changes the power controller. -/
def State.updPower (s : State) (f : Power → Power) : State := { s with power := f s.power }

/-! ## Speed (R327) -/

/-- Speed factors of R327 in hundredths, from 0.55 V to 0.90 V in steps of 0.05 V. -/
def speedTable : List (List Nat) :=
  [[46, 49, 52, 54, 56], [60, 62, 64, 66, 67], [73, 75, 76, 77, 77], [87, 88, 88, 88, 87], [101, 101, 100, 99, 97],
   [114, 113, 111, 110, 107], [126, 124, 122, 120, 116], [137, 135, 132, 129, 125]]

/-- Temperatures of the columns, in quarters of a degree. -/
def speedTemps : List Nat := [100, 200, 280, 340, 420]

/-- The column below a temperature and the weight of the next, as a fraction. -/
def tempColumn (q : Nat) : Nat × Nat × Nat :=
  let i := min ((speedTemps.filter (· ≤ q)).length - 1) 3
  let a := unit speedTemps i
  let b := unit speedTemps (i + 1)
  (i, min (q - a) (b - a), b - a)

/-- s(V, T) as a fraction, by bilinear interpolation (R327): V in mV, T in quarters of a degree. Below 25 °C it is 1 (note 3). -/
def speed (mv : Nat) (q : Int) : Nat × Nat :=
  if q < 100 then (1, 1)
  else
    let v := min (max mv 550) 900
    let row := min ((v - 550) / 50) 6
    let dv := (v - 550) - 50 * row
    let (col, dt, span) := tempColumn q.toNat
    let at_ (r c : Nat) : Nat := unit (unit speedTable r) c
    let low := at_ row col * (span - dt) + at_ row (col + 1) * dt
    let high := at_ (row + 1) col * (span - dt) + at_ (row + 1) (col + 1) * dt
    (low * (50 - dv) + high * dv, 100 * span * 50)

/-! ## Standing power (R335) -/

/-- The largest n below 2^bits with p n, for a downward closed p that holds at 0. -/
def largest (p : Nat → Bool) : Nat → Nat → Nat
  | 0, acc => acc
  | b + 1, acc => if p (acc + 2 ^ b) then largest p b (acc + 2 ^ b) else largest p b acc

/-- 2^((T − 70)/30) in millionths, rounded down; T in quarters of a degree (log entry 30). -/
def leakFactor (q : Int) : Nat :=
  let d := q - 280
  largest (fun n => if d ≥ 0 then decide (n ^ 120 ≤ 2 ^ d.toNat * 10 ^ 720) else decide (n ^ 120 * 2 ^ (-d).toNat ≤ 10 ^ 720)) 26 0

/-- F in µW: ports and links up, and the fixed part (R335). -/
def State.fixedUw (s : State) : Nat :=
  116000000 + ((List.range 8).map (fun i =>
    (if (s.port i).linkUp then (if (s.port i).width = 2 then 5000000 else 2500000) else 0)
    + (if (s.link i).up then 2500000 else 0))).sum

/-- L in µW with every field at its own voltage, or at one given voltage (R335, R338). -/
def State.leakUw (s : State) (atMv : Option Nat) : Nat :=
  ((List.range 4).map (fun f =>
    let n := (s.activeCores.filter (fun c => c / 9 = f)).length
    let p := unit s.power.fields f
    let mv := atMv.getD p.mv
    n * (1500000 * mv ^ 3 * leakFactor p.temp / (750 ^ 3 * 1000000)))).sum

/-! ## The rate R (R338, R341) -/

/-- The effective cap C in W (R341). -/
def State.effectiveCap (s : State) : Nat :=
  let h := s.power.hostCap.toNat
  let c := if s.power.sideCap = 0 then h else min h s.power.sideCap.toNat
  if s.power.hotIn ∨ s.power.inputLimit then min c 250 else c

/-- Jobs with a filling take. -/
def State.fillingJobs (s : State) : List Job := (s.accum.jobs.map (·.2)).filter (fun j => j.filling.isSome)

/-- The C0 and C1 cost of a job's path in pJ per payload byte (R338). -/
def Job.pathCost (j : Job) : Nat :=
  match j.graph with
  | none => 375
  | some g =>
    match g.mode with
    | .trusted => 295
    | .masked => 260
    | .homomorphic => if g.nodes.any (fun n => n.station = 7 ∧ n.inst = 0) then 375 else 260

/-- e_job in pJ per byte (R338). -/
def State.eJob (s : State) : Nat :=
  match s.fillingJobs with
  | [] => 375
  | l => (l.map Job.pathCost).foldl max 0

/-- Elements of a job's laid-out spilled ACC64C groups (R185). -/
def State.spilledElems (s : State) (g : Graph) : Nat :=
  (g.layout.map (fun e => match s.group? e.1 with
    | some k => if k.spilled ∧ k.kind = 3 then k.count else 0
    | none => 0)).sum

/-- Spilled ACC64C updates that the stacks sustain, in millions per second: 75 000 with eight whole stacks. Tiles lie evenly on the
stacks in service, so the slowest governs; a stack's rate goes with its channels, halved while it copies or reshapes (R352, R353;
log entry 40). -/
def State.spillRate (s : State) : Nat :=
  let rates := s.liveStacks.map (fun b => let k := s.stack b; if k.move.isSome then k.channels else 2 * k.channels)
  75000 * rates.length * (rates.foldl min 64) / 512

/-- R_spill in MB/s: the stacks' updates per second divided by the largest ρ of the jobs with a filling take, unbounded without a spilled
ACC64C group (R185). -/
def State.rSpill (s : State) : Option Nat :=
  s.fillingJobs.foldl (fun (m : Option Nat) j => match j.graph with
    | none => m
    | some g =>
      let n := s.spilledElems g
      if n = 0 then m
      else
        let r := s.spillRate * 65536 * g.segments / n
        some (match m with | none => r | some x => min x r)) none

/-- R in MB/s at a base voltage, for a cap (R338). -/
def State.rateAt (s : State) (cap mv : Nat) : Nat :=
  let hottest := s.power.fields.foldl (fun m f => max m f.temp) 0
  let (a, b) := speed mv hottest
  let byspeed := 400000 * s.activeCores.length * a / (24 * b)
  let power := 930000 * cap - (s.fixedUw + s.leakUw (some mv))
  let byenergy := 9 * power * 1024 * 750 ^ 2 / (10 * s.eJob * s.power.k.toNat * mv ^ 2)
  let r := min 400000 (min byspeed byenergy)
  match s.rSpill with
  | none => r
  | some x => min r x

/-- The candidates for V_B (R337). -/
def State.baseCandidates (s : State) : List Nat :=
  ((List.range 15).map (fun i => 550 + 25 * i)).filter (fun v => v ≤ s.power.vMax.toNat)

/-- V_B: the candidate with the largest R, the lower on a tie; 0.55 V with no filling take (R337). -/
def State.baseVoltage (s : State) (cap : Nat) : Nat :=
  match s.fillingJobs with
  | [] => 550
  | _ => (s.baseCandidates.foldl (fun (m : Nat × Nat) v => if s.rateAt cap v > m.2 then (v, s.rateAt cap v) else m)
      (550, s.rateAt cap 550)).1

/-- POOL follows R (R158): 900 µs of R in units of 4 KiB. -/
def poolOf (rate : Nat) : Nat := rate * 900 / 4096

/-- V_B, R and POOL are recomputed at once (R337 to R339). Before DEVICE_READY R is 0. -/
def recomputeBase (s : State) : State :=
  let cap := s.effectiveCap
  let v := s.baseVoltage cap
  let r := if s.side.step = 11 ∧ !s.faults.outOfService then s.rateAt cap v else 0
  { s with power := { s.power with vBase := BitVec.ofNat 10 v, rate := BitVec.ofNat 32 r },
           ingest := { s.ingest with pool := BitVec.ofNat 32 (poolOf r) } }

/-- After a cap, HOT_IN or the input has changed: R and POOL change at once, and a fall of C starts T_fall (R339). `before` is
the effective cap before the change, `cause` the CAUSE of R345 that it stands for. -/
def capChanged (before cause : Nat) (s : State) : State :=
  let s := recomputeBase s
  if s.effectiveCap < before then
    let top := s.power.fields.foldl (fun m f => max m f.mv) 0
    s.updPower (fun p => { p with fall := 2 + (top - p.vBase.toNat) / 25, capCause := cause })
  else s

/-! ## Trips and warnings (R329, R330, R430) -/

/-- SMB_ALERT_N is driven while a field or bobbin stands above its warning threshold or INPUT_LIMIT is set (R430). -/
def refreshAlert (s : State) : State :=
  { s with side := { s.side with smbAlert := s.power.fields.any (·.warn) || s.power.bobbinWarn != 0 || s.power.inputLimit } }

/-- A temperature in °C as a byte, rounded down. -/
def degrees (q : Int) : Nat := (q / 4).toNat % 256

/-- The windows of the last 100 ms (R304). -/
def Power.recent (p : Power) : List PowerSample := p.history.take 100

/-- The mean of a reading over the last 100 ms, rounded to the nearest multiple of `n`, with ties upward: `n` and the reading
in the same unit (R304). -/
def Power.mean (p : Power) (n : Nat) (f : PowerSample → Nat) : Nat :=
  let k := max p.recent.length 1
  (2 * (p.recent.map f).sum + n * k) / (2 * n * k) * n

/-- The mean of a temperature over the last 100 ms in °C, rounded to the nearest multiple of 5 with ties upward (R304). -/
def Power.meanTemp (p : Power) (f : PowerSample → Int) : Nat :=
  let k : Int := (max p.recent.length 1 : Nat)
  ((2 * (p.recent.map f).foldl (· + ·) 0 + 20 * k) / (40 * k) * 5).toNat % 256

/-- A temperature as it reaches the host or an event, in °C (R304, R344). -/
def State.celsius (s : State) (exact : Int) (f : PowerSample → Int) : Nat :=
  if s.coarsens 0 then s.power.meanTemp f else degrees exact

/-- The sensor of a unit of THERMAL_WARN (R345) in a window's readings. -/
def PowerSample.sensor (h : PowerSample) (unitNo : Nat) : Int :=
  if unitNo < 4 then unit h.temps unitNo else unit h.bobbinTemps (unitNo - 8)

/-- Posts THERMAL_WARN (R345). -/
def postWarn (unitNo state : Nat) (q : Int) (s : State) : State :=
  let t := s.celsius q (fun h => h.sensor unitNo)
  postFor .thermalWarn 0x08 (if unitNo < 4 then unitNo else 4) nobody nobody
    [BitVec.ofNat 8 unitNo, BitVec.ofNat 8 state, BitVec.ofNat 8 t] (s.coarsens 0) none s

/-- Warnings of one window: crossing upward, or falling below the threshold less the hysteresis (R329). -/
def warnings (s : State) : State :=
  let s := (List.range 4).foldl (fun s f =>
    let p := unit s.power.fields f
    if !p.warn ∧ p.temp ≥ 380 then
      postWarn f 1 p.temp (s.updPower (fun w => { w with fields := w.fields.modify f (fun p => { p with warn := true }) }))
    else if p.warn ∧ p.temp < 368 then
      postWarn f 0 p.temp (s.updPower (fun w => { w with fields := w.fields.modify f (fun p => { p with warn := false }) }))
    else s) s
  let s := (List.range 8).foldl (fun s b =>
    let t := unit s.power.bobbinTemps b
    if !s.power.bobbinWarn.getLsbD b ∧ t ≥ 360 then
      postWarn (8 + b) 1 t (s.updPower (fun w => { w with bobbinWarn := w.bobbinWarn ||| (1#8 <<< b) }))
    else if s.power.bobbinWarn.getLsbD b ∧ t < 348 then
      postWarn (8 + b) 0 t (s.updPower (fun w => { w with bobbinWarn := w.bobbinWarn &&& ~~~(1#8 <<< b) }))
    else s) s
  refreshAlert s

/-- Power is lost: everything but fuses and flash, and what stands outside the device (R325, R330, R427). -/
def losePower (s : State) : State :=
  let t := State.powerOn s.trust.fuses s.trust.flash
  { t with out := s.out, pending := s.pending, draws := s.draws,
           time := { t.time with refPresent := s.time.refPresent },
           side := { t.side with slotPins := s.side.slotPins, health := s.side.health } }

/-- A trip (R330): THERM_TRIP_N is driven, THERM_TRIP queued, and the rails turn off and stay off. -/
def trip (unitNo origin temp : Nat) (s : State) : State :=
  let s := post .thermTrip (if origin = 0 then 0x08 else 0x0D) (if origin = 0 then (if unitNo < 4 then unitNo else 4) else 2)
    nobody nobody [BitVec.ofNat 8 unitNo, BitVec.ofNat 8 origin, BitVec.ofNat 8 temp] s
  let t := losePower s
  { t with power := { t.power with tripped := true }, side := { t.side with tripDriven := true } }

/-- The first unit whose sensor has reached its trip value (R330). -/
def State.tripUnit (s : State) : Option Nat :=
  match (List.range 4).find? (fun f => decide ((unit s.power.fields f).temp ≥ 420)) with
  | some f => some f
  | none => ((List.range 8).find? (fun b => decide (unit s.power.bobbinTemps b ≥ 400))).map (8 + ·)

/-- The highest temperature read, in °C. -/
def State.hottest (s : State) : Nat :=
  degrees ((s.power.fields.map (·.temp) ++ s.power.bobbinTemps).foldl max 0)

/-! ## Dispatch (R334, R336) -/

/-- H_f in quarters of a degree (R329). -/
def State.headroom (s : State) (f : Nat) : Int := 400 - (unit s.power.fields f).temp

/-- The class of work (R35, R332). -/
def workClass : TileWork → Nat
  | .station id => unit [0, 0, 0, 0, 0, 1, 2, 2, 1, 2, 2, 3, 3] id
  | .receipts | .expansion => 0
  | .tableBuild raised | .scrub raised => if raised then 1 else 2
  | .dailies => 2

/-- Work that a field's cores do; the rest runs on its chip-level blocks: ports, shuttle and stacks (R19, R35). -/
def onCores : TileWork → Bool
  | .station id => id != 1
  | .receipts | .scrub _ | .dailies => false
  | .expansion | .tableBuild _ => true

/-- A tile's class: its work's, or the lower priority that its command asks for (R76, R332). -/
def tileClass (t : ReadyTile) : Nat := max (workClass t.work) t.lowered

/-- No work of the cores is placed on a field under the fixed settle pattern (R19, R331). -/
def State.placeable (s : State) (t : ReadyTile) : Bool := !(onCores t.work && (unit s.power.fields t.field).settle)

/-- A tile's charge in femtojoules (R334). -/
def State.charge (s : State) (t : ReadyTile) : Nat :=
  t.costFj * (unit s.power.fields t.field).mv ^ 2 * s.power.k.toNat / (750 ^ 2 * 1024)

/-- What one class's dispatch leaves: energy left, energy spent, tiles dispatched, tiles held back, C1 tiles per field. -/
structure Dispatch where
  left : Int
  spent : Nat
  sent : List ReadyTile
  held : List ReadyTile
  deriving DecidableEq, Repr, Inhabited

/-- Dispatches tiles in ready order while their charge fits; `may` says which tiles heat or limits allow. -/
def dispatch (s : State) (may : List ReadyTile → ReadyTile → Bool) (left : Int) (l : List ReadyTile) : Dispatch :=
  l.foldl (fun d t =>
    if may d.sent t ∧ (s.charge t : Int) ≤ d.left ∧ d.held.all (fun h => !may d.sent h) then
      { d with left := d.left - s.charge t, spent := d.spent + s.charge t, sent := d.sent ++ [t] }
    else { d with held := d.held ++ [t] }) { left := left, spent := 0, sent := [], held := [] }

/-- Energy of tiles. -/
def State.charges (s : State) (l : List ReadyTile) : Nat := (l.map s.charge).sum

/-- B_w in femtojoules (R335). -/
def State.windowFj (s : State) : Int :=
  (930000 * (s.power.cap : Int) * 1000000) - 930000000 * s.power.debtUj - ((s.fixedUw + s.leakUw none : Nat) : Int) * 1000000

/-- The dispatch of one window (R336): the flags, counts and energies it leaves. -/
def dispatchWindow (tiles : List ReadyTile) (s : State) : State :=
  let cls (k : Nat) := tiles.filter (fun t => s.placeable t && tileClass t == k)
  let b := s.windowFj
  let left0 := b - s.charges (cls 0)
  let may1 (sent : List ReadyTile) (t : ReadyTile) : Bool :=
    if s.headroom t.field ≤ 0 ∧ (unit s.power.fields t.field).mv = 550 then
      decide (2 * ((sent.filter (fun x => x.field = t.field)).length + 1) ≤ unit s.power.c1Counts t.field)
    else true
  let cool (_ : List ReadyTile) (t : ReadyTile) : Bool := decide (s.headroom t.field ≥ 20)
  let d1 := dispatch s may1 left0 (cls 1)
  let r1 : Nat := min s.power.spentC1 (s.charges d1.held)
  let d2 := dispatch s cool (d1.left - r1) (cls 2)
  let r2 : Nat := min s.power.spentC2 (s.charges d2.held)
  let d3 := dispatch s cool (d1.left - d2.spent - r1 - r2) (cls 3)
  let slowed := !d1.held.isEmpty
  let def2 := d2.sent.isEmpty && !d2.held.isEmpty
  let def3 := d3.sent.isEmpty && !d3.held.isEmpty
  s.updPower (fun p => { p with
    c1Slowed := slowed, c2Deferred := def2, c3Deferred := def3
    short := def2 && d2.held.any (cool []) || def3 && d3.held.any (cool [])
    c1Windows := if slowed then satAdd p.c1Windows 1 else p.c1Windows
    c2Windows := if def2 then satAdd p.c2Windows 1 else p.c2Windows
    spentC1 := d1.spent, spentC2 := d2.spent, spentAll := s.charges (cls 0) + d1.spent + d2.spent + d3.spent, budgetFj := b
    c1Counts := (List.range 4).map (fun f => (d1.sent.filter (fun t => t.field = f)).length)
    waiting := BitVec.ofNat 4 (bitsOf 4 (fun f => (d2.held ++ d3.held).any (fun t => t.field = f)))
    modelledUj := p.modelledUj + (s.charges (cls 0) + d1.spent + d2.spent + d3.spent) * 1024 / (max p.k.toNat 1) / 1000000000 })

/-! ## The window (R329, R335 to R337, R344, R345) -/

/-- Die power of the handover's fixed settle load, in W (R301 step 7). -/
def settleLoad : Nat := 200

/-- A field's cores carry the fixed settle pattern: in a handover's settle, and below 25 °C (R19, R301, R331). -/
def State.settles (s : State) (f : Nat) : Bool := s.trust.handover.isSome || decide ((unit s.power.fields f).temp < 100)

/-- Every field's temperature has changed by less than 0.5 °C over the last 250 ms (R301 step 7; log entry 113). -/
def Power.converged (p : Power) : Bool :=
  match p.history[0]?, p.history[250]? with
  | some now, some then_ => (List.range 4).all (fun f => decide ((unit now.temps f - unit then_.temps f).natAbs < 2))
  | _, _ => false

/-- The settle of a handover begins: every field carries the fixed load (R301 step 7). -/
def Power.beginSettle (p : Power) : Power :=
  { p with settleW := settleLoad, fields := p.fields.map (fun f => { f with mv := 750, settle := true }) }

/-- The settle ends: a field below 25 °C keeps the pattern (R331). -/
def Power.endSettle (p : Power) : Power :=
  { p with settleW := 0, fields := p.fields.map (fun f => { f with settle := decide (f.temp < 100) }) }

/-- One field's voltage after a window (R331, R336, R337, R346). -/
def State.nextMv (s : State) (f : Nat) : Nat :=
  let p := unit s.power.fields f
  let vb := s.power.vBase.toNat
  if s.trust.handover.isSome then 750
  else if p.temp < 100 then 750
  else if s.faults.outOfService then 550
  else if s.headroom f ≤ 0 then max 550 (p.mv - 25)
  else if (s.power.short ∨ s.power.debtUj > 0) ∧ p.mv > vb then p.mv - 25
  else if s.power.waiting.getLsbD f ∧ 10 * (s.power.spentAll : Int) ≤ 9 * s.power.budgetFj ∧ s.headroom f ≥ 20 then
    min (max s.power.vMax.toNat p.mv) (p.mv + 25)
  else if p.mv > vb ∧ !s.power.waiting.getLsbD f then p.mv - 25
  else if p.mv < vb then vb else p.mv

/-- CAUSE of a THROTTLE (R345; log entry 31). -/
def State.throttleCause (s : State) : Nat :=
  if s.power.hotIn then 4 else if s.power.inputLimit then 5 else if s.power.fall > 0 then s.power.capCause
  else if (List.range 4).any (fun f => decide (s.headroom f < 20)) then 2 else 1

/-- Posts THROTTLE when CLASSES changes, and traces a window with pressure (R345, R419). -/
def throttleReport (s : State) : State :=
  let cl : BitVec 3 := BitVec.ofNat 3 (bitsOf 3 (fun i =>
    match i with | 0 => s.power.c1Slowed | 1 => s.power.c2Deferred | _ => s.power.c3Deferred))
  let hide := s.coarsens 1
  let cause := if hide ∨ cl = 0 then 0 else s.throttleCause
  let fields := if hide then 0 else bitsOf 4 (fun f => decide (s.headroom f ≤ (0 : Int)))
  let s := if cl = 0 then s
    else addTrace 8 nobody nobody (256 * 0x08 + 4) 3 [BitVec.ofNat 8 cl.toNat, BitVec.ofNat 8 cause] s
  if cl = s.power.throttle then s
  else postFor .throttle 0x08 4 nobody nobody
    ([BitVec.ofNat 8 cl.toNat, BitVec.ofNat 8 cause, BitVec.ofNat 8 fields, 0] ++ toLE 2 s.power.cap ++ zeros 2
      ++ toLE 4 s.power.rate.toNat) hide none (s.updPower (fun p => { p with throttle := cl }))

/-- A power reading in W as it reaches the host: the 100 ms mean rounded to 5 W under POWER (R304). -/
def State.watts (s : State) (exact : Nat) (f : PowerSample → Nat) : Nat :=
  if s.coarsens 0 then s.power.mean 5000 f / 1000 else exact

/-- SPEED × 1 024 of a field now. -/
def State.speed1024 (s : State) (f : Nat) : Nat :=
  let p := unit s.power.fields f
  let (a, b) := speed p.mv p.temp
  1024 * a / b

/-- Records the readings of a window (R329, R344). -/
def takeReadings (w : WindowReading) (s : State) : State :=
  let s := s.updPower (fun p => { p with
    fields := (List.range 4).map (fun f => { (unit p.fields f : FieldPower) with temp := unit w.fieldTemps f })
    bobbinTemps := (List.range 8).map (fun b => unit w.bobbinTemps b)
    measured := true, input10mv := BitVec.ofNat 14 w.input10mv, inputW := w.inputUj / 1000, dieW := w.dieMw / 1000
    bobbinW := w.bobbinMw / 1000
    energyUj := p.energyUj + w.inputUj, windows := p.windows + 1 })
  let s := s.updPower (fun p => { p with
    history := ({ inputMw := w.inputUj, dieMw := w.dieMw, bobbinMw := w.bobbinMw, temps := p.fields.map (·.temp),
                  bobbinTemps := p.bobbinTemps, mvs := p.fields.map (·.mv),
                  speeds := (List.range 4).map s.speed1024 } :: p.history).take 251 })
  s.updPower (fun p => { p with
    coarseMj := if p.windows % 100 = 0 then
        (if s.coarsens 0 then p.coarseMj + p.mean 5000 (·.inputMw) / 10 else p.energyUj / 1000) else p.coarseMj })

/-- A budget window starts (R329, R335 to R337). -/
def budgetWindow (w : WindowReading) (s : State) : State :=
  if !s.power.railsOn ∨ s.side.step.toNat < 3 then s
  else
    let standing := s.fixedUw + s.leakUw none
    let s := s.updPower (fun p => { p with
      debtUj := if p.measured ∧ s.trust.handover.isNone then p.debtUj + w.inputUj - p.cap * 1000 else p.debtUj
      measuredUj := p.measuredUj + (93 * (w.inputUj : Int)) / 100 - standing / 1000 })
    let s := takeReadings w s
    match s.tripUnit with
    | some u => trip u 0 s.hottest s
    | none =>
      let s := warnings s
      let s := { s with mem := { s.mem with bobbins := s.mem.bobbins.mapIdx (fun b (k : Stack) =>
        { k with hotRefresh := k.inService && decide (unit s.power.bobbinTemps b > 340) }) } }
      let s := s.updPower (fun p => { p with cap := s.effectiveCap, fall := p.fall - 1 })
      let hot := (List.range 4).any (fun f => decide (s.headroom f ≤ (0 : Int)))
      let s := s.updPower (fun p => { p with
        fields := (List.range 4).map (fun f => { (unit p.fields f : FieldPower) with
          mv := s.nextMv f, settle := s.settles f })
        thermalWindows := if hot then satAdd p.thermalWindows 1 else p.thermalWindows })
      let s := if hot then recomputeBase s else s
      if s.trust.handover.isSome ∨ s.side.step ≠ 11 then s else throttleReport (dispatchWindow w.tiles s)

/-- BUDGET_WINDOW. -/
def execBudgetWindow (reading : WindowReading) (s : State) : Host.Outcome State Fault Refusal := .next (budgetWindow reading s)

/-- K_CALIBRATION: K moves towards measured over modelled dynamic energy, by at most 2 %, within 0.8 to 1.25 (R334). -/
def calibrate (p : Power) : Power :=
  let k := p.k.toNat
  let target := if p.modelledUj = 0 then k else p.measuredUj.toNat * 1024 / p.modelledUj
  let lo := k - k * 2 / 100
  let hi := k + k * 2 / 100
  let k' := min (max (min (max target lo) hi) 820) 1280
  { p with k := BitVec.ofNat 16 k', measuredUj := 0, modelledUj := 0 }

/-- K_CALIBRATION. -/
def execKCalibration (s : State) : Host.Outcome State Fault Refusal :=
  .next (if s.power.railsOn then s.updPower calibrate else s)

/-! ## Caps and inputs (R325, R340, R342, R429) -/

/-- SET_BUDGET (R340). -/
def opSetBudget (_ : Nat) (c : Cmd) (s : State) : Verdict :=
  let cap := c.inl 0 2
  let v := c.inl 2 2
  checks [(cap = 0 ∨ 250 ≤ cap ∧ cap ≤ 750, inlineAt 0), (v = 0 ∨ 600 ≤ v ∧ v ≤ 900 ∧ v % 25 = 0, inlineAt 2), resInline c 4 28] <|
    let before := s.effectiveCap
    let s := s.updPower (fun p => { p with
      hostCap := if cap = 0 then p.hostCap else BitVec.ofNat 10 cap, vMax := if v = 0 then p.vMax else BitVec.ofNat 10 v })
    let s := capChanged before 3 s
    ok (s.effectiveCap + 65536 * s.power.vMax.toNat + 2 ^ 32 * s.power.rate.toNat) s

/-- SET_BUDGET. -/
def execSetBudget (cid : Nat) (s : State) : Host.Outcome State Fault Refusal := .next (runRow .setBudget opSetBudget cid s)

/-- PWR_THROTTLE_CNT as it reads, coarsened (R421). -/
def State.throttleCnt (s : State) : Word64 :=
  place 0 (s.coarse s.power.c1Windows) ||| place 16 (s.coarse s.power.c2Windows) ||| place 32 (s.coarse s.power.thermalWindows)

/-- PWR_THROTTLE_CNT_READ. -/
def execPwrThrottleCntRead (half : Half) (s : State) : Host.Outcome State Fault Refusal :=
  .next (rcRead half State.throttleCnt (fun s => s.updPower (fun p => { p with c1Windows := 0, c2Windows := 0 }))
    (fun s => s.updPower (fun p => { p with thermalWindows := 0 })) s)

/-- Posts INPUT_POWER (R345). -/
def postInput (cause mv10 : Nat) (s : State) : State :=
  post .inputPower 0x08 4 nobody nobody ([BitVec.ofNat 8 cause, 0] ++ toLE 2 mv10) s

/-- INPUT_EXCURSION: the input lies between 50 V and 54 V, or 66 V and 70 V, for 1 ms (R325). -/
def execInputExcursion (input10mv : Nat) (s : State) : Host.Outcome State Fault Refusal :=
  .next (if !s.power.railsOn ∨ s.power.inputLimit then s
    else
      let before := s.effectiveCap
      let s := capChanged before 5 (s.updPower (fun p => { p with inputLimit := true }))
      refreshAlert (postInput (if input10mv < 5400 then 0 else 1) input10mv s))

/-- INPUT_BACK_IN_RANGE: the input has stayed within 54 V to 66 V for 100 ms (R325). -/
def execInputBackInRange (input10mv : Nat) (s : State) : Host.Outcome State Fault Refusal :=
  .next (if !s.power.inputLimit then s
    else refreshAlert (postInput 2 input10mv (recomputeBase (s.updPower (fun p => { p with inputLimit := false })))))

/-- INPUT_OUT_OF_RANGE: the input lies below 50 V or above 70 V for 1 ms, and all powered state is lost (R325). -/
def execInputOutOfRange (s : State) : Host.Outcome State Fault Refusal :=
  .next (if s.power.tripped then s else losePower s)

/-- INPUT_REMOVED: a power reset, which also ends a latched trip (R330, R427). -/
def execInputRemoved (s : State) : Host.Outcome State Fault Refusal := .next (losePower s)

/-- A sideband input's assertion or release qualifies: its level, its QUALIFIED bit and its count (R429). -/
def qualify (i : Nat) (asserted : Bool) (s : State) : State :=
  let low := decide (i < 4)
  { s with side := { s.side with
      raw := if asserted != low then s.side.raw ||| (1#5 <<< i) else s.side.raw &&& ~~~(1#5 <<< i)
      qualified := if asserted then s.side.qualified ||| (1#5 <<< i) else s.side.qualified &&& ~~~(1#5 <<< i)
      counts := if asserted then s.side.counts.modify i (fun c => (satAdd c.1 1, c.2)) else s.side.counts } }

/-- Sampling of a sideband input runs: PWR_OK from step 1, the others from step 3 (R429). -/
def State.samples (s : State) (i : Nat) : Bool :=
  decide (s.side.step.toNat ≥ if i = 4 then 1 else 3) && (s.power.railsOn || i == 4)

/-- Input `i` may qualify an assertion, or a release. -/
def State.mayQualify (s : State) (i : Nat) (asserted : Bool) : Bool := s.samples i && (s.side.qualified.getLsbD i != asserted)

/-- HOT_IN is posted with the effective cap (R342, R345). -/
def postHotIn (st : Nat) (s : State) : State :=
  post .hotIn 0x0D 1 nobody nobody ([BitVec.ofNat 8 st, 0] ++ toLE 2 s.effectiveCap) s

/-- HOT_IN_N_ASSERT (R342). -/
def execHotInNAssert (s : State) : Host.Outcome State Fault Refusal :=
  .next (if !s.mayQualify 1 true then s
    else
      let before := s.effectiveCap
      postHotIn 1 (capChanged before 4 ((qualify 1 true s).updPower (fun p => { p with hotIn := true }))))

/-- HOT_IN_N_RELEASE (R342). -/
def execHotInNRelease (s : State) : Host.Outcome State Fault Refusal :=
  .next (if !s.mayQualify 1 false then s
    else postHotIn 0 (recomputeBase ((qualify 1 false s).updPower (fun p => { p with hotIn := false }))))

/-- THERM_TRIP_N_EXTERNAL: asserted from outside and qualified (R330). -/
def execThermTripNExternal (s : State) : Host.Outcome State Fault Refusal :=
  .next (if !s.mayQualify 2 true then s else trip 0xFF 1 s.hottest (qualify 2 true s))

/-! ## Registers (R344) -/

/-- PWR_CAP. -/
def State.pwrCap (s : State) : Word64 :=
  place 0 s.power.hostCap ||| place 16 s.power.sideCap ||| placeN 32 10 s.effectiveCap ||| place 48 s.power.vMax
  ||| placeB 58 s.power.hotIn ||| placeB 59 s.power.inputLimit

/-- PWR_FIELD of field `f`. -/
def State.pwrField (s : State) (f : Nat) : Word64 :=
  if !s.power.measured then 0
  else
    let p := unit s.power.fields f
    let mv := if s.coarsens 0 then s.power.mean 25 (fun h => unit h.mvs f) else p.mv
    let sp := if s.coarsens 0 then s.power.mean 16 (fun h => unit h.speeds f) else s.speed1024 f
    placeN 0 10 mv ||| placeN 16 8 (s.celsius p.temp (fun h => unit h.temps f))
    ||| placeN 24 2 (if s.headroom f ≤ 0 then 2 else if p.warn then 1 else 0) ||| placeN 32 16 sp

/-- PWR_BOBBIN_TEMP. -/
def State.pwrBobbins (s : State) : Word64 :=
  (List.range 8).foldl (fun a b => a ||| placeN (8 * b) 8
    (if s.power.measured then s.celsius (unit s.power.bobbinTemps b) (fun h => unit h.bobbinTemps b) else 0)) 0

/-- PWR_INPUT. -/
def State.pwrInput (s : State) : Word64 :=
  place 0 s.power.input10mv ||| placeN 16 16 (s.watts s.power.inputW (·.inputMw)) ||| placeN 32 16 (s.watts s.power.dieW (·.dieMw))
  ||| placeN 48 16 (s.watts s.power.bobbinW (·.bobbinMw))

/-- PWR_ENERGY. -/
def State.pwrEnergy (s : State) : Word64 :=
  BitVec.ofNat 64 (if s.coarsens 0 then s.power.coarseMj else s.power.energyUj / 1000)

/-- PWR_SCHED. -/
def State.pwrSched (s : State) : Word64 :=
  place 0 s.power.rate ||| place 32 s.power.vBase ||| placeB 42 s.power.c1Slowed ||| placeB 43 s.power.c2Deferred
  ||| placeB 44 s.power.c3Deferred ||| placeB 45 (s.power.fall != 0)

/-- PWR_CAL. -/
def State.pwrCal (s : State) : Word64 := place 0 s.power.k ||| placeN 32 32 (min s.power.debtUj 0xFFFFFFFF)

end Sys2Proof.Machine
end

