-- ==== Sys2Proof/Machine/Random.lean ====
section
/-! DEFINITION. The random number generator: tests, conditioning, the DRBG and its consumers, and GET_RANDOM (R309 to R323). -/

namespace Sys2Proof.Machine

open Sys2Proof

/-- Changes the generator. -/
def State.updRng (s : State) (f : Rng → Rng) : State := { s with rng := f s.rng }

/-! ## Samples, tests and conditioning (R311 to R313) -/

/-- The samples of a packed byte string, first sample in bit 0 of the first byte. -/
def samplesOf (bs : Bytes) : List Bool := (bs.map (fun b => (List.range 8).map (fun i => b.getLsbD i))).flatten

/-- The longest run of equal samples is at least 61: the repetition count test fails (R313). -/
def repetitionFails (l : List Bool) : Bool :=
  (l.foldl (fun (a : Option Bool × Nat × Bool) b =>
    let run := if a.1 = some b then a.2.1 + 1 else 1
    (some b, run, a.2.2 || decide (61 ≤ run))) (none, 0, false)).2.2

/-- The first sample of a window of 1 024 recurs 841 or more times, itself counted: the adaptive proportion test fails (R313). -/
def proportionFails (l : List Bool) : Bool :=
  match l with
  | [] => false
  | a :: _ => decide (841 ≤ ((l.take 1024).filter (· == a)).length)

/-- One source's 1 024 samples fail a test. -/
def sourceFails (bs : Bytes) : Bool :=
  let l := samplesOf (bs.take 128)
  repetitionFails l || proportionFails l

/-- The sources that fail a start-up test, bit s for source s (R312). -/
def failing (samples : List Bytes) : BitVec 8 := BitVec.ofNat 8 (bitsOf 8 (fun i => sourceFails (unit samples i)))

/-- Conditioning block `i` of a start-up test: SHA-256 of 16 bytes from each source in turn (R311, R312). -/
def block (samples : List Bytes) (i : Nat) : Bytes :=
  sha256 (((List.range 8).map (fun k => fitBytes 16 (slice (unit samples k) (16 * i) 16))).flatten)

/-- The personalisation string (R314). -/
def State.drbgPerson (s : State) : Bytes := ascii "LN7300-DRBG" ++ s.trust.fuses.serial

/-- The state of a new DRBG instance from blocks 2 to 4 of a passed test (R312, R314). -/
def State.instantiate (s : State) (samples : List Bytes) : Bytes :=
  drbgInstantiate (block samples 2 ++ block samples 3) ((block samples 4).take 16) s.drbgPerson

/-! ## Requests (R318 to R320) -/

/-- Pools below 192 ask for what they lack, while the generator is READY (R320). -/
def refillPools (s : State) : State :=
  if s.rng.mode ≠ .ready then s
  else (List.range 16).foldl (fun s i =>
    let have_ := (unit s.rng.pools i).length
    if have_ < 192 ∧ !s.rng.requests.any (fun q => q.consumer = .pool i) then request 1 (.pool i) (16 * (256 - have_)) 16 s else s) s

/-- The generator becomes READY with a new instance (R312, R317). -/
def becomeReady (samples : List Bytes) (s : State) : State :=
  let s := s.updRng (fun g => { g with mode := .ready, drbg := s.instantiate samples, seededAt := s.time.ptime.toNat, served := 0,
                                       reseedDue := false, retriesLeft := 0, retest := false, testing := false, posted := false })
  let s := refillPools s
  if s.trust.enrol.isNone ∧ (s.side.step = 11 ∨ s.trust.zeroizes ≠ 0) ∧ s.trust.handover.isNone then wantEnrol s else s

/-- Takes a nonce from an engine's pool (R320). -/
def takeNonce (engine : Nat) (s : State) : Option (Bytes × State) :=
  match unit s.rng.pools engine with
  | [] => none
  | x :: rest => some (x, refillPools (s.updRng (fun g => { g with pools := g.pools.set engine rest })))

/-- Requests that wait for bytes. -/
def Rng.waiting (g : Rng) : List RngRequest := g.requests.filter (fun q => q.left ≠ 0)

/-- A waiting request ends with a status: a command completes with it. -/
def failRequest (st : Status) (q : RngRequest) (s : State) : State :=
  match q.consumer.cid? with
  | some cid =>
    let s := if (s.cmd? cid).any (fun c => c.op = .gateRelease) ∧ st = .entropyFail then
        { s with gate := { s.gate with entropyRefused := satAdd s.gate.entropyRefused 1 } } else s
    complete cid st 0 0 s
  | none => s

/-- Every waiting request completes with a status and is gone (R316, R323). -/
def failRequests (st : Status) (s : State) : State :=
  let w := s.rng.waiting
  let s := s.updRng (fun g => { g with requests := g.requests.filter (fun q => q.left = 0) })
  w.foldl (fun s q => failRequest st q s) s

/-- Posts ENTROPY_FAIL (R322). -/
def postEntropyFail (cause refused : Nat) (s : State) : State :=
  post .entropyFail 0x07 0 nobody nobody
    ([BitVec.ofNat 8 cause, s.rng.srcFail, BitVec.ofNat 8 s.rng.retriesLeft.toNat, 0] ++ toLE 4 refused) s

/-- Posts ENTROPY_READY (R322). -/
def postEntropyReady (cause failedMs : Nat) (s : State) : State :=
  post .entropyReady 0x07 0 nobody nobody ([BitVec.ofNat 8 cause, 0, 0, 0] ++ toLE 4 failedMs) s

/-- A request served in part starts again, with every byte from the new instance (R315, R317). -/
def RngRequest.restart (q : RngRequest) : RngRequest := if q.left = 0 then q else { q with left := q.size, got := [] }

/-- A nonce pool's request. -/
def RngRequest.forPool (q : RngRequest) : Bool := match q.consumer with | .pool _ => true | _ => false

/-- The generator returns to UNSEEDED and runs a start-up test; pools are empty and are filled again when it is READY (R315, R320, R323). -/
def unseed (why : UnseededBy) (s : State) : State :=
  s.updRng (fun g => { g with mode := .unseeded, requests := (g.requests.filter (fun q => !q.forPool)).map (·.restart), drbg := zeros 48, retriesLeft := 0, retest := false, reseed := false,
                              reseedDue := false, cause := why, testing := true, posted := false,
                              pools := List.replicate 16 [] })

/-- A health-test failure (R316). -/
def healthFail (source : Nat) (adaptive : Bool) (s : State) : State :=
  let n := s.rng.waiting.length
  let s := s.updRng (fun g => { g with mode := .failed, drbg := zeros 48, failures := satAdd g.failures 1, reseed := false,
                                       srcFail := 1#8 <<< source, retriesLeft := 3, failedAt := s.time.ptime.toNat })
  postEntropyFail (if adaptive then 1 else 0) n (failRequests .entropyFail s)

/-- What a passed start-up test gives once after power application: BOOT_ID, the mask stream, WCTR and the memory encryption keys (R278, R279,
R291). -/
def firstSeeding (samples : List Bytes) (s : State) : State :=
  if s.rng.bootSeeded then s
  else
    let id := (block samples 0).take 16
    { s with
      rng := { s.rng with bootSeeded := true }
      trust := { s.trust with bootId := some id, maskKey := block samples 1, maskPos := 0 }
      gate := { s.gate with wctr := BitVec.ofNat 64 (leAt id 0 8) &&& 0x7FFFFFFFFFFFFFFF } } |> deliverMemoryKeys

/-- The end of a start-up test in UNSEEDED (R312, R315, R322). -/
def startupDone (samples : List Bytes) (kat : Bool) (s : State) : State :=
  if s.rng.mode ≠ .unseeded ∨ !s.rng.testing then s
  else
    let bad := failing samples
    if bad = 0 ∧ kat then
      let cause := match s.rng.cause with | .power => 0 | .warmRestart => 3 | .zeroization => 4
      let s := firstSeeding samples (s.updRng (fun g => { g with katFail := false }))
      postEntropyReady cause 0 (becomeReady samples s)
    else
      let first := !s.rng.posted
      let s := s.updRng (fun g => { g with katFail := !kat, srcFail := bad, failures := satAdd g.failures 1, testing := false,
                                           posted := true })
      if first then postEntropyFail 3 0 s else s

/-- The end of a retest (R317). -/
def retestDone (samples : List Bytes) (kat : Bool) (s : State) : State :=
  if s.rng.mode ≠ .retesting then s
  else
    let bad := failing samples
    let manual := s.rng.retest
    if bad = 0 ∧ kat then
      let s := s.updRng (fun g => { g with katFail := false })
      postEntropyReady (if manual then 2 else 1) ((s.time.ptime.toNat - s.rng.failedAt) / 1000000) (becomeReady samples s)
    else
      let s := s.updRng (fun g => { g with mode := .failed, katFail := !kat, srcFail := bad, failures := satAdd g.failures 1,
                                           retest := false, retriesLeft := if manual then g.retriesLeft else g.retriesLeft - 1 })
      postEntropyFail 4 0 s

/-- RNG_STARTUP_REPEAT: 10 ms after a failed start-up test it runs again (R312). -/
def execRngStartupRepeat (s : State) : Host.Outcome State Fault Refusal :=
  .next (if s.rng.mode = .unseeded ∧ s.rng.posted then s.updRng (fun g => { g with testing := true }) else s)

/-- HEALTH_TEST_FAIL of a source's continuous test (R313, R316). -/
def execHealthTestFail (source : Nat) (adaptive : Bool) (s : State) : Host.Outcome State Fault Refusal :=
  .next (if s.rng.mode = .ready then healthFail source adaptive s else s)

/-- RNG_RETEST_TIMER: an automatic retest starts (R317). -/
def execRngRetestTimer (s : State) : Host.Outcome State Fault Refusal :=
  .next (if s.rng.mode = .failed ∧ s.rng.retriesLeft ≠ 0 then s.updRng (fun g => { g with mode := .retesting }) else s)

/-- A write of RNG_CTRL with RETEST (R317). -/
def writeRetest (s : State) : State :=
  if s.rng.mode = .failed then s.updRng (fun g => { g with mode := .retesting, retest := true }) else s

/-- RNG_RETEST. -/
def execRngRetest (s : State) : Host.Outcome State Fault Refusal := .next (atBar writeRetest s)

/-- RNG_RETEST_DONE. -/
def execRngRetestDone (samples : List Bytes) (kat : Bool) (s : State) : Host.Outcome State Fault Refusal :=
  .next (retestDone samples kat s)

/-- The first source whose samples of two consecutive conditioning blocks fail the repetition count test (R311, R313); 256 samples end
no window of the adaptive proportion test. -/
def freshFails (fresh0 fresh1 : Bytes) : Option Nat :=
  (List.range 8).find? (fun k => repetitionFails (samplesOf (slice fresh0 (16 * k) 16 ++ slice fresh1 (16 * k) 16)))

/-- A reseed from two fresh conditioning blocks (R314): samples that fail their test enter no block, and the failure ends the reseed
(R311, R313, R323). -/
def reseedOp (fresh0 fresh1 : Bytes) (s : State) : State :=
  match freshFails fresh0 fresh1 with
  | some source => healthFail source false s
  | none =>
    s.updRng (fun g => { g with
      drbg := drbgReseed g.drbg (sha256 fresh0 ++ sha256 fresh1),
      seededAt := s.time.ptime.toNat, served := 0, reseedDue := false, reseed := false, reseeds := satAdd g.reseeds 1 })

/-- RNG_RESEED: a write of RNG_CTRL with RESEED, and the reseed it causes in READY (R314). -/
def execRngReseed (fresh0 fresh1 : Bytes) (s : State) : Host.Outcome State Fault Refusal :=
  .next (atBar (fun s => if s.rng.mode = .ready then reseedOp fresh0 fresh1 s else s) s)

/-- A reseed is due (R314). -/
def State.reseedDue (s : State) : Bool :=
  s.rng.reseedDue || decide (s.rng.served ≥ 2 ^ 20) || decide (s.time.ptime.toNat ≥ s.rng.seededAt + 1000000000)

/-- DRBG_RESEED_DUE: the due reseed runs (R314). -/
def execDrbgReseedDue (fresh0 fresh1 : Bytes) (s : State) : Host.Outcome State Fault Refusal :=
  .next (if s.rng.mode = .ready ∧ s.reseedDue then reseedOp fresh0 fresh1 s else s)

/-- The waiting request that is served next: lowest level, earliest arrival (R318). -/
def Rng.nextRequest (g : Rng) : Option RngRequest :=
  g.waiting.foldl (fun (m : Option RngRequest) q => match m with
    | none => some q
    | some p => if q.level < p.level then some q else some p) none

/-- What a served request's bytes are used for once all of them are there. -/
def deliver (q : RngRequest) (s : State) : State :=
  match q.consumer with
  | .command _ | .item _ _ => s
  | .enrol => installEnrol q.got (s.updRng (fun g => { g with requests := g.requests.filter (fun p => p.consumer ≠ .enrol) }))
  | .pool i =>
    s.updRng (fun g => { g with requests := g.requests.filter (fun p => p.consumer ≠ .pool i),
                                pools := g.pools.modify i (fun l => l ++ chunks 16 256 q.got) })

/-- One generate request of at most 65 536 bytes, or of the consumer's own draw (R309, R318); a stream whose values were rejected asks for
more bytes at once (R247). -/
def generate (s : State) : State :=
  match s.rng.nextRequest with
  | none => s
  | some q =>
    let n := min q.left q.piece
    let got := q.got ++ drbgOutput s.rng.drbg n
    let q' := { q with left := if q.left ≤ n then q.lacks got else q.left - n, got := got }
    let s := s.updRng (fun g => { g with
      drbg := drbgNext g.drbg n, served := g.served + 1, generates := satAdd g.generates 1
      requests := g.requests.map (fun p => if p.consumer = q.consumer then q' else p) })
    if q'.left = 0 then deliver q' s else s

/-- DRBG_GENERATE: a READY generator with no reseed due serves the next request (R314, R318). -/
def execDrbgGenerate (s : State) : Host.Outcome State Fault Refusal :=
  .next (if s.rng.mode = .ready ∧ !s.reseedDue then generate s else s)

/-- RNG_STATUS as it reads. -/
def Rng.status (g : Rng) : Word64 :=
  placeN 0 2 (match g.mode with | .unseeded => 0 | .ready => 1 | .failed => 2 | .retesting => 3) ||| placeB 2 g.bootSeeded
  ||| placeB 3 g.katFail ||| place 4 g.srcFail ||| place 12 g.retriesLeft ||| placeN 32 16 (min g.waiting.length 0xFFFF)

/-- RNG_COUNTS as it reads, coarsened (R421). -/
def State.rngCounts (s : State) : Word64 :=
  place 0 s.rng.failures ||| place 16 (s.coarse s.rng.reseeds) ||| place 32 (s.coarse s.rng.generates)

/-- RNG_COUNTS_READ clears RESEEDS and GENERATES (R321). -/
def execRngCountsRead (half : Half) (s : State) : Host.Outcome State Fault Refusal :=
  .next (rcRead half State.rngCounts (fun s => s.updRng (fun g => { g with reseeds := 0 }))
    (fun s => s.updRng (fun g => { g with generates := 0 })) s)

/-! ## GET_RANDOM (R321) -/

/-- Seals an output under K_DLV with an ASCII tag and the trailer's counter (R321, R415). -/
def sealForTenant (s : State) (tag : String) (c : Cmd) (m : Bytes) : Bytes :=
  if s.trust.tenant.isSome then gcmSeal (s.using .delivery) (ascii tag ++ toLE 8 c.counter) (slateInline c.slate) m else m

/-- GET_RANDOM. -/
def opGetRandom (cid : Nat) (c : Cmd) (s : State) : Verdict :=
  let n := c.inl 16 4
  let total := if c.auth then n + 16 else n
  let d := outAt c.slate 32 true
  checks (outChecks c.slate 32 0
      ++ ([(1 ≤ n ∧ n ≤ 65536, inlineAt 16), resInline c 20 12] : List Check)) <|
    if total > d.len then .refuse .badParam (inlineAt 8) total
    else withRandom cid 4 n (fun r s =>
      writeOut d (inlineAt 8) (if c.auth then sealForTenant s "RAND" c r else r) (ok total) s) s

/-- GET_RANDOM. -/
def execGetRandom (cid : Nat) (s : State) : Host.Outcome State Fault Refusal := .next (runRow .getRandom opGetRandom cid s)

end Sys2Proof.Machine
end

