-- ==== Sys2Proof/Machine/Collector.lean ====
section
/-! DEFINITION. The counter collector: slots, samples, dailies and the trace buffer (R412 to R421, R424, R425). -/

namespace Sys2Proof.Machine

open Sys2Proof

/-- Changes the collector. -/
def State.updCounters (s : State) (f : Counters → Counters) : State := { s with counters := f s.counters }

/-! ## Event numbers (R413) -/

/-- Events of each source class, from 0 up, and its instances. -/
def countedEvents : Nat → Nat × Nat
  | 0x01 => (13, 36) | 0x02 => (10, 8) | 0x03 => (4, 8) | 0x04 => (4, 8) | 0x05 => (6, 5) | 0x07 => (2, 1) | 0x08 => (5, 5)
  | 0x09 => (2, 1) | 0x0A => (6, 1) | 0x0B => (2, 4) | 0x0C => (2, 64) | _ => (0, 0)

/-- The device counts an event of this number. -/
def knownEvent (e : Nat) : Bool := decide (e % 256 < (countedEvents (e / 256)).1)

/-- The event belongs to one job: marked J. -/
def jobEvent (e : Nat) : Bool :=
  knownEvent e && (match e / 256 with
    | 0x01 => e != 0x0108 && e != 0x010B
    | 0x02 => decide (0x0206 ≤ e ∧ e ≤ 0x0208)
    | 0x05 => true
    | _ => false)

/-! ## Counting and sampling (R412, R416) -/

/-- PERIOD as it takes effect: rounded up to a multiple of 2^COUNTER_K under COUNTERS (R416). -/
def State.samplePeriod (s : State) (p : Word32) : Nat :=
  if s.coarsens 2 then (p.toNat + 2 ^ s.counterK - 1) / 2 ^ s.counterK * 2 ^ s.counterK else p.toNat

/-- A slot adds an increment (R412): modulo 2^48, with its OVF bit at a wrap, and its sample counter runs (R416). -/
def CounterSlot.add (k : CounterSlot) (n period : Nat) : CounterSlot :=
  let v := k.value.toNat + n
  let k := { k with value := BitVec.ofNat 48 v, ovf := k.ovf || decide (2 ^ 48 ≤ v) }
  if !k.sample then k else if k.left ≤ n then { k with left := period, due := k.due + 1 } else { k with left := k.left - n }

/-- A slot matches an increment of an event, an instance and a job (0xFF for none). -/
def CounterSlot.matches (k : CounterSlot) (event inst job : Nat) : Bool :=
  k.enable && k.event.toNat == event && (k.inst == 0xFF || k.inst.toNat == inst)
    && (k.job == 0xFF || (jobEvent event && k.job.toNat == job))

/-- COUNTER_INCREMENT: the collector adds an increment to every matching slot (R412). -/
def execCounterIncrement (event inst job n : Nat) (s : State) : Host.Outcome State Fault Refusal :=
  .next (s.updCounters (fun c => { c with slots := c.slots.map (fun k =>
    if k.matches event inst job then k.add n (s.samplePeriod k.period) else k) }))

/-- SAMPLE_REQUEST: a slot whose sample counter passed zero gets its source's state, as a trace record and an event (R416). -/
def execSampleRequest (slot inst job skid station core seq : Nat) (s : State) : Host.Outcome State Fault Refusal :=
  .next (
    let k := unit s.counters.slots slot
    if k.due = 0 then s
    else
      let hide := s.coarsens 2
      let seq := if hide then 0 else seq
      let s := s.updCounters (fun c => { c with slots := c.slots.modify slot (fun k => { k with due := k.due - 1 }),
                                                samples := c.samples + 1 })
      let head := toLE 2 slot ++ toLE 2 k.event.toNat ++ toLE 2 skid ++ [BitVec.ofNat 8 station, BitVec.ofNat 8 core]
      let s := addTrace 7 (BitVec.ofNat 8 job) 0xFF (256 * (k.event.toNat / 256) + inst)
        (fieldOf (k.event.toNat / 256) inst) (head ++ toLE 8 seq) s
      let shown := s.coarseN s.counters.samples
      let fresh := (window? s.reel .counterSample 0x0F 0).isNone
      let s := postFor .counterSample 0x0F 0 (BitVec.ofNat 8 job) nobody (head ++ toLE 4 shown ++ zeros 4 ++ toLE 8 seq) hide none s
      if fresh then s.updCounters (fun c => { c with samples := 0 }) else s)

/-! ## CNT_CONFIGURE and CNT_READ (R414, R415) -/

/-- One entry of CNT_CONFIGURE is well formed. -/
def slotEntryOk (e : Bytes) : Bool :=
  let ev := leAt e 2 2
  decide (leAt e 0 2 < 256) && knownEvent ev && (byteAt e 4 == 0xFF || decide (byteAt e 4 < (countedEvents (ev / 256)).2))
    && (byteAt e 5 == 0xFF || (decide (byteAt e 5 < 16) && jobEvent ev)) && decide (byteAt e 6 < 8) && byteAt e 7 == 0
    && ((byteAt e 6).testBit 1 == (leAt e 8 4 != 0)) && zeroAt e 12 4

/-- The first entry that is wrong, or names a slot that an earlier one names. -/
def badSlotEntry (es : List Bytes) : Option Nat :=
  (List.range es.length).find? (fun i =>
    !slotEntryOk (unit es i) || (es.take i).any (fun e => leAt e 0 2 == leAt (unit es i) 0 2))

/-- An entry takes effect. -/
def applySlotEntry (s : State) (e : Bytes) : State :=
  s.updCounters (fun c => { c with slots := c.slots.modify (leAt e 0 2) (fun k =>
    let clear := (byteAt e 6).testBit 2
    { event := BitVec.ofNat 16 (leAt e 2 2), inst := BitVec.ofNat 8 (byteAt e 4), job := BitVec.ofNat 8 (byteAt e 5)
      enable := (byteAt e 6).testBit 0, sample := (byteAt e 6).testBit 1, period := BitVec.ofNat 32 (leAt e 8 4)
      left := s.samplePeriod (BitVec.ofNat 32 (leAt e 8 4)), due := 0
      value := if clear then 0 else k.value, ovf := if clear then false else k.ovf }) })

/-- CNT_CONFIGURE (R414). -/
def opCntConfigure (_ : Nat) (c : Cmd) (s : State) : Verdict :=
  if !c.inlZero 0 32 then badList
  else withScatter c 0 (fun ps used =>
    let total := piecesLen ps
    if c.body.length ≠ used ∨ total % 16 ≠ 0 ∨ total = 0 ∨ 4096 < total then badList
    else withInput c 0 (fun input =>
      let es := chunks 16 256 input
      match badSlotEntry es with
      | some i => .refuse .badParam i 0
      | none => ok 0 ((es.foldl applySlotEntry s).updCounters (fun c => { c with cfgGen := c.cfgGen + 1 }))))

/-- CNT_CONFIGURE. -/
def execCntConfigure (cid : Nat) (s : State) : Host.Outcome State Fault Refusal :=
  .next (runRow .cntConfigure opCntConfigure cid s)

/-- One slot as CNT_READ writes it; `exact_` for the authenticated form. -/
def slotRecord (s : State) (exact_ : Bool) (k : CounterSlot) : Bytes :=
  let v := if exact_ then k.value.toNat else s.coarseN k.value.toNat
  let flags := bitsOf 4 (fun i => match i with | 0 => k.ovf | 1 => k.enable | 2 => !exact_ && s.coarsens 2 | _ => k.sample)
  toLE 2 k.event.toNat ++ [BitVec.ofNat 8 k.inst.toNat, BitVec.ofNat 8 k.job.toNat, BitVec.ofNat 8 flags] ++ zeros 3
    ++ toLE 8 v

/-- CNT_READ (R415). -/
def opCntRead (_ : Nat) (c : Cmd) (s : State) : Verdict :=
  let first := c.inl 16 2
  let count := c.inl 18 2
  let d := outAt c.slate 32 false
  checks (outChecks c.slate 32 0
      ++ ([(first < 256, inlineAt 16), (1 ≤ count ∧ first + count ≤ 256, inlineAt 18), resInline c 20 12] : List Check)) <|
    let m := ((s.counters.slots.drop first).take count).map (slotRecord s c.auth) |>.flatten
    let m := if c.auth then sealForTenant s "CNTR" c m else m
    writeOut d (inlineAt 8) m (ok m.length) s

/-- CNT_READ. -/
def execCntRead (cid : Nat) (s : State) : Host.Outcome State Fault Refusal := .next (runRow .cntRead opCntRead cid s)

/-! ## Dailies (R417, R418) -/

/-- DAILIES_CONFIGURE (R417). -/
def opDailiesConfigure (_ : Nat) (c : Cmd) (s : State) : Verdict :=
  checks [(c.inl 0 1 ≤ 1, inlineAt 0), (4 ≤ c.inl 1 1 ∧ c.inl 1 1 ≤ 12, inlineAt 1), resInline c 2 2,
      (10 ≤ c.inl 4 4 ∧ c.inl 4 4 ≤ 60000, inlineAt 4), (c.inl 8 8 % 4096 = 0, inlineAt 8), resInline c 16 16] <|
    ok 0 (s.updCounters (fun k =>
      let k := { k with log2 := c.inl 1 1, periodMs := c.inl 4 4, base := c.inl 8 8, dailies := c.inl 0 1 == 1, snapshot := none }
      if c.inl 0 1 = 1 then { k with tail := 0, head := 0, phase := true, dseq := 0, missedRec := 0 } else k))

/-- DAILIES_CONFIGURE. -/
def execDailiesConfigure (cid : Nat) (s : State) : Host.Outcome State Fault Refusal :=
  .next (runRow .dailiesConfigure opDailiesConfigure cid s)

/-- A snapshot is missed: replaced or discarded (R418). -/
def missSnapshot (c : Counters) : Counters := { c with missed := satAdd c.missed 1, missedRec := c.missedRec + 1 }

/-- A slot of a snapshot: value, OVF and ENABLED. -/
def State.snapSlot (s : State) (k : CounterSlot) : Word64 := placeN 0 48 (s.coarseN k.value.toNat) ||| placeB 48 k.ovf ||| placeB 49 k.enable

/-- DAILIES_LATCH: every PERIOD_MS all slots are latched; an unwritten snapshot is replaced (R418). -/
def execDailiesLatch (s : State) : Host.Outcome State Fault Refusal :=
  .next (if !s.counters.dailies then s
    else s.updCounters (fun c =>
      let c := if c.snapshot.isSome then missSnapshot c else c
      { c with dseq := c.dseq + 1, snapshot := some { cfgGen := c.cfgGen, dseq := c.dseq, ptime := s.mirror 2,
                                                      coarsened := s.coarsens 2, slots := c.slots.map s.snapSlot } }))

/-- The 2 112 bytes of a dailies record. -/
def dailiesBytes (c : Counters) (n : Snapshot) : Bytes :=
  ascii "LNDY" ++ [1, (if c.phase then 1 else 0) ||| (if n.coarsened then 2 else 0), 0, 0] ++ toLE 4 n.cfgGen.toNat
    ++ toLE 4 c.missedRec ++ toLE 8 n.dseq.toNat ++ toLE 8 n.ptime.toNat ++ zeros 32
    ++ (n.slots.map (fun v => toLE 8 v.toNat)).flatten

/-- Free dailies entries: (HEAD − TAIL − 1) mod size. -/
def Counters.dailiesFree (c : Counters) : Nat := (c.head.toNat + 2 ^ 13 - c.tail.toNat - 1) % 2 ^ c.log2

/-- DAILIES_RECORD_WRITE: the latched snapshot is written when an entry is free, and discarded otherwise (R418). -/
def execDailiesRecordWrite (s : State) : Host.Outcome State Fault Refusal :=
  .next (match s.counters.snapshot with
    | none => s
    | some n =>
      let c := s.counters
      if c.dailiesFree = 0 then s.updCounters (fun c => missSnapshot { c with snapshot := none })
      else if !s.shuttleOpen then s
      else
        let t := c.tail.toNat
        let s := hostWrite (c.base + 4096 * t) (dailiesBytes c n) true s
        let t' := (t + 1) % 2 ^ c.log2
        let s := s.updCounters (fun c => { c with tail := BitVec.ofNat 12 t', phase := if t' = 0 then !c.phase else c.phase,
                                                  snapshot := none, missedRec := 0 })
        post .dailiesWritten 0x0F 0 nobody nobody (toLE 8 n.dseq.toNat ++ toLE 2 t ++ zeros 2 ++ toLE 4 c.missedRec) s)

/-- CNT_DAILIES_HEAD_WRITE returns entries (R418). -/
def execCntDailiesHeadWrite (value : Word32) (s : State) : Host.Outcome State Fault Refusal :=
  .next (atBar (fun s => s.updCounters (fun c => { c with head := BitVec.ofNat 12 value.toNat })) s)

/-! ## The trace buffer (R419, R420) -/

/-- TRACE_CONFIGURE (R419). -/
def opTraceConfigure (_ : Nat) (c : Cmd) (s : State) : Verdict :=
  checks [(c.inl 0 1 ≤ 2, inlineAt 0), resInline c 1 3, (c.inl 4 2 &&& 0xFC01 = 0, inlineAt 4), resInline c 6 26] <|
    ok 0 (s.updCounters (fun k => { k with traceMode := c.inl 0 1, kinds := BitVec.ofNat 16 (c.inl 4 2) }))

/-- TRACE_CONFIGURE. -/
def execTraceConfigure (cid : Nat) (s : State) : Host.Outcome State Fault Refusal :=
  .next (runRow .traceConfigure opTraceConfigure cid s)

/-- The 32 bytes of a trace record. -/
def TraceRec.bytes (r : TraceRec) : Bytes :=
  [BitVec.ofNat 8 r.kind, r.job, r.group, 0] ++ toLE 2 r.source ++ zeros 2 ++ toLE 8 r.ptime.toNat ++ fitBytes 16 r.arg

/-- TRACE_READ (R420). -/
def opTraceRead (_ : Nat) (c : Cmd) (s : State) : Verdict :=
  checks (outChecks c.slate 32 0 ++ [resInline c 16 16]) <|
    let d := outAt c.slate 32 true
    let n := min (d.len / 32) s.counters.trace.length
    let m := ((s.counters.trace.take n).map TraceRec.bytes).flatten
    writeOut d (inlineAt 8) m (fun s => ok m.length (s.updCounters (fun k => { k with trace := k.trace.drop n }))) s

/-- TRACE_READ. -/
def execTraceRead (cid : Nat) (s : State) : Host.Outcome State Fault Refusal := .next (runRow .traceRead opTraceRead cid s)

/-! ## Registers (R424) -/

/-- CNT_STATUS as it reads. -/
def Counters.status (c : Counters) : Word64 :=
  placeN 0 9 (c.slots.filter (·.enable)).length ||| placeB 9 (c.traceMode != 0)
  ||| placeB 10 (c.traceMode == 2 && decide (traceCapacity ≤ c.trace.length)) ||| placeB 11 c.dailies ||| place 16 c.cfgGen

/-- CNT_OVF[i] as it reads. -/
def Counters.ovf (c : Counters) (i : Nat) : Word64 := BitVec.ofNat 64 (bitsOf 64 (fun k => (unit c.slots (64 * i + k)).ovf))

/-- A write of CNT_OVF[i]: the bits written 1 clear. -/
def Counters.clearOvf (c : Counters) (i : Nat) (m v : Word64) : Counters :=
  { c with slots := c.slots.mapIdx (fun k (x : CounterSlot) =>
      if k / 64 = i then { x with ovf := w1cFlag m v (k % 64) x.ovf } else x) }

/-- CNT_DAILIES_STATUS as it reads. -/
def Counters.dailiesStatus (c : Counters) : Word64 := place 0 c.tail ||| placeB 12 c.phase ||| place 32 c.missed

/-- CNT_TRACE_STATUS as it reads. -/
def Counters.traceStatus (c : Counters) : Word64 := placeN 0 18 c.trace.length ||| place 32 c.dropped

/-- CNT_DAILIES_STATUS_READ clears MISSED. -/
def execCntDailiesStatusRead (half : Half) (s : State) : Host.Outcome State Fault Refusal :=
  .next (rcRead half (·.counters.dailiesStatus) id (fun s => s.updCounters (fun c => { c with missed := 0 })) s)

/-- CNT_TRACE_STATUS_READ clears DROPPED. -/
def execCntTraceStatusRead (half : Half) (s : State) : Host.Outcome State Fault Refusal :=
  .next (rcRead half (·.counters.traceStatus) id (fun s => s.updCounters (fun c => { c with dropped := 0 })) s)

/-- CNT_DENIED_READ clears LINES. -/
def execCntDeniedRead (half : Half) (s : State) : Host.Outcome State Fault Refusal :=
  .next (rcRead half (fun s => place 0 s.counters.denied) (fun s => s.updCounters (fun c => { c with denied := 0 })) id s)

end Sys2Proof.Machine
end

