-- ==== Sys2Proof/Machine/Float.lean ====
section
/-! DEFINITION. IEEE 754 arithmetic as the manual needs it: binary64 operations correctly rounded to nearest with ties to even, and the
conversions to and from the smaller formats (R167, R171, R267). -/

namespace Sys2Proof.Machine

open Sys2Proof

/-- A floating-point format: stored mantissa bits and exponent bits. -/
structure FloatFmt where
  mant : Nat
  exp : Nat
  deriving DecidableEq, Repr, Inhabited

/-- binary64. -/
def f64 : FloatFmt := ⟨52, 11⟩
/-- binary32. -/
def f32 : FloatFmt := ⟨23, 8⟩
/-- binary16. -/
def f16 : FloatFmt := ⟨10, 5⟩
/-- bfloat16. -/
def bf16 : FloatFmt := ⟨7, 8⟩

/-- A value: `fin` is ±n·2^e. -/
inductive Fp where
  | nan
  | inf (neg : Bool)
  | fin (neg : Bool) (n : Nat) (e : Int)
  deriving DecidableEq, Repr, Inhabited

/-- Exponent bias. -/
def FloatFmt.bias (f : FloatFmt) : Int := 2 ^ (f.exp - 1) - 1

/-- Exponent of the smallest subnormal. -/
def FloatFmt.low (f : FloatFmt) : Int := 1 - f.bias - f.mant

/-- The value that bits of a format spell. -/
def Fp.decode (f : FloatFmt) (bits : Nat) : Fp :=
  let m := bits % 2 ^ f.mant
  let x := bits / 2 ^ f.mant % 2 ^ f.exp
  let neg := (bits / 2 ^ (f.mant + f.exp)) % 2 == 1
  if x = 2 ^ f.exp - 1 then (if m = 0 then .inf neg else .nan)
  else if x = 0 then .fin neg m f.low
  else .fin neg (m + 2 ^ f.mant) (f.low + (x - 1 : Int))

/-- Bits of an infinity. -/
def FloatFmt.infBits (f : FloatFmt) (neg : Bool) : Nat :=
  (2 ^ f.exp - 1) * 2 ^ f.mant + (if neg then 2 ^ (f.mant + f.exp) else 0)

/-- Bits of the quiet NaN that operations return. -/
def FloatFmt.nanBits (f : FloatFmt) : Nat := (2 ^ f.exp - 1) * 2 ^ f.mant + 2 ^ (f.mant - 1)

/-- Rounds n·2^e, with `sticky` for a positive rest below its last bit, to nearest with ties to even. -/
def FloatFmt.round (f : FloatFmt) (neg : Bool) (n : Nat) (e : Int) (sticky : Bool) : Nat :=
  let sign := if neg then 2 ^ (f.mant + f.exp) else 0
  if n = 0 then sign
  else
    let u := max (e + (n.log2 + 1 : Nat) - (f.mant + 1 : Nat)) f.low
    let q := if u ≤ e then n * 2 ^ (e - u).toNat
      else
        let k := (u - e).toNat
        let q := n / 2 ^ k
        let r := n % 2 ^ k
        let half := 2 ^ (k - 1)
        if r > half ∨ (r = half ∧ (sticky ∨ q % 2 = 1)) then q + 1 else q
    let bits := if q < 2 ^ f.mant then q else ((u - f.low).toNat + 1) * 2 ^ f.mant + (q - 2 ^ f.mant)
    if bits ≥ (2 ^ f.exp - 1) * 2 ^ f.mant then f.infBits neg else sign + bits

/-- The bits of a value in a format. -/
def Fp.encode (f : FloatFmt) : Fp → Nat
  | .nan => f.nanBits
  | .inf neg => f.infBits neg
  | .fin neg n e => f.round neg n e false

/-- The exact signed integer ±n·2^(e − lo), for lo at most e. -/
def scaledInt (neg : Bool) (n : Nat) (e lo : Int) : Int :=
  let v : Int := n * 2 ^ (e - lo).toNat
  if neg then -v else v

/-- Sum. -/
def Fp.add (f : FloatFmt) : Fp → Fp → Nat
  | .nan, _ => f.nanBits
  | _, .nan => f.nanBits
  | .inf a, .inf b => if a = b then f.infBits a else f.nanBits
  | .inf a, _ => f.infBits a
  | _, .inf b => f.infBits b
  | .fin a n e, .fin b m g =>
    let lo := min e g
    let v := scaledInt a n e lo + scaledInt b m g lo
    if v = 0 then f.round (a && b) 0 0 false else f.round (decide (v < 0)) v.natAbs lo false

/-- The value with its sign changed. -/
def Fp.neg : Fp → Fp
  | .nan => .nan
  | .inf a => .inf (!a)
  | .fin a n e => .fin (!a) n e

/-- Product. -/
def Fp.mul (f : FloatFmt) : Fp → Fp → Nat
  | .nan, _ => f.nanBits
  | _, .nan => f.nanBits
  | .inf a, .inf b => f.infBits (a != b)
  | .inf a, .fin b m _ => if m = 0 then f.nanBits else f.infBits (a != b)
  | .fin a n _, .inf b => if n = 0 then f.nanBits else f.infBits (a != b)
  | .fin a n e, .fin b m g => f.round (a != b) (n * m) (e + g) false

/-- Quotient. -/
def Fp.div (f : FloatFmt) : Fp → Fp → Nat
  | .nan, _ => f.nanBits
  | _, .nan => f.nanBits
  | .inf _, .inf _ => f.nanBits
  | .inf a, .fin b _ _ => f.infBits (a != b)
  | .fin a _ _, .inf b => f.round (a != b) 0 0 false
  | .fin a n e, .fin b m g =>
    if m = 0 then (if n = 0 then f.nanBits else f.infBits (a != b))
    else
      let k := f.mant + 3 + m.log2 + 1
      let x := n * 2 ^ k
      f.round (a != b) (x / m) (e - g - k) (x % m != 0)

/-- The largest r below 2^bits with r² ≤ n. -/
def isqrt (n : Nat) : Nat → Nat → Nat
  | 0, acc => acc
  | b + 1, acc => if (acc + 2 ^ b) * (acc + 2 ^ b) ≤ n then isqrt n b (acc + 2 ^ b) else isqrt n b acc

/-- Square root. -/
def Fp.sqrt (f : FloatFmt) : Fp → Nat
  | .nan => f.nanBits
  | .inf a => if a then f.nanBits else f.infBits false
  | .fin a n e =>
    if n = 0 then f.round a 0 0 false
    else if a then f.nanBits
    else
      let k := 2 * (f.mant + 3) + (if e % 2 = 0 then 0 else 1)
      let x := n * 2 ^ k
      let r := isqrt x (x.log2 / 2 + 2) 0
      f.round false r ((e - k) / 2) (r * r != x)

/-- Rounds n / 2^k to the nearest integer, ties to even. -/
def rheShift (n : Int) (k : Nat) : Int :=
  let q := n.fdiv (2 ^ k)
  let r := n.fmod (2 ^ k)
  if 2 * r > 2 ^ k ∨ (2 * r = 2 ^ k ∧ q % 2 ≠ 0) then q + 1 else q

/-- RHE of ±n·2^e. -/
def Fp.rhe : Fp → Int
  | .fin a n e => if e ≥ 0 then scaledInt a n e 0 else rheShift (if a then -(n : Int) else n) (-e).toNat
  | _ => 0

/-- Multiplies by a power of two, exactly. -/
def Fp.scale (k : Int) : Fp → Fp
  | .fin a n e => .fin a n (e + k)
  | x => x

/-- Is it a finite value? -/
def Fp.finite : Fp → Bool
  | .fin _ _ _ => true
  | _ => false

/-- x ≤ y for finite values. -/
def Fp.le : Fp → Fp → Bool
  | .fin a n e, .fin b m g => let lo := min e g; decide (scaledInt a n e lo ≤ scaledInt b m g lo)
  | _, .inf false => true
  | .inf true, _ => true
  | _, _ => false

/-! ## binary64 on register values -/

/-- The value of a binary64. -/
def dec64 (x : Word64) : Fp := Fp.decode f64 x.toNat
/-- x + y. -/
def fadd (x y : Word64) : Word64 := BitVec.ofNat 64 (Fp.add f64 (dec64 x) (dec64 y))
/-- x − y. -/
def fsub (x y : Word64) : Word64 := BitVec.ofNat 64 (Fp.add f64 (dec64 x) (dec64 y).neg)
/-- x × y. -/
def fmul (x y : Word64) : Word64 := BitVec.ofNat 64 (Fp.mul f64 (dec64 x) (dec64 y))
/-- x / y. -/
def fdiv (x y : Word64) : Word64 := BitVec.ofNat 64 (Fp.div f64 (dec64 x) (dec64 y))
/-- √x. -/
def fsqrt (x : Word64) : Word64 := BitVec.ofNat 64 (Fp.sqrt f64 (dec64 x))
/-- An integer rounded to binary64. -/
def fint (n : Int) : Word64 := BitVec.ofNat 64 (f64.round (decide (n < 0)) n.natAbs 0 false)
/-- n × 2^k rounded to binary64. -/
def fscaled (n k : Int) : Word64 := BitVec.ofNat 64 (f64.round (decide (n < 0)) n.natAbs k false)
/-- +0 and 1. -/
def fzero : Word64 := 0
/-- 1. -/
def fone : Word64 := 0x3FF0000000000000
/-- A binary32 as binary64, exactly. -/
def f32to64 (x : Word32) : Word64 := BitVec.ofNat 64 ((Fp.decode f32 x.toNat).encode f64)
/-- A binary64 rounded once to binary32. -/
def f64to32 (x : Word64) : Word32 := BitVec.ofNat 32 ((dec64 x).encode f32)

end Sys2Proof.Machine
end

