-- ==== Sys2Proof/Machine/Wire.lean ====
section
/-! DEFINITION. The sending side of the transport: frames, packets, messages, regions, work requests and the commands that manage
them (R115 to R142, R387 to R390). -/

namespace Sys2Proof.Machine

open Sys2Proof

/-! ## Warp link frames (R387 to R389) -/

/-- A link frame: header, transport packet and LCRC. -/
def linkFrame (type : Nat) (lseq ack : Word32) (lcredit : Nat) (pkt : Bytes) : Bytes :=
  let m := [BitVec.ofNat 8 type, 0] ++ toBE 2 pkt.length ++ toBE 4 lseq.toNat ++ toBE 4 ack.toNat ++ toBE 2 lcredit ++ zeros 2 ++ pkt
  m ++ toBE 4 (crc32c m).toNat

/-- Link credit units of a frame that carries a packet of `n` bytes (R389). -/
def frameUnits (n : Nat) : Nat := (n + 20 + 255) / 256

/-- Bytes the replay buffer holds. -/
def Link.replayBytes (l : Link) : Nat := (l.replayBuf.map (fun e => e.2.length + 20)).sum

/-- Sends a frame of a type, returning the link credit that is due. -/
def sendFrame (i type : Nat) (lseq : Word32) (pkt : Bytes) (s : State) : State :=
  let l := s.link i
  emit (.linkFrame i (linkFrame type lseq l.expectLseq (min l.toReturn 65535) pkt))
    (s.updLink i (fun l => { l with toReturn := l.toReturn - min l.toReturn 65535 }))

/-- The packet at the front of a link's queue is sent when the link is up, its credit is held and the replay buffer has room. -/
def linkSendNext (i : Nat) (s : State) : State :=
  let l := s.link i
  match l.queue with
  | [] => s
  | p :: rest =>
    if l.up && decide (frameUnits p.length ≤ l.credit) && decide (l.replayBytes + p.length + 20 ≤ 262144) then
      sendFrame i 1 l.nextLseq p (s.updLink i (fun l => { l with
        queue := rest, credit := l.credit - frameUnits p.length, replayBuf := l.replayBuf ++ [(l.nextLseq, p)],
        nextLseq := l.nextLseq + 1 }))
    else s

/-- Sends what a link's queue may send. -/
def linkPump (i : Nat) (s : State) : State := (List.range (s.link i).queue.length).foldl (fun s _ => linkSendNext i s) s

/-! ## Packets (R117 to R122) -/

/-- Transport packets are handled: after DEVICE_READY, outside a warm restart and test hold (R142). -/
def State.transportRuns (s : State) : Bool := s.side.step == 11 && s.faults.warm.isNone && !s.side.testHold

/-- Port `i` may carry packets of an IP version. -/
def Port.carries (p : Port) (ipVer : Nat) : Bool := p.linkUp && p.inService && (if ipVer = 4 then p.ipv4En else p.ipv6En)

/-- A port's address in the 16-byte form of PEER_IP (R124). -/
def Port.ip (p : Port) (ipVer : Nat) : Bytes := if ipVer = 4 then zeros 12 ++ toBE 4 p.ipv4.toNat else toBE 16 p.ipv6.toNat

/-- The sum of big-endian 16-bit words, an odd last byte counting as the high half of one. -/
def wordSum (b : Bytes) : Nat := (b.mapIdx (fun i x => if i % 2 = 0 then 256 * x.toNat else x.toNat)).sum

/-- The UDP checksum over the pseudo-header, the UDP header and the payload, never zero as it is sent (R115). An IPv4 address stands in
16 bytes behind zeros, which add nothing. -/
def udpChecksum (p : Packet) (srcPort dstPort : Nat) : BitVec 16 :=
  let n := 8 + p.body.length
  BitVec.ofNat 16 (65535 - (wordSum p.srcIp + wordSum p.dstIp + 17 + 2 * n + srcPort + dstPort + wordSum p.body) % 65535)

/-- The 802.1Q tag of what a port sends (R115). -/
def Port.tag (p : Port) : Option (BitVec 12 × BitVec 3) := if p.vlanEn then some (p.vid, p.pcp) else none

/-- The frame that carries a packet of a PSN from a port: TTL or hop limit 64, DF on IPv4, Not-ECT, and a UDP checksum (R115, R117). -/
def Port.frame (p : Port) (psn : Nat) (k : Packet) : SentFrame :=
  let src := 49152 + psn % 16384
  { tag := p.tag, dscp := p.dscp, ecn := 0, hops := 64, dontFragment := k.ipVer == 4, srcPort := src, dstPort := 47300,
    checksum := udpChecksum k src 47300, packet := k }

/-- A packet leaves on a port for a peer. -/
def wireOut (i ipVer : Nat) (mac : BitVec 48) (ip : Bytes) (psn : Nat) (body : Bytes) (s : State) : State :=
  let p := s.port i
  emit (.packet i (p.frame psn
    { ipVer := ipVer, srcMac := p.mac, dstMac := mac, srcIp := p.ip ipVer, dstIp := ip, body := body })) s

/-- Ports that a connection may send on now (R142). -/
def State.upPorts (s : State) (c : Conn) : List Nat :=
  (List.range 8).filter (fun i => c.portMask.getLsbD i && (s.port i).carries c.ipVer)

/-- A connection's packet leaves on its link, or on one of its ports that are up: which one the manual leaves open. -/
def sendOn (c : Conn) (psn : Nat) (body : Bytes) (s : State) : State :=
  match c.link with
  | some l => linkPump l (s.updLink l (fun k => { k with queue := k.queue ++ [body] }))
  | none =>
    match s.upPorts c with
    | [] => s
    | [i] => wireOut i c.ipVer c.peerMac c.peerIp psn body s
    | ps =>
      let (v, s) := s.draw
      wireOut (ps.getD (v.toNat % ps.length) 0) c.ipVer c.peerMac c.peerIp psn body s

/-- The direction's key (R121): `out_` for what this device sends. -/
def Conn.key (c : Conn) (out_ : Bool) : Bytes := slice c.okm (if c.initiator == out_ then 0 else 32) 32

/-- The direction's IV for a PSN; ACK sets bit 63 (R121). -/
def Conn.iv (c : Conn) (out_ control : Bool) (psn : Nat) : Bytes :=
  slice c.okm (if c.initiator == out_ then 64 else 68) 4 ++ toBE 8 (if control then psn % 2 ^ 63 + 2 ^ 63 else psn % 2 ^ 63)

/-- The first 16 bytes of a transport header (R118). -/
def headStart (type flags dst src psn : Nat) : Bytes :=
  [1, BitVec.ofNat 8 type] ++ toBE 2 flags ++ toBE 2 dst ++ toBE 2 src ++ toBE 8 psn

/-- A sealed packet of a connection (R121, R390): header bytes 16 to 55 are `tail`. -/
def Conn.seal (c : Conn) (src type flags psn : Nat) (tail data : Bytes) : Bytes :=
  let h := headStart type (if c.windowMode then flags ||| 2 else flags) c.peerConn src psn ++ tail
  let iv := c.iv true (type == 0x10) psn
  if c.link.isSome then
    let ct := gcmCrypt (c.key true) iv data
    h ++ ct ++ gcmMac (c.key true) iv h ct
  else h ++ data ++ gcmMac (c.key true) iv (h ++ data) []

/-- The secret a connection's keys come from: TS, or K_WARP on a link (R121, R390). -/
def State.connSecret (s : State) (j : Nat) (link : Option Nat) : Bytes :=
  s.using (if link.isSome then .warp j else .transport j)

/-- K_HS (R122). -/
def hsKey (secret : Bytes) (j : Nat) : Bytes := hkdf secret [] (ascii "LN7300-HS" ++ [BitVec.ofNat 8 j])

/-- OKM (R121). -/
def connOkm (secret nonceI nonceR : Bytes) (j connI connR : Nat) : Bytes :=
  hkdfN 72 secret (nonceI ++ nonceR) (ascii "LN7300-CONN" ++ [BitVec.ofNat 8 j] ++ toBE 2 connI ++ toBE 2 connR)

/-- A handshake packet (R122): type, FLAGS, connection numbers, the 40 bytes from 16 on, and the nonce of its IV. -/
def handshake (key : Bytes) (type flags dst src : Nat) (tail nonce : Bytes) : Bytes :=
  let h := headStart type flags dst src 0 ++ tail
  h ++ gcmMac key (nonce.take 12) h []

/-- Bytes 16 to 55 of a handshake packet. -/
def handshakeTail (j field credit : Nat) (nonceI nonceR : Bytes) : Bytes :=
  [BitVec.ofNat 8 j, 0] ++ toBE 2 field ++ toBE 4 credit ++ fitBytes 16 nonceI ++ fitBytes 16 nonceR

/-! ## Sending data and acknowledgements (R119, R129 to R132) -/

/-- Credit units of a data-class packet (R130). -/
def txUnits (type len : Nat) : Nat := if type = 0x04 ∨ type = 0x07 ∨ type = 0x11 then 0 else max 1 ((len + 4095) / 4096)

/-- PSNs sent and not yet acknowledged stay below WINDOW in window mode (R132). -/
def Conn.windowOpen (c : Conn) : Bool :=
  !c.windowMode || decide (c.txPsn < ((c.unacked.head?.map (·.psn)).getD c.txPsn) + c.window)

/-- A new PSN may be sent for an item (R130, R132). -/
def Conn.maySend (c : Conn) (it : TxItem) : Bool :=
  c.windowOpen && (c.windowMode || decide (txUnits it.type it.data.length ≤ (c.txLimit - c.txSpent).toNat))

/-- The lateness of a receipt that is issued now (R161). -/
def noteLatency (start : Nat) (s : State) : State :=
  let us := (s.time.ptime.toNat - start) / 1000
  { s with ingest := { s.ingest with maxUs := satMax s.ingest.maxUs us,
                                     late := if 2000 < us then satAdd s.ingest.late 1 else s.ingest.late } }

/-- Sends an item with the next PSN; a receipt is issued with it (R161), and DISCONNECT's PSN is noted (R125). -/
def sendItem (n : Nat) (it : TxItem) (s : State) : State :=
  match s.conn? n with
  | none => s
  | some c =>
    let body := c.seal n it.type it.flags c.txPsn it.tail it.data
    let s := s.updConn n (fun c => { c with
      txPsn := c.txPsn + 1, txSpent := c.txSpent + BitVec.ofNat 32 (txUnits it.type it.data.length)
      unacked := c.unacked ++ [{ psn := c.txPsn, type := it.type, body := body, sacked := false }]
      discPsn := if it.type = 0x23 then some c.txPsn else c.discPsn })
    sendOn c c.txPsn body (match it.since with | none => s | some t => noteLatency t s)

/-- Sends what may be sent, in order; a packet that needs no credit passes those that wait for it. -/
def pump (n : Nat) (s : State) : State :=
  match s.conn? n with
  | none => s
  | some c =>
    let (s, keep, _) := c.txQueue.foldl (fun (a : State × List TxItem × Bool) it =>
      let free := txUnits it.type it.data.length == 0
      if (!a.2.2 || free) && ((a.1.conn? n).map (·.maySend it)).getD false then (sendItem n it a.1, a.2.1, a.2.2)
      else (a.1, a.2.1 ++ [it], a.2.2 || !free)) (s, [], false)
    s.updConn n (fun c => { c with txQueue := keep })

/-- Adds items to a connection's queue and sends what may be sent. -/
def enqueue (n : Nat) (items : List TxItem) (s : State) : State :=
  pump n (s.updConn n (fun c => { c with txQueue := c.txQueue ++ items }))

/-- Bytes 16 to 55 of a data packet (R118). -/
def dataTail (msgId rkey : Word32) (msgLen off raddr trig plen : Nat) : Bytes :=
  toBE 4 msgId.toNat ++ toBE 4 rkey.toNat ++ toBE 8 msgLen ++ toBE 8 off ++ toBE 8 raddr ++ toBE 2 trig ++ toBE 2 plen ++ zeros 4

/-- The packets of a message: 8 192 bytes each but for the last (R120). -/
def packetsOf (type flags : Nat) (msgId rkey : Word32) (raddr trig : Nat) (data : Bytes) : List TxItem :=
  (chunks 8192 (data.length / 8192 + 1) data).mapIdx (fun i d =>
    { type := type, flags := flags, tail := dataTail msgId rkey data.length (8192 * i) raddr trig d.length, data := d,
      since := none })

/-- Takes a connection's next MSG_ID. -/
def takeMsgId (n : Nat) (s : State) : Word32 × State :=
  (((s.conn? n).map (·.txMsg)).getD 0, s.updConn n (fun c => { c with txMsg := c.txMsg + 1 }))

/-- Sends a message of no work request with the next MSG_ID: FLAGS bit 0 is TRIGGER; a receipt carries its start point. -/
def sendMsg (n type : Nat) (trigger since : Option Nat) (rkey : Word32) (raddr : Nat) (data : Bytes) (s : State) : State :=
  let (m, s) := takeMsgId n s
  let s := s.updConn n (fun c => { c with posted := c.posted ++ [(m, rkey, raddr)] })
  enqueue n ((packetsOf type (if trigger.isSome then 1 else 0) m rkey raddr (trigger.getD 0) data).map
    (fun it => { it with since := since })) s

/-- Sends a NAK (R129). -/
def sendNak (n : Nat) (msgId : Word32) (status retryUs : Nat) (s : State) : State :=
  enqueue n [{ type := 0x11, flags := 0, tail := toBE 4 msgId.toNat ++ toBE 2 status ++ zeros 2 ++ toBE 4 retryUs ++ zeros 28,
               data := [], since := none }] s

/-- Sends an ACK (R129). -/
def sendAck (n : Nat) (s : State) : State :=
  match s.conn? n with
  | none => s
  | some c =>
    let sack := bitsOf 64 (fun k => c.rxSet.contains (c.rxCum + 1 + k))
    let tail := toBE 8 c.rxCum ++ toBE 8 sack ++ toBE 4 c.cumMsg.toNat ++ toBE 4 (if c.windowMode then 0 else c.granted) ++ zeros 16
    sendOn c c.txCtl (c.seal n 0x10 0 c.txCtl tail [])
      (s.updConn n (fun c => { c with txCtl := c.txCtl + 1, sinceAck := 0 }))

/-- Advances CREDIT_LIMIT by units, unless the device is out of service, and acknowledges (R129, R130, R142). -/
def grant (n units : Nat) (s : State) : State :=
  match s.conn? n with
  | none => s
  | some c =>
    if c.windowMode ∨ units = 0 ∨ s.faults.outOfService then s
    else sendAck n (s.updConn n (fun c => { c with granted := c.granted + units }))

/-! ## Returns of credit (R130, R157, R158) -/

/-- Units a message of `n` bytes takes (R120, R130). -/
def unitsOf (n : Nat) : Nat := max 1 ((n + 4095) / 4096)

/-- O: units granted on ingest connections and not yet fallen due (R158). -/
def State.creditOut (s : State) : Nat :=
  (s.trans.conns.map (fun e => if e.2.ingest ∧ !e.2.windowMode then e.2.granted - e.2.fallen else 0)).sum

/-- Units still missing from messages whose first packet has arrived. -/
def Conn.missing (c : Conn) : Nat :=
  (c.msgs.map (fun m => if !m.2.failed && decide (m.2.type ≤ 2) then unitsOf m.2.len - m.2.units.length else 0)).sum

/-- A return is paid at once whatever O is: the connection's unspent credit is below what its begun messages miss (R158). -/
def Conn.pressed (c : Conn) : Bool := decide (c.granted - c.rxUnits < c.missing)

/-- Ports grant credit: not while out of service, in a handover, in warm reset or in a warm restart (R31, R301, R405, R428). -/
def State.grants (s : State) : Bool :=
  !s.faults.outOfService && s.trust.handover.isNone && !s.side.inWarmReset
    && !(s.faults.warm.map (·.started)).getD false

/-- The connection of a number is still the one of this identity. -/
def State.sameConn (s : State) (n id : Nat) : Bool := ((s.conn? n).map (fun c => c.id == id)).getD false

/-- A return is paid whatever O is: POOL does not bound it, or its connection is pressed (R130, R158). -/
def State.paysAtOnce (s : State) (e : OwedReturn) : Bool :=
  !e.pooled || ((s.conn? e.conn).map (fun c => c.id != e.connId || c.pressed)).getD true

/-- Pays owed returns, oldest first: one that POOL does not bound, or whose connection is pressed, at once, and another when none older
waits and O stays within POOL. A return of a connection that is gone is dropped. -/
def payOwed (s : State) : State :=
  if !s.grants then s
  else
    let (s, keep) := s.ingest.owed.foldl (fun (a : State × List OwedReturn) e =>
      if a.1.paysAtOnce e || (a.2.isEmpty && decide (a.1.creditOut + e.units ≤ a.1.ingest.pool.toNat)) then
        (if a.1.sameConn e.conn e.connId then grant e.conn e.units a.1 else a.1, a.2)
      else (a.1, a.2 ++ [e])) (s, [])
    { s with ingest := { s.ingest with owed := keep } }

/-- A return of units falls due on a connection: those of packets in other spaces at once (R130), those of INGEST regions by R158. -/
def fallDue (n units : Nat) (pooled : Bool) (s : State) : State :=
  if units = 0 then s
  else match s.conn? n with
    | none => s
    | some c =>
      if c.windowMode then s
      else
        let s := s.updConn n (fun c => { c with fallen := c.fallen + units })
        let e : OwedReturn := { conn := n, connId := c.id, units := units, pooled := pooled }
        payOwed { s with ingest := { s.ingest with owed := s.ingest.owed ++ [e] } }

/-- A change that lowers O, or makes a connection press, pays what it allows. -/
def creditMoved (s : State) : State := payOwed s

/-! ## Events (R141) -/

/-- SOURCE of a connection's events that no packet caused: its link, or the lowest port of its mask. -/
def Conn.source (c : Conn) : Nat × Nat :=
  match c.link with
  | some l => (3, l)
  | none => (2, ((List.range 8).find? (fun i => c.portMask.getLsbD i)).getD 0)

/-- SOURCE of a path: port 0 to 7, or 8 + a link. -/
def pathSource (p : Nat) : Nat × Nat := if p < 8 then (2, p) else (3, p - 8)

/-- The instance of a CONN_ERROR's SOURCE, whose class is 0x02 for every connection (R106): the port. For a warp connection no port saw
anything, and the instance is a free port number (log entry 109). -/
def connErrorPort (src : Nat × Nat) (s : State) : Nat × State :=
  if src.1 = 2 then (src.2, s) else (s.draw.1.toNat % 8, s.draw.2)

/-- Posts CONN_ERROR of a source. -/
def connErrorAt (src : Nat × Nat) (n cause count : Nat) (s : State) : State :=
  match s.conn? n with
  | none => s
  | some c =>
    let (port, s) := connErrorPort src s
    post .connError 2 port (BitVec.ofNat 8 c.job) nobody
      (toLE 2 n ++ [BitVec.ofNat 8 cause, 0] ++ toLE 4 count ++ fitBytes 16 c.peerIp ++ toLE 8 (c.txPsn - 1)) s

/-- Posts a CONN_ERROR that no packet caused. -/
def connError (n cause count : Nat) (s : State) : State :=
  connErrorAt (((s.conn? n).map (·.source)).getD (2, 0)) n cause count s

/-- Statuses that REMOTE_ACCESS_ERROR carries. -/
def accessStatus (code : Nat) : Bool := code == 0x0100 || code == 0x0101 || code == 0x0102 || code == 0x0103 || code == 0x0003

/-- Posts REMOTE_ACCESS_ERROR for the statuses it carries. -/
def remoteError (src : Nat × Nat) (n job dir type status : Nat) (rkey msgId : Word32) (raddr : Nat) (cookie : Word64) (s : State) :
    State :=
  if accessStatus status then
    post .remoteAccessError src.1 src.2 (BitVec.ofNat 8 job) nobody
      (toLE 2 n ++ [BitVec.ofNat 8 dir, BitVec.ofNat 8 type] ++ toLE 2 status ++ zeros 2 ++ toLE 4 rkey.toNat ++ toLE 4 msgId.toNat
        ++ toLE 8 raddr ++ toLE 8 cookie.toNat) s
  else s

/-! ## Regions (R126, R127, R140) -/

/-- Changes a region. -/
def State.updRegion (s : State) (i : Nat) (f : Region → Region) : State :=
  { s with trans := { s.trans with regions := Table.upd s.trans.regions i f } }

/-- Rights bits: R, W, A and T. -/
def rightR : BitVec 4 := 1
def rightW : BitVec 4 := 2
def rightA : BitVec 4 := 4
def rightT : BitVec 4 := 8

/-- The checks of R127 in order: the refusal, or the region. -/
def State.access (s : State) (job : Nat) (key : Word32) (off len : Nat) (need : BitVec 4) (atomic : Bool) : Sum Status (Nat × Region) :=
  let i := key.toNat / 256
  match Table.get? s.trans.regions i with
  | none => .inl .keyInvalid
  | some r =>
    if r.gen.toNat ≠ key.toNat % 256 ∨ r.job ≠ job then .inl .keyInvalid
    else if r.revoking then .inl .regionRevoked
    else if off + len > r.len ∨ (atomic ∧ off % 8 ≠ 0) then .inl .outOfBounds
    else if r.rights &&& need ≠ need then .inl .rights
    else .inr (i, r)

/-- Writes bytes at an offset of a region. -/
def regionWrite (r : Region) (off : Nat) (bs : Bytes) (s : State) : State :=
  if r.space = .host then hostWrite (r.base + off) bs true s else s.store (r.base + off) bs

/-- Messages that hold a region: placed bytes, neither visible nor failed (R140), and visible envelopes not yet settled (R157). -/
def State.regionHolds (s : State) (i : Nat) : Nat :=
  ((Table.get? s.trans.regions i).map (·.inFlight)).getD 0
  + (s.trans.conns.map (fun e => (e.2.msgs.filter (fun m =>
      let key := match m.2.recv with | some w => w.lkey | none => m.2.rkey
      !m.2.failed && key.toNat / 256 == i && !m.2.units.isEmpty)).length)).sum
  + (s.ingest.msgs.filter (fun e => e.2.region = i ∧ (e.2.stage ≠ .committed ∨ e.2.large))).length

/-- A held region gains or loses a local holder. -/
def holdRegion (i : Nat) (up : Bool) (s : State) : State :=
  s.updRegion i (fun r => { r with inFlight := if up then r.inFlight + 1 else r.inFlight - 1 })

/-- REGION_FREED: a revoking region with nothing in flight is freed, and what waits for it completes (R140). -/
def regionFreed (i : Nat) (s : State) : State :=
  match Table.get? s.trans.regions i with
  | none => s
  | some r =>
    if !r.revoking ∨ s.regionHolds i ≠ 0 then s
    else
      let s := { s with trans := { s.trans with regions := Table.del s.trans.regions i } }
      (s.cmds.filter (fun e => e.2.work = .revoking i)).foldl (fun s e => complete e.1 .ok 0 0 s) s

/-- REGION_REGISTER (R126). -/
def opRegionRegister (_ : Nat) (c : Cmd) (s : State) : Verdict :=
  let space := c.inl 0 1
  let base := c.inl 8 8
  let len := c.inl 16 8
  let sp : Space := match space with | 0 => .device | 1 => .host | 2 => .ingest | _ => .combine
  checks [(space < 4, inlineAt 0), (c.inl 1 1 < 16, inlineAt 1), (c.inl 2 1 < 16 && !(sp == .host && (c.inl 2 1).testBit 2), inlineAt 2),
      resInline c 3 5, (base % 64 = 0 && (sp == .host || s.unprotected base len), inlineAt 8),
      (64 ≤ len ∧ len ≤ 2 ^ 40, inlineAt 16), resInline c 24 8] <|
    if (s.job? (c.inl 1 1)).isNone then notPermitted 0
    else
      let spent (i : Nat) : Bool := Table.get? s.trans.lastGen i == some 255
      match lowest (fun i => !Table.has s.trans.regions i && !spent i) 262143 1 with
      | none => .refuse .noResource 0 0
      | some i =>
        let gen : BitVec 8 := match Table.get? s.trans.lastGen i with | none => 0 | some g => g + 1
        let r : Region := { gen := gen, space := sp, job := c.inl 1 1, rights := BitVec.ofNat 4 (c.inl 2 1), base := base, len := len,
                            revoking := false, inFlight := 0 }
        ok (256 * i + gen.toNat)
          { s with trans := { s.trans with regions := Table.put s.trans.regions i r, lastGen := Table.put s.trans.lastGen i gen } }

/-- REGION_REGISTER. -/
def execRegionRegister (cid : Nat) (s : State) : Host.Outcome State Fault Refusal :=
  .next (runRow .regionRegister opRegionRegister cid s)

/-- REGION_REVOKE (R140). -/
def opRegionRevoke (cid : Nat) (c : Cmd) (s : State) : Verdict :=
  checks [resInline c 4 28] <|
    let i := c.inl 1 3
    match Table.get? s.trans.regions i with
    | none => .refuse .keyInvalid 0 0
    | some r =>
      if r.gen.toNat ≠ c.inl 0 1 then .refuse .keyInvalid 0 0
      else .goes (commit cid (.revoking i) (s.updRegion i (fun r => { r with revoking := true })))

/-- REGION_REVOKE. -/
def execRegionRevoke (cid : Nat) (s : State) : Host.Outcome State Fault Refusal := .next (runRow .regionRevoke opRegionRevoke cid s)

/-! ## Work requests (R137 to R139) -/

/-- KIND of a work request: WRITE, SEND, READ, ATOMIC_ADD, COMPARE_SWAP, RECV; with its packet type. -/
def wrType (kind : Nat) : Nat := match kind with | 0 => 0x01 | 1 => 0x02 | 2 => 0x03 | 3 => 0x05 | 4 => 0x06 | _ => 0x02

/-- A started request holds its local region until it completes: READ, atomics, and sources in host memory. -/
def WorkReq.holds (w : WorkReq) : Bool := w.msgId.isSome && (w.kind == 2 || w.kind == 3 || w.kind == 4 || w.fetched.isSome)

/-- Posts WR_NOTIFY for a request that ends: with NOTIFY, or on any failure (R138). Its SOURCE is the port or link that saw the packet
that ended the request (R141). -/
def wrNotify (src : Nat × Nat) (n : Nat) (c : Conn) (w : WorkReq) (code : Nat) (result : Word64) (s : State) : State :=
  if w.notify || code != 0 then
    post .wrNotify src.1 src.2 (BitVec.ofNat 8 c.job) nobody
      (toLE 2 n ++ [BitVec.ofNat 8 w.kind, 0] ++ toLE 2 code ++ zeros 2 ++ toLE 8 (if w.kind = 4 then 0 else w.cookie.toNat)
        ++ toLE 8 result.toNat) s
  else s

/-- A request of the sending queue ends with a status code: SOURCE of its events is that of the packet that ended it, or the connection's
own. -/
def wrEndAt (src : Option (Nat × Nat)) (n : Nat) (w : WorkReq) (code : Nat) (result : Word64) (s : State) : State :=
  match s.conn? n with
  | none => s
  | some c =>
    let s := if w.holds then holdRegion (w.lkey.toNat / 256) false s else s
    wrNotify (src.getD c.source) n c w code result (s.updConn n (fun c => { c with wrs := c.wrs.filter (fun x => x.id ≠ w.id) }))

/-- A request of the sending queue ends, by no packet. -/
def wrEnd (n : Nat) (w : WorkReq) (code : Nat) (result : Word64) (s : State) : State := wrEndAt none n w code result s

/-- A receive request ends. -/
def recvEndAt (src : Option (Nat × Nat)) (n : Nat) (w : WorkReq) (code : Nat) (result : Word64) (s : State) : State :=
  match s.conn? n with
  | none => s
  | some c =>
    wrNotify (src.getD c.source) n c w code result (s.updConn n (fun c => { c with recvs := c.recvs.filter (fun x => x.id ≠ w.id) }))

/-- A receive request ends, by no packet. -/
def recvEnd (n : Nat) (w : WorkReq) (code : Nat) (result : Word64) (s : State) : State := recvEndAt none n w code result s

/-- A read of host memory ends with an error: its requester ends with HOST_FAULT (R92, R376, OWNER 3 of R359). -/
def readFailed (who : Reader) (detail : Nat) (s : State) : State :=
  match who with
  | .command cid => complete cid .hostFault detail 0 s
  | .source n m =>
    match (s.conn? n).bind (fun c => c.wrs.find? (fun w => w.msgId == some (BitVec.ofNat 32 m) && w.fetched.isSome)) with
    | none => s
    | some w => wrEnd n w Status.hostFault.code 0 s
  | .answer n m =>
    let id : Word32 := BitVec.ofNat 32 m
    match (s.conn? n).bind (fun c => c.answers.find? (fun a => a.1 == id)) with
    | none => s
    | some a =>
      sendNak n id Status.hostFault.code 0 (holdRegion (a.2.1.toNat / 256) false
        (s.updConn n (fun c => { c with answers := c.answers.filter (fun x => x.1 != id) })))

/-- The read requests of scatter-list pieces or of a host region's bytes (R380): one beyond ADDR_BITS is not issued and fails its
requester (R376). -/
def askHost (who : Reader) (ps : List Piece) (s : State) : State :=
  let reqs := readRequests (128 * 2 ^ s.pcie.maxReadRequest.toNat) ps
  match reqs.find? (fun q => !s.inReach q.1 q.2.1) with
  | some q => readFailed who 1 (shuttleError 4 q.1 s)
  | none => reqs.foldl (fun s q => askRead who q.2.2 q.1 q.2.1 s) s

/-- FLAGS of a request's message: TRIGGER with SET_TRIGGER (R137). -/
def WorkReq.flags (w : WorkReq) : Nat := if w.setTrigger then 1 else 0

/-- TRIG_ID of a request's message. -/
def WorkReq.trig (w : WorkReq) : Nat := if w.setTrigger then w.sendTrig else 0

/-- The message of a WRITE or SEND request leaves, with its MSG_ID. -/
def sendSource (n : Nat) (w : WorkReq) (m : Word32) (data : Bytes) (s : State) : State :=
  enqueue n (packetsOf (wrType w.kind) w.flags m (if w.kind = 1 then 0 else w.rkey) (if w.kind = 1 then 0 else w.raddr) w.trig data) s

/-- The first unstarted request of a connection starts (R138): local checks first, then its message. -/
def startWr (n : Nat) (c : Conn) (w : WorkReq) (s : State) : State :=
  let need : BitVec 4 := if w.kind ≤ 1 then rightR else rightW
  match s.access c.job w.lkey w.laddr w.len need false with
  | .inl st =>
    remoteError c.source n c.job 1 (wrType w.kind) 0 w.rkey 0 w.raddr w.cookie (wrEnd n w st.code 0 s)
  | .inr (i, r) =>
    if w.kind ≤ 1 ∧ r.space ≠ .host ∧ poisoned s.mem (r.base + w.laddr) w.len then wrEnd n w Status.hostFault.code 0 s
    else
      let (m, s) := takeMsgId n s
      let started := { w with msgId := some m, fetched := if w.kind ≤ 1 ∧ r.space = .host then some [] else none }
      let s := s.updConn n (fun c => { c with wrs := c.wrs.map (fun x => if x.id = w.id then started else x) })
      let s := if started.holds then holdRegion i true s else s
      match w.kind with
      | 2 => enqueue n [{ type := 0x03, flags := w.flags, tail := dataTail m w.rkey w.len 0 w.raddr w.trig 0, data := [], since := none }] s
      | 3 => enqueue n (packetsOf 0x05 w.flags m w.rkey w.raddr w.trig (toBE 8 w.operand.toNat)) s
      | 4 => enqueue n (packetsOf 0x06 w.flags m w.rkey w.raddr w.trig (toBE 8 w.operand.toNat ++ toBE 8 w.cookie.toNat)) s
      | _ =>
        if r.space = .host then askHost (.source n m.toNat) [{ addr := r.base + w.laddr, len := w.len }] s
        else sendSource n w m (memReads s.mem (r.base + w.laddr) w.len) s

/-- The first unstarted request may start: its trigger has reached THRESHOLD, and with FENCE none before it is outstanding. -/
def State.wrReady (s : State) (c : Conn) (w : WorkReq) : Bool :=
  (!w.triggered || decide (w.threshold ≤ ((s.job? c.job).map (fun j => (j.trigs.getD w.waitTrig 0).toNat)).getD 0))
    && (!w.fence || !c.wrs.any (fun x => x.msgId.isSome))

/-- WR_START (R138). -/
def execWrStart (conn : Nat) (s : State) : Host.Outcome State Fault Refusal :=
  .next (match s.conn? conn with
    | none => s
    | some c =>
      match c.wrs.find? (fun w => w.msgId.isNone) with
      | none => s
      | some w => if c.phase = .opened ∧ s.transportRuns ∧ s.wrReady c w then startWr conn c w s else s)

/-- Reads a work-request entry (R137). -/
def wrOf (e : Bytes) : WorkReq :=
  let f (i : Nat) : Bool := (byteAt e 1).testBit i
  { id := 0, kind := byteAt e 0, notify := f 0, triggered := f 1, fence := f 2, setTrigger := f 3, waitTrig := leAt e 4 2,
    sendTrig := leAt e 6 2, threshold := leAt e 8 4, lkey := BitVec.ofNat 32 (leAt e 12 4), laddr := leAt e 16 8, len := leAt e 24 8,
    rkey := BitVec.ofNat 32 (leAt e 32 4), raddr := leAt e 40 8, operand := BitVec.ofNat 64 (leAt e 48 8),
    cookie := BitVec.ofNat 64 (leAt e 56 8), msgId := none, units := [], fetched := none }

/-- A connection that accepts work requests: open, with no close begun. -/
def State.opened (s : State) (n : Nat) : Bool := ((s.conn? n).map (fun c => c.phase == .opened)).getD false

/-- An entry is valid (R137). -/
def wrEntryOk (s : State) (e : Bytes) : Bool :=
  let w := wrOf e
  decide (w.kind ≤ 5) && decide (byteAt e 1 < 16) && s.opened (leAt e 2 2)
    && (!w.triggered || (decide (w.waitTrig < 64) && decide (1 ≤ w.threshold))) && (!w.setTrigger || decide (w.sendTrig < 64))
    && decide (1 ≤ w.len ∧ w.len ≤ 2 ^ 33) && (!(w.kind == 3 || w.kind == 4) || w.len == 8)
    && (!(w.kind == 1 || w.kind == 5) || w.rkey == 0) && zeroAt e 36 4

/-- Requests outstanding on a connection: unstarted and started ones, and receive requests that a SEND has taken. -/
def Conn.outstanding (c : Conn) : Nat := c.wrs.length + c.recvs.length + (c.msgs.filter (fun m => m.2.recv.isSome)).length

/-- An entry is accepted. -/
def acceptWr (s : State) (e : Bytes) : State :=
  s.updConn (leAt e 2 2) (fun c =>
    let w := { wrOf e with id := c.wrMade }
    let c := { c with wrMade := c.wrMade + 1 }
    if w.kind = 5 then { c with recvs := c.recvs ++ [w] } else { c with wrs := c.wrs ++ [w] })

/-- WR_POST (R137, R138). -/
def opWrPost (_ : Nat) (c : Cmd) (s : State) : Verdict :=
  if !c.inlZero 0 32 then badList
  else withScatter c 0 (fun ps used =>
    let total := piecesLen ps
    if c.body.length ≠ used ∨ total % 64 ≠ 0 ∨ total = 0 ∨ 65536 < total then badList
    else withInput c 0 (fun input =>
      let es := chunks 64 1024 input
      match es.findIdx? (fun e => !wrEntryOk s e) with
      | some i => .refuse .badParam i 0
      | none =>
        let s' := es.foldl acceptWr s
        if s'.trans.conns.any (fun e => decide (1024 < e.2.outstanding)) ∨ 65536 < (s'.trans.conns.map (·.2.outstanding)).sum then
          .refuse .noResource noEntry 0
        else ok 0 s'))

/-- WR_POST. -/
def execWrPost (cid : Nat) (s : State) : Host.Outcome State Fault Refusal := .next (runRow .wrPost opWrPost cid s)

/-- WR_CANCEL (R139). -/
def opWrCancel (_ : Nat) (c : Cmd) (s : State) : Verdict :=
  checks [(c.inl 2 1 ≤ 1, inlineAt 2), resInline c 3 5, resInline c 16 16] <|
    let n := c.inl 0 2
    match s.conn? n with
    | none => ok 0 s
    | some k =>
      let hit (w : WorkReq) : Bool := w.msgId.isNone && (c.inl 2 1 == 1 || w.cookie == BitVec.ofNat 64 (c.inl 8 8))
      let a := k.wrs.filter hit
      let b := k.recvs.filter hit
      let s := a.foldl (fun s w => wrEnd n w Status.aborted.code 0 s) s
      ok (a.length + b.length) (b.foldl (fun s w => recvEnd n w Status.aborted.code 0 s) s)

/-- WR_CANCEL. -/
def execWrCancel (cid : Nat) (s : State) : Host.Outcome State Fault Refusal := .next (runRow .wrCancel opWrCancel cid s)

/-! ## Opening and closing connections (R123 to R125) -/

/-- What a connection's received messages hold ends with a status code: receive requests taken by SENDs, and reads of host regions. -/
def endReceived (n code : Nat) (s : State) : State :=
  match s.conn? n with
  | none => s
  | some c =>
    let s := (c.msgs.filterMap (fun m => m.2.recv)).foldl (fun s w => recvEnd n w code 0 s) s
    let s := c.answers.foldl (fun s a => holdRegion (a.2.1.toNat / 256) false s) s
    s.updConn n (fun c => { c with msgs := [], answers := [] })

/-- A connection's number is freed: what is left of its work requests is aborted, and its holds end. -/
def freeConn (n : Nat) (s : State) : State :=
  match s.conn? n with
  | none => s
  | some c =>
    let s := endReceived n Status.aborted.code s
    let s := c.wrs.foldl (fun s w => wrEnd n w Status.aborted.code 0 s) s
    let s := c.recvs.foldl (fun s w => recvEnd n w Status.aborted.code 0 s) s
    creditMoved { s with trans := { s.trans with conns := Table.del s.trans.conns n } }

/-- A connection closes (R125): unstarted requests are aborted, messages not yet visible fail, and DISCONNECT, a data-class packet of one
unit, is sent as soon as credit allows (R130). -/
def closeConn (n : Nat) (s : State) : State :=
  match s.conn? n with
  | none => s
  | some c =>
    match c.phase with
    | .closing => s
    | .connecting => freeConn n s
    | .halfOpen => freeConn n s
    | .opened =>
      let s := (c.wrs.filter (fun w => w.msgId.isNone)).foldl (fun s w => wrEnd n w Status.aborted.code 0 s) s
      let s := c.recvs.foldl (fun s w => recvEnd n w Status.aborted.code 0 s) s
      let s := endReceived n Status.aborted.code s
      let (m, s) := takeMsgId n s
      enqueue n [{ type := 0x23, flags := 0, tail := dataTail m 0 0 0 0 0 0, data := [], since := none }]
        (s.updConn n (fun c => { c with phase := .closing, txQueue := [] }))

/-- A connection fails (R131): CONN_ERROR, and its work requests end with TIMEOUT. -/
def failConn (n cause : Nat) (s : State) : State :=
  match s.conn? n with
  | none => s
  | some c =>
    let s := connError n cause 0 s
    let s := endReceived n Status.timeout.code s
    let s := c.wrs.foldl (fun s w => wrEnd n w Status.timeout.code 0 s) s
    let s := c.recvs.foldl (fun s w => recvEnd n w Status.timeout.code 0 s) s
    creditMoved { s with trans := { s.trans with conns := Table.del s.trans.conns n } }

/-- Connections at most. -/
def connLimit : Nat := 65536

/-- A new connection with nothing sent or received. -/
def Conn.fresh (job : Nat) (windowMode : Bool) (mask : BitVec 8) (reasmMs window creditInit : Nat) (link : Option Nat) : Conn :=
  { id := 0, phase := .connecting, job := job, windowMode := windowMode, portMask := mask, reasmMs := reasmMs, window := window,
    creditInit := creditInit, listener := none, cid := none, initiator := true, link := link, peerConn := 0, ipVer := 6,
    peerIp := zeros 16, peerMac := 0, nonceI := [], nonceR := [], okm := [], greeting := [], tries := 0, rxCum := 0, rxSet := [],
    rxCtl := none, rxUnits := 0, granted := creditInit, msgs := [], cumMsg := 0, sinceAck := 0, violations := 0, txPsn := 0,
    txCtl := 0, txMsg := 0, txQueue := [], unacked := [], txLimit := 0, txSpent := 0, expiries := 0, atomics := [], wrs := [],
    recvs := [], wrMade := 0, retries := [], fallen := 0, ingest := false, discPsn := none, answers := [], posted := [] }

/-- A connection takes a number, with the next identity. -/
def makeConn (n : Nat) (c : Conn) (s : State) : State :=
  { s with trans := { s.trans with conns := Table.put s.trans.conns n { c with id := s.trans.made }, made := s.trans.made + 1 } }

/-- An active open (R123 step 1): a number, a nonce of the sending engine's pool, and CONNECT_REQ. -/
def activeOpen (cid : Nat) (c : Conn) (s : State) : Verdict :=
  match Table.free? s.trans.conns 0 connLimit with
  | none => .refuse .noResource 0 0
  | some n =>
    let engine := match c.link with
      | some l => 8 + l
      | none => ((s.upPorts c).head?).getD c.source.2
    match takeNonce engine s with
    | none => .refuse .entropyFail 0 0
    | some (nonce, s) =>
      let req := handshake (hsKey (s.connSecret c.job c.link) c.job) 0x20 (if c.windowMode then 2 else 0) 0 n
        (handshakeTail c.job c.window c.creditInit nonce []) nonce
      let c : Conn := { c with cid := some cid, nonceI := nonce, greeting := req, tries := 1 }
      .goes (setWork cid (.connecting n) (sendOn c 0 req (makeConn n c s)))

/-- CONN_OPEN (R124). -/
def opConnOpen (cid : Nat) (c : Cmd) (s : State) : Verdict :=
  let kind := c.par 0 1
  let j := c.par 1 1
  let window := c.par 2 1 == 1
  let ver := c.par 14 1
  checks [c.jobIs j, (slateParamLen c.slate = 64, 12), resInline c 0 32, (kind ≤ 1, blockAt 0), (j < 16, blockAt 1), (c.par 2 1 ≤ 1, blockAt 2),
      (c.par 3 1 ≠ 0, blockAt 3), (c.par 4 2 ≤ 1000, blockAt 4),
      (if window then decide (1 ≤ c.par 6 2 ∧ c.par 6 2 ≤ 1024) else c.par 6 2 == 0, blockAt 6), (c.par 8 4 ≤ 65536, blockAt 8),
      (kind == 0 || c.par 12 2 == 0, blockAt 12), (if kind = 0 then ver == 0 else ver == 4 || ver == 6, blockAt 14), resBlock c 15 1,
      resBlock c 38 26] <|
    match c.work with
    | .connecting _ => .stalls
    | _ =>
      match s.job? j with
      | none => notPermitted 0
      | some _ =>
        if s.side.step ≠ 11 then notPermitted 0
        else
          let reasm := if c.par 4 2 = 0 then 50 else c.par 4 2
          let credit := if c.par 8 4 = 0 then 256 else c.par 8 4
          let mask := BitVec.ofNat 8 (c.par 3 1)
          if kind = 0 then
            match Table.free? s.trans.listeners 0 64 with
            | none => .refuse .noResource 0 0
            | some n =>
              let l : Listener := { job := j, link := none, windowMode := window, portMask := mask, reasmMs := reasm, window := c.par 6 2,
                                    creditInit := credit, max := if c.par 12 2 = 0 then 65536 else c.par 12 2, accepted := 0 }
              ok n { s with trans := { s.trans with listeners := Table.put s.trans.listeners n l } }
          else
            let k := Conn.fresh j window mask reasm (c.par 6 2) credit none
            activeOpen cid { k with ipVer := ver, peerIp := c.parB 16 16, peerMac := BitVec.ofNat 48 (beAt c.block 32 6) } s

/-- CONN_OPEN. -/
def execConnOpen (cid : Nat) (s : State) : Host.Outcome State Fault Refusal := .next (runRow .connOpen opConnOpen cid s)

/-- CONN_CLOSE (R125). -/
def opConnClose (_ : Nat) (c : Cmd) (s : State) : Verdict :=
  let n := c.inl 4 2
  checks [(c.inl 0 1 ≤ 1, inlineAt 0), (c.inl 1 1 ≤ 1, inlineAt 1), resInline c 2 2, resInline c 6 26] <|
    if c.inl 0 1 = 0 then
      match s.conn? n with
      | some k => if k.phase = .opened ∨ k.phase = .closing then ok 0 (closeConn n s) else badInline 4
      | none => badInline 4
    else if Table.has s.trans.listeners n then
      let s := { s with trans := { s.trans with listeners := Table.del s.trans.listeners n } }
      if c.inl 1 1 = 1 then
        ok 0 ((s.trans.conns.filter (fun e => e.2.listener = some n)).foldl (fun s e => closeConn e.1 s) s)
      else ok 0 { s with trans := { s.trans with
        conns := Table.mapAll s.trans.conns (fun _ k => if k.listener = some n then { k with listener := none } else k) } }
    else badInline 4

/-- CONN_CLOSE. -/
def execConnClose (cid : Nat) (s : State) : Host.Outcome State Fault Refusal := .next (runRow .connClose opConnClose cid s)

/-- DISCONNECT_FREE_TIMER: 10 ms after DISCONNECT was sent the number is freed (R125). -/
def execDisconnectFreeTimer (conn : Nat) (s : State) : Host.Outcome State Fault Refusal :=
  .next (if ((s.conn? conn).map (fun c => c.phase == .closing && c.discPsn.isSome)).getD false then freeConn conn s else s)

/-! ## Timers of a connection (R123, R129, R131, R132) -/

/-- ACK_TIMER: 20 µs after a data packet an ACK is sent (R129). -/
def execAckTimer (conn : Nat) (s : State) : Host.Outcome State Fault Refusal :=
  .next (match s.conn? conn with
    | none => s
    | some c => if s.transportRuns ∧ c.sinceAck ≠ 0 ∧ c.phase ≠ .connecting then sendAck conn s else s)

/-- Sends packets again, byte-identical (R121). -/
def resend (c : Conn) (l : List TxPacket) (s : State) : State := l.foldl (fun s p => sendOn c p.psn p.body s) s

/-- RETRANSMIT_TIMER_EXPIRY (R131). -/
def execRetransmitTimerExpiry (conn : Nat) (s : State) : Host.Outcome State Fault Refusal :=
  .next (match s.conn? conn with
    | none => s
    | some c =>
      if !s.transportRuns ∨ c.unacked.isEmpty then s
      else if c.expiries + 1 ≥ 12 then failConn conn 0 s
      else resend c (c.unacked.filter (fun p => !p.sacked)) (s.updConn conn (fun c => { c with expiries := c.expiries + 1 })))

/-- CONNECT_RETRY_TIMER: CONNECT_REQ is repeated, and the twelfth expiry ends the set-up (R123, R131). -/
def execConnectRetryTimer (conn : Nat) (s : State) : Host.Outcome State Fault Refusal :=
  .next (match s.conn? conn with
    | none => s
    | some c =>
      if !s.transportRuns ∨ c.phase ≠ .connecting then s
      else if c.tries ≥ 12 then
        let s := connError conn 1 0 s
        match c.cid with
        | some k => complete k .timeout 0 0 { s with trans := { s.trans with conns := Table.del s.trans.conns conn } }
        | none => { s with trans := { s.trans with conns := Table.del s.trans.conns conn } }
      else sendOn c 0 c.greeting (s.updConn conn (fun c => { c with tries := c.tries + 1 })))

/-- HALF_OPEN_TIMEOUT: a half-open connection is freed after 1 s (R123). -/
def execHalfOpenTimeout (conn : Nat) (s : State) : Host.Outcome State Fault Refusal :=
  .next (if ((s.conn? conn).map (fun c => c.phase == .halfOpen)).getD false then freeConn conn s else s)

/-- NAK_RETRY_US_EXPIRY: in window mode the packets of the refused message are sent again (R132). -/
def execNakRetryUsExpiry (conn : Nat) (msgId : Word32) (s : State) : Host.Outcome State Fault Refusal :=
  .next (match s.conn? conn with
    | none => s
    | some c =>
      if !s.transportRuns ∨ !c.retries.contains msgId then s
      else resend c (c.unacked.filter (fun p => !p.sacked && BitVec.ofNat 32 (beAt p.body 16 4) == msgId))
        (s.updConn conn (fun c => { c with retries := c.retries.filter (· ≠ msgId) })))

/-! ## Ports (R115, R116) -/

/-- Posts PORT_LINK. -/
def portEvent (i cause : Nat) (s : State) : State :=
  let p := s.port i
  post .portLink 2 i nobody nobody
    ([if p.linkUp then 1 else 0, if !p.linkUp then 0 else if p.width = 2 then 4 else 2, p.lanesGood.setWidth 8, BitVec.ofNat 8 cause]
      ++ zeros 4 ++ toLE 8 s.unitStatus.toNat) s

/-- A write of ING_PORT_CTRL: the other bits only while ENABLE is 0 (R115, R116). -/
def writePortCtrl (i : Nat) (m v : Word64) (s : State) : State :=
  let s := s.updPort i (fun p => if p.enable then p else { p with
    allowDegrade := maskFlag m v 1 p.allowDegrade, ipv4En := maskFlag m v 2 p.ipv4En, ipv6En := maskFlag m v 3 p.ipv6En
    vlanEn := maskFlag m v 4 p.vlanEn, dscp := maskField m v 8 p.dscp, vid := maskField m v 16 p.vid, pcp := maskField m v 28 p.pcp })
  if !m.getLsbD 0 then s
  else if v.getLsbD 0 then
    if s.side.tests.any (fun t => t.target == 0 && t.unit == i) then
      { s with side := { s.side with waitingEnables := if s.side.waitingEnables.contains i then s.side.waitingEnables
                                                       else s.side.waitingEnables ++ [i] } }
    else s.updPort i (fun p => { p with enable := true })
  else
    let up := (s.port i).linkUp
    let s := { s with side := { s.side with waitingEnables := s.side.waitingEnables.filter (· ≠ i) } }
    let s := s.updPort i (fun p => { p with enable := false, linkUp := false, width := 0, lanesGood := 0, rearmed := p.degraded })
    if up then portEvent i 0 s else s

/-- PORT_ENABLE: a write of ING_PORT_CTRL with ENABLE 1. -/
def execPortEnable (port : Nat) (value : Word32) (s : State) : Host.Outcome State Fault Refusal :=
  .next (atBar (writePortCtrl port 0xFFFFFFFF (value.setWidth 64 ||| 1)) s)

/-- PORT_DISABLE: a write of ING_PORT_CTRL with ENABLE 0. -/
def execPortDisable (port : Nat) (value : Word32) (s : State) : Host.Outcome State Fault Refusal :=
  .next (atBar (writePortCtrl port 0xFFFFFFFF (value.setWidth 64 &&& ~~~1#64)) s)

/-- PORT_LANES_LOCKED: an enabled port comes up at 400 Gb/s; one that was degraded only once ENABLE has been written 0 and then 1 (R116). -/
def execPortLanesLocked (port : Nat) (s : State) : Host.Outcome State Fault Refusal :=
  .next (let p := s.port port
    if !p.enable ∨ p.linkUp ∨ !p.inService ∨ s.side.testHold ∨ (p.degraded ∧ !p.rearmed) then s
    else portEvent port (if p.degraded then 4 else 0)
      (s.updPort port (fun p => { p with linkUp := true, width := 2, lanesGood := 15, degraded := false, rearmed := false })))

/-- ETHERNET_LANE_FAIL: lanes fail, by loss of signal or lock or by the FEC criterion (R116). -/
def execEthernetLaneFail (port : Nat) (lanes : BitVec 4) (fec : Bool) (s : State) : Host.Outcome State Fault Refusal :=
  .next (let p := s.port port
    if !p.linkUp ∨ p.lanesGood &&& lanes = 0 then s
    else
      let good := p.lanesGood &&& ~~~lanes
      let n := (bitList 4 good.toNat).length
      let lost := ((bitList 4 (p.lanesGood &&& lanes).toNat).head?).getD 0
      let s := s.updPort port (fun p => { p with lanesGood := good })
      if 2 ≤ n ∧ p.allowDegrade then
        let s := portEvent port 3 (s.updPort port (fun p => { p with width := 1, degraded := true, rearmed := false }))
        if p.width = 2 then postDegraded 2 port 6 lost 2 0 s else s
      else
        let s := portEvent port (if fec then 2 else 1) (s.updPort port (fun p => { p with linkUp := false, width := 0 }))
        postDegraded 2 port 6 lost 0 0 s)

/-- Counts a drop of a port: 0 ICV_FAIL, 1 NO_CONN, 2 MALFORMED, 3 CREDIT_VIOLATION; links keep no such counts. -/
def drop (path kind : Nat) (s : State) : State :=
  if 8 ≤ path then s
  else s.updPort path (fun p => match kind with
    | 0 => { p with icvFail := satAdd p.icvFail 1 }
    | 1 => { p with noConn := satAdd p.noConn 1 }
    | 2 => { p with malformed := satAdd p.malformed 1 }
    | _ => { p with creditViolation := satAdd p.creditViolation 1 })

/-- ING_PORT_DROPS as it reads, coarsened (R421). -/
def State.portDrops (s : State) (i : Nat) : Word64 :=
  let p := s.port i
  place 0 (s.coarse p.icvFail) ||| place 16 (s.coarse p.noConn) ||| place 32 (s.coarse p.malformed)
  ||| place 48 (s.coarse p.creditViolation)

/-- ING_PORT_DROPS_READ clears the counts that it returns. -/
def execIngPortDropsRead (port : Nat) (half : Half) (s : State) : Host.Outcome State Fault Refusal :=
  .next (rcRead half (fun s => s.portDrops port) (fun s => s.updPort port (fun p => { p with icvFail := 0, noConn := 0 }))
    (fun s => s.updPort port (fun p => { p with malformed := 0, creditViolation := 0 })) s)

/-- MALFORMED_FRAME: a frame refused by R115; ICMP and a port other than 47 300 are discarded without a count, and before DEVICE_READY so
is a transport packet (R142). -/
def execMalformedFrame (port : Nat) (why : FrameFault) (s : State) : Host.Outcome State Fault Refusal :=
  .next (if !(s.port port).linkUp then s
    else match why with
      | .icmp => s
      | .otherPort => s
      | .pause => drop port 2 s
      | .tooLong => drop port 2 s
      | .vlan => drop port 2 s
      | .ipv6Extension => drop port 2 s
      | .ipv4Options => drop port 2 s
      | .fragment => drop port 2 s
      | .checksum => if s.transportRuns then drop port 2 s else s
      | .header => if s.transportRuns then drop port 2 s else s)

/-- ARP_REQUEST for the port's own address is answered (R115). -/
def execArpRequest (port : Nat) (targetIp : Word32) (senderMac : BitVec 48) (senderIp : Word32) (s : State) :
    Host.Outcome State Fault Refusal :=
  .next (let p := s.port port
    if p.linkUp ∧ p.ipv4En ∧ targetIp = p.ipv4 then emit (.arpReply port p.tag p.mac p.ipv4 senderMac senderIp) s else s)

/-- NEIGHBOUR_SOLICITATION for the port's own address is answered (R115). -/
def execNeighbourSolicitation (port : Nat) (target : BitVec 128) (senderMac : BitVec 48) (senderIp : BitVec 128) (s : State) :
    Host.Outcome State Fault Refusal :=
  .next (let p := s.port port
    if p.linkUp ∧ p.ipv6En ∧ target = p.ipv6 then emit (.neighbourAdvertisement port p.tag p.mac p.ipv6 senderMac senderIp) s else s)

/-- ING_PORT_CTRL as it reads. -/
def Port.ctrl (p : Port) : Word64 :=
  placeB 0 p.enable ||| placeB 1 p.allowDegrade ||| placeB 2 p.ipv4En ||| placeB 3 p.ipv6En ||| placeB 4 p.vlanEn ||| place 8 p.dscp
  ||| place 16 p.vid ||| place 28 p.pcp

/-- ING_PORT_STATUS as it reads. -/
def Port.status (p : Port) : Word64 := placeB 0 p.linkUp ||| place 1 p.width ||| place 3 p.lanesGood

end Sys2Proof.Machine
end

