-- ==== Sys2Proof/Machine/Credit.lean ====
section
/-! DEFINITION. Ingest credit and the release of splice slots: what a visible envelope gives back as it settles (R54, R156 to
R158). -/

namespace Sys2Proof.Machine

open Sys2Proof

/-! ## Visible envelopes (R54, R156, R157) -/

/-- The visible envelope of a number. -/
def State.msg? (s : State) (m : Nat) : Option Message := Table.get? s.ingest.msgs m

/-- Changes a visible envelope. -/
def State.updMsg (s : State) (m : Nat) (f : Message → Message) : State :=
  { s with ingest := { s.ingest with msgs := Table.upd s.ingest.msgs m f } }

/-- Splice slots of a core that are not free (R155). -/
def State.slotsUsed (s : State) (core : Nat) : Nat :=
  (s.ingest.msgs.map (fun e => (e.2.tiles.filter (fun t => t.core == core && t.slot.isSome)).length)).sum

/-- The marks of a core's splice that are in use. -/
def State.marksOf (s : State) (core : Nat) : List Nat :=
  s.ingest.msgs.flatMap (fun e => (e.2.tiles.filter (fun t => t.core == core && t.slot.isSome)).map (·.mark))

/-- The lowest free slot position of a core's splice (R156). -/
def State.freeMark (s : State) (core : Nat) : Nat := (lowest (fun i => !(s.marksOf core).contains i) 64 0).getD 64

/-- Free splice slots of a core. -/
def State.slotsFree (s : State) (core : Nat) : Nat := 64 - s.slotsUsed core

/-- A further number of a message's units falls due. -/
def unitsDue (m units : Nat) (s : State) : State :=
  match s.msg? m with
  | none => s
  | some k =>
    let s := s.updMsg m (fun k => { k with due := k.due + units })
    if s.sameConn k.conn k.connId then fallDue k.conn units true s else s

/-- A message that feeds no group any more is gone, and whatever it still held falls due. -/
def settleMsg (m : Nat) (s : State) : State :=
  match s.msg? m with
  | none => s
  | some k =>
    if k.stage = .committed ∧ k.flying.isEmpty then
      let s := unitsDue m (unitsOf k.len - k.due) s
      { s with ingest := { s.ingest with msgs := Table.del s.ingest.msgs m } }
    else s

/-- A committed message's contribution to a group leaves flight, and its splice slots are released (R54, R156). -/
def leaveFlight (m g : Nat) (s : State) : State :=
  settleMsg m (s.updMsg m (fun k => { k with
    flying := k.flying.filter (· ≠ g), tiles := k.tiles.filter (fun t => t.group ≠ g) }))

/-- The sequence number that a message holds in a group. -/
def Message.seqIn (k : Message) (g : Nat) : Option Nat := (k.seqs.find? (fun e => e.1 = g)).map (·.2)

/-- Contributions in flight in a group: message and sequence number, in sequence order. -/
def State.inFlight (s : State) (g : Nat) : List (Nat × Nat) :=
  sortBy (·.2)
    (s.ingest.msgs.filterMap (fun e => if e.2.flying.contains g then (e.2.seqIn g).map (fun q => (e.1, q)) else none))

/-- Every contribution in flight whose sequence number satisfies a predicate leaves flight unapplied. -/
def dropFlight (g : Nat) (p : Nat → Bool) (s : State) : State :=
  ((s.inFlight g).filter (fun e => p e.2)).foldl (fun s e => leaveFlight e.1 g s) s

/-- BASE_VOLTAGE_RECOMPUTE: V_B and R every 10 ms, and at each change of what they depend on (R337, R338). -/
def execBaseVoltageRecompute (s : State) : Host.Outcome State Fault Refusal := .next (if s.power.railsOn then creditMoved (recomputeBase s) else s)

end Sys2Proof.Machine
end

