-- ==== Sys2Proof/Machine/Groups.lean ====
section
/-! DEFINITION. Tiles, station graphs, groups, takes, banks and slice migration (R32 to R61). -/

namespace Sys2Proof.Machine

open Sys2Proof

/-! ## Formats and kinds (R32, R168) -/

/-- Bytes of an element of a format, zero for a code that R32 does not list. -/
def formatBytes : Nat → Nat
  | 0x01 => 2 | 0x02 => 4 | 0x03 => 8 | 0x10 => 2 | 0x11 => 2 | 0x12 => 4 | 0x20 => 2 | 0x21 => 4 | 0x30 => 8 | _ => 0

/-- Bank width w of an accumulator kind (R168, R169). -/
def kindWidth : Nat → Nat
  | 0 => 2 | 1 => 4 | 2 => 8 | 3 => 16 | _ => 32

/-- U16, U32 and U64. -/
def isU (f : Nat) : Bool := f == 0x01 || f == 0x02 || f == 0x03
/-- FP16, BF16 and FP32. -/
def isFloat (f : Nat) : Bool := f == 0x10 || f == 0x11 || f == 0x12
/-- FIX16 and FIX32. -/
def isFix (f : Nat) : Bool := f == 0x20 || f == 0x21
/-- RNS61. -/
def isRns (f : Nat) : Bool := f == 0x30

/-- The pairs of format and kind that R168 allows. -/
def pairAllowed (f k : Nat) : Bool :=
  (f == 0x01 && k == 0) || (f == 0x02 && k == 1) || (f == 0x03 && k == 2) || (isFloat f && (k == 3 || k == 4))
    || (f == 0x20 && (k == 0 || k == 1)) || (f == 0x21 && (k == 1 || k == 2)) || (isRns f && k == 2)

/-- The formats of each mode (R168). -/
def formatSuits (f : Nat) : Mode → Bool
  | .masked => isU f
  | .homomorphic => isRns f
  | .trusted => isU f || isFloat f || isFix f

/-- A relaxed group (R50). -/
def mayRelax (f k : Nat) : Bool := (isU f || isRns f) && decide (k ≤ 2)

/-- The heddle parameter set of a number (R219). -/
def State.paramSet? (s : State) (p : Nat) : Option ParamSet := Table.get? s.poly.sets p

/-- T0 of a seeded group of this format, set and element count (R226). -/
def State.seedT0 (s : State) (format set count : Nat) : Option Nat :=
  if isRns format then (s.paramSet? set).bind (fun p => if p.ingestForm = 1 then some (count / 16384) else none) else none

/-- Elements per contribution tile, E (R32). -/
def Group.per (g : Group) : Nat := 65536 / formatBytes g.format

/-- Bank width in bytes. -/
def Group.w (g : Group) : Nat := kindWidth g.kind

/-- Elements per bank tile. -/
def Group.bankPer (g : Group) : Nat := 65536 / g.w

/-- Tiles of the group vector (R46): for a seeded group those of its bank. -/
def Group.tiles (g : Group) : Nat := (g.count + g.per - 1) / g.per

/-- Bank tiles (R32 note 1). -/
def Group.bankTiles (g : Group) : Nat := (g.count + g.bankPer - 1) / g.bankPer

/-- Tiles of a contribution (R226). -/
def State.contribTiles (s : State) (g : Group) : Nat :=
  match s.seedT0 g.format g.paramSet g.count with
  | some t => t + 1
  | none => g.tiles

/-- VALID_BYTES of contribution tile `i` (R32, R226). -/
def State.validBytes (s : State) (g : Group) (i : Nat) : Nat :=
  match s.seedT0 g.format g.paramSet g.count with
  | some t => if i = t then 32 * ((s.paramSet? g.paramSet).map (fun p => g.count / (2 * p.limbs * 2 ^ p.logN))).getD 0 else 65536
  | none => min 65536 ((g.count - i * g.per) * formatBytes g.format)

/-- Length of bank tile `i` in bytes. -/
def Group.bankBytes (g : Group) (i : Nat) : Nat := min 65536 ((g.count - i * g.bankPer) * g.w)

/-! ## Tile descriptors (R33) -/

/-- The fields of a tile descriptor. -/
structure TileDesc where
  format : Nat
  job : Nat
  group : Nat
  station : Nat
  mode : Nat
  flags : Nat
  take : Nat
  valid : Nat
  seq : Nat
  first : Nat
  slice : Nat
  epoch : Nat
  segment : Nat
  contribs : Nat
  seqEnd : Nat
  scale : Int
  kind : Nat
  paramSet : Nat
  randRef : Nat
  deriving DecidableEq, Repr, Inhabited

/-- The 64 bytes of a tile descriptor, with DCHK at its end (R33). -/
def TileDesc.bytes (t : TileDesc) : Bytes :=
  let d := [1, BitVec.ofNat 8 t.format, BitVec.ofNat 8 t.job, BitVec.ofNat 8 t.group, BitVec.ofNat 8 t.station, BitVec.ofNat 8 t.mode]
    ++ toLE 2 t.flags ++ toLE 4 t.take ++ toLE 4 t.valid ++ toLE 8 t.seq ++ toLE 4 t.first ++ toLE 2 t.slice ++ toLE 2 t.epoch
    ++ toLE 4 t.segment ++ toLE 4 t.contribs ++ toLE 8 t.seqEnd ++ [BitVec.ofInt 8 t.scale, BitVec.ofNat 8 t.kind]
    ++ toLE 2 t.paramSet ++ toLE 4 t.randRef ++ zeros 4
  d ++ toLE 4 (crc32c d).toNat

/-- A descriptor with fields replaced at an offset, and DCHK formed anew. -/
def redesc (off : Nat) (new d : Bytes) : Bytes :=
  let d := (d.take off ++ new ++ d.drop (off + new.length)).take 60
  d ++ toLE 4 (crc32c d).toNat

/-- A descriptor with another EPOCH. -/
def redate (epoch : Nat) (d : Bytes) : Bytes := redesc 30 (toLE 2 epoch) d

/-- A descriptor with REPLAY set (R33, R156). -/
def replayed (d : Bytes) : Bytes := redesc 6 (toLE 2 (leAt d 6 2 ||| 16)) d

/-- Bits of FLAGS: CONTRIB, BANK, PARTIAL, PROTECTED, REPLAY and TAIL. -/
def descFlags (contrib bank part prot replay tail : Bool) : Nat :=
  bitsOf 6 (fun i => [contrib, bank, part, prot, replay, tail].getD i false)

/-! ## Slices (R46, R47) -/

/-- The placement of a slice that holds a sequence number: the old one below the boundary of a migration that has not been merged, and
otherwise the present one (R57). -/
def Slice.placeOf (k : Slice) (seq : Nat) : Nat × Nat :=
  match k.moves.find? (fun m => decide (seq < m.boundary)) with
  | some m => (m.oldCore, m.oldEpoch)
  | none => (k.core, k.epoch)

/-- A contribution waits, unapplied, for the merge of an older placement of the slice (R57 step 2). -/
def Slice.buffers (k : Slice) (seq : Nat) : Bool := (k.moves.head?.map (fun m => decide (m.boundary ≤ seq))).getD false

/-- A descent that holds these numbers would cross a migration boundary of the slice (R164). -/
def Slice.crosses (k : Slice) (seqs : List Nat) : Bool :=
  k.moves.any (fun m => seqs.any (fun q => decide (q < m.boundary)) && seqs.any (fun q => decide (m.boundary ≤ q)))

/-- S: the request, or the smallest power of two up to 4 096 that gives every slice its own active core (R46). -/
def sliceSize (request tiles active : Nat) : Nat :=
  if request ≠ 0 then request
  else match lowest (fun k => decide ((tiles + 2 ^ k - 1) / 2 ^ k ≤ active)) 13 0 with
    | some k => 2 ^ k
    | none => 4096

/-- Slice that a tile lies in. -/
def Group.sliceOf (g : Group) (tile : Nat) : Nat := tile / g.sliceTiles

/-- Core that owns a tile's slice. -/
def Group.coreOf (g : Group) (tile : Nat) : Nat := (unit g.slices (g.sliceOf tile)).core

/-- Elements of slice `j`. -/
def Group.sliceElems (g : Group) (j : Nat) : Nat :=
  min g.count ((j + 1) * g.sliceTiles * g.per) - min g.count (j * g.sliceTiles * g.per)

/-- Elements of a group's slices on a core. -/
def Group.elemsOn (g : Group) (core : Nat) : Nat :=
  (g.slices.mapIdx (fun j k => if k.core = core then g.sliceElems j else 0)).sum

/-- Bytes of a core's bank store in use: the banks of the groups that are not spilled, and the mask sums beside them (R184, R200). -/
def State.storeUsed (s : State) (core : Nat) : Nat :=
  (s.accum.groups.map (fun e => if e.2.spilled then 0 else 2 * e.2.w * e.2.elemsOn core)).sum
  + (s.masks.ledgers.map (fun l => (l.2.inStore.map (fun g => match s.group? g with
      | some k => k.w * k.elemsOn core
      | none => 0)).sum)).sum

/-- Bytes of a bank store (R184). -/
def storeBytes : Nat := 6291456

/-- Bytes of the slices placed on each core fit in the free bank store of every core. -/
def State.fitsStore (s : State) (g : Group) (banks : Nat) : Bool :=
  (List.range 36).all (fun c => decide (s.storeUsed c + banks * g.w * g.elemsOn c ≤ storeBytes))

/-- Allocates bank tiles over the stacks in service: tile i to the stack at position i mod s (R348 note 2). -/
def allocSpread (o : Owner) (tiles : Nat) (s : State) : Option State :=
  let live := s.liveStacks
  if live.isEmpty then none
  else (live.mapIdx (fun p b => (p, b))).foldl (fun (m : Option State) e => m.bind (fun s =>
    allocIn o e.2 (65536 * ((tiles + live.length - 1 - e.1) / live.length)) s)) (some s)

/-! ## Banks (R51) -/

/-- A bank in ZERO. -/
def Bank.zeroed (scale : Int) : Bank :=
  { mode := .zero, take := 0, start := 0, stop := none, elems := [], scale := scale, steps := 0, count := 0, cohort := 0,
    nonfinite := 0, longSum := false, cut := false, combined := false, reports := [], finished := [], nexts := [] }

/-- Bank A or B of a group. -/
def Group.bank (g : Group) (isB : Bool) : Bank := if isB then g.bankB else g.bankA

/-- Changes a bank. -/
def Group.updBank (g : Group) (isB : Bool) (f : Bank → Bank) : Group :=
  if isB then { g with bankB := f g.bankB } else { g with bankA := f g.bankA }

/-- Changes a bank of an open group. -/
def State.updBank (s : State) (g : Nat) (isB : Bool) (f : Bank → Bank) : State := s.updGroup g (fun k => k.updBank isB f)

/-- A bank's element, zero when it is not listed (R171, R174). -/
def Bank.elem (b : Bank) (i : Nat) : Elem := (Table.get? b.elems i).getD { a := 0, x := 0, y := 0 }

/-- Sets elements of a bank, keeping only those that are not zero. -/
def Bank.setElem (b : Bank) (i : Nat) (e : Elem) : Bank :=
  { b with elems := if e = { a := 0, x := 0, y := 0 } then Table.del b.elems i else Table.put b.elems i e }

/-- The bank that a sequence number selects (R53): FILLING from its start up, or an earlier bank within its bounds. -/
def Bank.takes (b : Bank) (seq : Nat) : Bool :=
  match b.mode with
  | .filling => decide (b.start ≤ seq)
  | .draining => decide (b.start ≤ seq ∧ seq < b.stop.getD 0)
  | .final => decide (b.start ≤ seq ∧ seq < b.stop.getD 0)
  | _ => false

/-- The bank of a group that holds a sequence number: true for B. -/
def Group.bankOfSeq (g : Group) (seq : Nat) : Option Bool :=
  if g.bankA.takes seq then some false else if g.bankB.takes seq then some true else none

/-- The FILLING bank. -/
def Group.filling (g : Group) : Option Bool :=
  if g.bankA.mode = .filling then some false else if g.bankB.mode = .filling then some true else none

/-- Groups of a job, with their numbers. -/
def State.jobGroups (s : State) (j : Nat) : List (Nat × Group) := s.accum.groups.filter (fun e => e.2.job = j)

/-- The group of a command: open in the command's job. -/
def State.groupOf (s : State) (j g : Nat) : Option Group := (s.group? g).filter (fun k => k.job == j)

/-- The status that a failed group gives (R182). -/
def GroupFail.status : GroupFail → Status
  | .seqGap => .seqGap
  | .scaleExhausted => .scaleExhausted

/-! ## Station graphs (R35 to R42) -/

/-- Internal edges of R37: from, to, and the modes that allow them (bit 0 M, bit 1 H, bit 2 T). -/
def internalEdges : List (Nat × Nat × Nat) :=
  [(1, 2, 7), (1, 3, 7), (2, 3, 7), (3, 5, 7), (3, 4, 4), (4, 5, 4), (3, 7, 2), (7, 5, 2), (5, 6, 1), (5, 7, 2), (5, 10, 6), (5, 8, 7),
   (5, 12, 7), (8, 6, 1), (8, 7, 2), (8, 10, 6), (8, 12, 7), (6, 10, 1), (7, 10, 2), (9, 10, 5), (9, 7, 2), (10, 11, 7), (10, 12, 7),
   (11, 12, 7)]

/-- An edge of a station graph is one of R37: stations, none for a boundary; a boundary edge of KIND 0 is left to the next item. -/
def edgeAllowed (mode : Nat) (src dst : Option Nat) (kind : Nat) : Bool :=
  match src, dst with
  | some a, some b => internalEdges.any (fun e => e.1 == a && e.2.1 == b && e.2.2.testBit (mode - 1))
  | none, some b => (b == 1 && (kind == 0 || kind == 1)) || (b == 8 && (kind == 0 || kind == 3)) || (b == 11 && (kind == 0 || kind == 2))
  | some a, none => a == 12 && (kind == 0 || kind == 2 || kind == 3)
  | none, none => false

/-- Mode code (R33). -/
def modeOf (m : Nat) : Mode := match m with | 1 => .masked | 2 => .homomorphic | _ => .trusted

/-- MODE of a tile or record. -/
def Mode.code : Mode → Nat
  | .masked => 1 | .homomorphic => 2 | .trusted => 3

/-- Does a node serve a group? -/
def GraphNode.serves (n : GraphNode) (g : Nat) : Bool := n.groups.getLsbD g

/-- A node of a station (and instance) serves a group. -/
def Graph.serves (k : Graph) (station g : Nat) : Bool := k.nodes.any (fun n => n.station == station && n.serves g)

/-- Some node serves a group. -/
def Graph.servesAny (k : Graph) (g : Nat) : Bool := k.nodes.any (fun n => n.serves g)

/-- An internal edge from one station to another carries a group (R40). -/
def Graph.carries (k : Graph) (src dst g : Nat) : Bool :=
  k.edges.any (fun e =>
    let a := unit k.nodes e.src
    let b := unit k.nodes e.dst
    e.kind == 0 && a.station == src && b.station == dst && (e.group == g || (e.group == 255 && a.serves g && b.serves g)))

/-- The stations that read a group's FINAL banks: UNMASK, POLY, GATE and EXPORT behind ACCUMULATE or COMBINE, GATE behind UNMASK, and
COMBINE itself where it stands alone (R37, R51; log entry 34). -/
def Graph.consumers (k : Graph) (g : Nat) : List Nat :=
  let direct := [6, 7, 10, 12].filter (fun x => k.carries 5 x g || k.carries 8 x g)
  if direct.isEmpty ∧ k.carries 5 8 g then [8]
  else if direct.contains 6 ∧ k.carries 6 10 g ∧ !direct.contains 10 then direct ++ [10] else direct

/-- The nodes, edges and layout entries of a graph block, with their offsets (R38 to R41). -/
def nodesOf (b : Bytes) : List (Nat × GraphNode) :=
  (List.range (leAt b 4 1)).map (fun i =>
    let o := 32 + 16 * i
    (o, { station := leAt b o 1, inst := leAt b (o + 1) 1, maxTiles := if leAt b (o + 2) 2 = 0 then 64 else leAt b (o + 2) 2,
          groups := BitVec.ofNat 64 (leAt b (o + 8) 8) }))

/-- The edges. -/
def edgesOf (b : Bytes) : List (Nat × GraphEdge) :=
  (List.range (leAt b 5 1)).map (fun i =>
    let o := 32 + 16 * leAt b 4 1 + 8 * i
    (o, { src := leAt b o 1, dst := leAt b (o + 1) 1, kind := leAt b (o + 2) 1,
          depth := if leAt b (o + 3) 1 = 0 then 16 else leAt b (o + 3) 1, group := leAt b (o + 4) 1 }))

/-- The layout entries: group and first segment. -/
def layoutOf (b : Bytes) : List (Nat × Nat × Nat) :=
  (List.range (leAt b 6 1)).map (fun i =>
    let o := 32 + 16 * leAt b 4 1 + 8 * leAt b 5 1 + 8 * i
    (o, leAt b o 1, leAt b (o + 4) 4))

/-- Reserved bytes of a structure in the block. -/
def resAt (b : Bytes) (off len : Nat) : Check :=
  match nonZero? b off len with
  | none => (true, 0)
  | some o => (false, blockAt o)

/-- Nodes left after taking away, `fuel` times, those that no edge from a remaining node reaches: none where there is no cycle. -/
def cyclic (edges : List GraphEdge) : Nat → List Nat → Bool
  | 0, l => !l.isEmpty
  | fuel + 1, l => cyclic edges fuel (l.filter (fun i => edges.any (fun e => e.kind == 0 && e.dst == i && l.contains e.src)))

/-- The header, counts and reserved fields: the first item of R42, in block order. -/
def graphFields (b : Bytes) : List Check :=
  let n := leAt b 4 1
  let e := leAt b 5 1
  let l := leAt b 6 1
  [(leAt b 0 2 == 1, blockAt 0), (decide (leAt b 2 1 < 16), blockAt 2), (decide (1 ≤ leAt b 3 1 ∧ leAt b 3 1 ≤ 3), blockAt 3),
   (decide (4 ≤ n ∧ n ≤ 16), blockAt 4), (decide (3 ≤ e ∧ e ≤ 32), blockAt 5), (decide (1 ≤ l ∧ l ≤ 64), blockAt 6), resAt b 7 1,
   (leAt b 8 4 == 32 + 16 * n + 8 * e + 8 * l && b.length == 32 + 16 * n + 8 * e + 8 * l, blockAt 8),
   (decide (1 ≤ leAt b 12 4 ∧ leAt b 12 4 ≤ 65536), blockAt 12), resAt b 16 16]
  ++ ((nodesOf b).map (fun x => ([(x.2.inst == 0 || (x.2.station == 7 && x.2.inst == 1), blockAt (x.1 + 1)),
       (decide (x.2.maxTiles ≤ 1024), blockAt (x.1 + 2)), resAt b (x.1 + 4) 4] : List Check))).flatten
  ++ ((edgesOf b).map (fun x => ([(decide (x.2.kind ≤ 3), blockAt (x.1 + 2)), resAt b (x.1 + 5) 3] : List Check))).flatten
  ++ (layoutOf b).map (fun x => resAt b (x.1 + 1) 3)

/-- The items on stations and edges. -/
def graphShape (b : Bytes) : List Check :=
  let nodes := nodesOf b
  let edges := edgesOf b
  let st (i : Nat) : Option Nat := if i = 255 then none else some (unit (nodes.map (fun (x : Nat × GraphNode) => x.2)) i).station
  let has (x : Nat) : Bool := nodes.any (fun n => n.2.station == x)
  nodes.map (fun (x : Nat × GraphNode) => (decide (1 ≤ x.2.station ∧ x.2.station ≤ 12), blockAt x.1))
  ++ nodes.mapIdx (fun i x => (!(nodes.take i).any (fun y => y.2.station == x.2.station && (x.2.station != 7 || y.2.inst == x.2.inst)),
       blockAt x.1))
  ++ [([1, 2, 3, 5, 10].all has, blockAt 4), (leAt b 3 1 != 1 || has 6, blockAt 3)]
  ++ (edges.map (fun x => ([(decide (x.2.src < nodes.length ∨ x.2.src = 255), blockAt x.1),
       (decide (x.2.dst < nodes.length ∨ x.2.dst = 255), blockAt (x.1 + 1)),
       (edgeAllowed (leAt b 3 1) (st x.2.src) (st x.2.dst) x.2.kind, blockAt x.1)] : List Check))).flatten
  ++ edges.map (fun x => ((x.2.kind == 0) == (x.2.src != 255 && x.2.dst != 255), blockAt (x.1 + 2)))
  ++ [(!cyclic (edges.map (·.2)) nodes.length (List.range nodes.length), blockAt 5)]

/-- Where the layout entries, in ascending first segment, must begin; the checks that they do, and the total. -/
def layoutChecks (tiles : Nat → Nat) (l : List (Nat × Nat × Nat)) : List Check × Nat :=
  (sortBy (fun (x : Nat × Nat × Nat) => x.2.2) l).foldl (fun (a : List Check × Nat) x =>
    (a.1 ++ [(x.2.2 == a.2, blockAt (x.1 + 4))], a.2 + tiles x.2.1)) ([], 0)

/-- The items on groups and the layout: each item in block order, where a served group that no layout entry names counts at LAYOUT_COUNT
in the header (R42; log entry 74). -/
def graphGroups (s : State) (j : Nat) (b : Bytes) : List Check :=
  let nodes := nodesOf b
  let layout := layoutOf b
  let served (g : Nat) : Bool := nodes.any (fun n => n.2.serves g)
  let tiles (g : Nat) : Nat := ((s.group? g).map s.contribTiles).getD 0
  let (order, total) := layoutChecks tiles layout
  [((List.range 64).all (fun g => !served g || layout.any (fun x => x.2.1 == g)), blockAt 6)]
  ++ nodes.map (fun x => ((List.range 64).all (fun g => !x.2.serves g || (s.groupOf j g).isSome), blockAt (x.1 + 8)))
  ++ (edgesOf b).map (fun x => (x.2.group == 255 || (s.groupOf j x.2.group).isSome, blockAt (x.1 + 4)))
  ++ layout.mapIdx (fun i x => ((s.groupOf j x.2.1).isSome && served x.2.1 && !(layout.take i).any (fun y => y.2.1 == x.2.1),
       blockAt x.1))
  ++ order ++ [(total == leAt b 12 4, blockAt 12)]
  ++ layout.map (fun x => (((s.group? x.2.1).map (fun g => formatSuits g.format (modeOf (leAt b 3 1)))).getD false, blockAt x.1))

/-- GRAPH_LOAD (R38 to R42). -/
def opGraphLoad (_ : Nat) (c : Cmd) (s : State) : Verdict :=
  let b := c.body
  let j := leAt b 2 1
  checks [c.jobIs j, resInline c 0 32] <| checks (graphFields b) <| checks (graphShape b) <| checks (graphGroups s j b) <|
    match s.job? j with
    | none => notPermitted 0
    | some jb =>
      if jb.filling.isSome then notPermitted 0
      else
        let m := modeOf (leAt b 3 1)
        let k : Graph := { mode := m, nodes := (nodesOf b).map (·.2), edges := (edgesOf b).map (·.2),
                           layout := (layoutOf b).map (fun x => (x.2.1, x.2.2)), segments := leAt b 12 4 }
        ok 0 (s.updJob j (fun jb => { jb with graph := some k, mode := some m }))

/-- GRAPH_LOAD. -/
def execGraphLoad (cid : Nat) (s : State) : Host.Outcome State Fault Refusal := .next (runRow .graphLoad opGraphLoad cid s)

/-! ## GROUP_OPEN (R44 to R47, R184, R225) -/

/-- A power of two up to 4 096, or 0. -/
def sliceTilesOk (n : Nat) : Bool := n == 0 || (List.range 13).any (fun k => n == 2 ^ k)

/-- A signed byte. -/
def signed8 (n : Nat) : Int := (BitVec.ofNat 8 n).toInt

/-- The element count of an RNS61 group suits its set (R225). -/
def rnsCountOk (p : ParamSet) (count : Nat) : Bool :=
  let unitLen := 2 * p.limbs * 2 ^ p.logN
  count % unitLen == 0 && decide (count / unitLen ≤ 2048) && (p.ingestForm == 0 || count / 2 % 8192 == 0)

/-- The group that GROUP_OPEN's INLINE describes, its banks zeroed and its slices placed (R44 to R47). -/
def groupOf (c : Cmd) (s : State) : Group :=
  let scale := signed8 (c.inl 11 1)
  let format := c.inl 2 1
  let count := c.inl 4 4
  let per := 65536 / formatBytes format
  let tiles := (count + per - 1) / per
  let active := s.activeCores
  let size := sliceSize (c.inl 8 2) tiles active.length
  { job := c.inl 1 1, format := format, kind := c.inl 3 1, count := count, sliceTiles := size, relaxed := c.inl 10 1 == 1,
    startScale := scale, place := c.inl 12 1, paramSet := c.inl 16 2, spilled := false, frac := 0, clip := false, clipNorm := 0,
    nextSeq := 0,
    slices := (List.range ((tiles + size - 1) / size)).map (fun i =>
      { core := unit active ((i + c.inl 0 1) % active.length), epoch := 0, moves := [] })
    bankA := Bank.zeroed scale, bankB := Bank.zeroed scale, lastB := none, failed := none }

/-- GROUP_OPEN's checks of its fields, by offset (R44, R45, R168, R225). -/
def groupChecks (c : Cmd) (s : State) : List Check :=
  let f := c.inl 2 1
  let k := c.inl 3 1
  let count := c.inl 4 4
  let set := s.paramSet? (c.inl 16 2)
  let per := 65536 / max 1 (formatBytes f)
  [(c.inl 0 1 < 64, inlineAt 0), (c.inl 1 1 < 16, inlineAt 1), (formatBytes f ≠ 0, inlineAt 2), (pairAllowed f k, inlineAt 3),
   (decide (1 ≤ count) && (!isRns f || (set.map (fun p => rnsCountOk p count)).getD true), inlineAt 4),
   (sliceTilesOk (c.inl 8 2) && (c.inl 8 2 == 0 || decide (count ≤ 65536 * c.inl 8 2 * per)), inlineAt 8),
   (c.inl 10 1 == 0 || (c.inl 10 1 == 1 && mayRelax f k), inlineAt 10),
   (if isFix f then decide (-31 ≤ signed8 (c.inl 11 1) ∧ signed8 (c.inl 11 1) ≤ 31) else c.inl 11 1 == 0, inlineAt 11),
   (c.inl 12 1 == 0 || (c.inl 12 1 == 1 && k != 4), inlineAt 12), resInline c 13 3,
   (if isRns f then set.isSome else c.inl 16 2 == 0, inlineAt 16), resInline c 18 14]

/-- Places a group's banks (R184): the bank store by fit, or bobbin memory. -/
def placeBanks (g : Nat) (k : Group) (s : State) : Option (Group × State) :=
  if k.place = 0 ∧ s.fitsStore k 2 then some (k, s)
  else if k.kind = 4 then none
  else ((allocSpread (.bank g false) k.bankTiles s).bind (allocSpread (.bank g true) k.bankTiles)).map
    (fun s => ({ k with spilled := true }, s))

/-- GROUP_OPEN (R44 to R47, R184, R225). -/
def opGroupOpen (_ : Nat) (c : Cmd) (s : State) : Verdict :=
  checks (groupChecks c s) <|
    let g := c.inl 0 1
    if (s.group? g).isSome ∨ (s.job? (c.inl 1 1)).isNone then notPermitted 0
    else match placeBanks g (groupOf c s) s with
      | none => .refuse .noResource 0 0
      | some (k, s) =>
        let s := { s with accum := { s.accum with groups := Table.put s.accum.groups g k } }
        ok 0 (match Table.get? s.gate.defaults k.job with
          | none => s
          | some p => { s with gate := { s.gate with policies := Table.put s.gate.policies g p } })

/-- GROUP_OPEN. -/
def execGroupOpen (cid : Nat) (s : State) : Host.Outcome State Fault Refusal := .next (runRow .groupOpen opGroupOpen cid s)

/-- Completes with ABORTED every outstanding command that satisfies a predicate. -/
def abortCmds (p : Nat → Cmd → Bool) (s : State) : State :=
  (s.cmds.filter (fun e => p e.1 e.2)).foldl (fun s e => complete e.1 .aborted 0 0 s) s

/-! ## Tokens and tiles that are written (R49, R164) -/

/-- Token positions that a contribution tile's sums take: one for each 64 bytes of it, and every position of the expanded tiles for a
seed tile (R164, R227). -/
def State.positions (s : State) (g : Group) (tile : Nat) : Nat :=
  match s.seedT0 g.format g.paramSet g.count with
  | some t => if tile = t then 1024 * t else 1024
  | none => (s.validBytes g tile + 63) / 64

/-- The contribution tile that carries bank-side tile `tile`: itself, or the seed tile of a seeded group (R226). -/
def State.carrier (s : State) (g : Group) (tile : Nat) : Nat :=
  match s.seedT0 g.format g.paramSet g.count with
  | some t0 => if tile < t0 then tile else t0
  | none => tile

/-- The position in the carrier's list of a token of a tile. -/
def State.position (s : State) (g : Group) (tile token : Nat) : Nat :=
  match s.seedT0 g.format g.paramSet g.count with
  | some t0 => if tile < t0 then token else (tile - t0) * 1024 + token
  | none => token

/-- Tokens of a tile of the group vector (R164). -/
def State.tokens (s : State) (g : Group) (tile : Nat) : Nat :=
  match s.seedT0 g.format g.paramSet g.count with
  | some _ => 1024
  | none => (s.validBytes g tile + 63) / 64

/-- A contribution has been applied to a tile of the group vector: each of its tokens is written. -/
def State.applied (s : State) (k : Message) (gn : Nat) (g : Group) (tile : Nat) : Bool :=
  let lo := s.position g tile 0
  let n := s.tokens g tile
  match k.tiles.find? (fun x => x.group = gn ∧ x.tile = s.carrier g tile) with
  | none => false
  | some x => decide (n ≤ (x.done.filter (fun p => decide (lo ≤ p ∧ p < lo + n))).length)

/-- Tiles of a slice of a group vector (R46). -/
def Group.slicePart (g : Group) (j : Nat) : List Nat :=
  ((List.range g.sliceTiles).map (fun i => j * g.sliceTiles + i)).filter (fun t => decide (t < g.tiles))

/-- A contribution has been applied everywhere in a slice. -/
def State.doneInSlice (s : State) (k : Message) (gn : Nat) (g : Group) (j : Nat) : Bool := (g.slicePart j).all (s.applied k gn g)

/-- A contribution has been applied everywhere in a slice but, perhaps, in one tile. -/
def State.doneBeside (s : State) (k : Message) (gn : Nat) (g : Group) (j tile : Nat) : Bool :=
  (g.slicePart j).all (fun t => t == tile || s.applied k gn g t)

/-! ## Streams into ACCUMULATE (R36, R39, R155) -/

/-- Tiles that the ACCUMULATE node of a graph may hold in flight (R39). -/
def Graph.nodeRoom (k : Graph) : Nat := ((k.nodes.find? (fun n => n.station == 5)).map (·.maxTiles)).getD 64

/-- The edge that brings a group's tiles into ACCUMULATE: its place in the graph and its DEPTH (R37, R40). -/
def Graph.inlet (k : Graph) (g : Nat) : Nat × Nat :=
  match k.edges.findIdx? (fun e =>
    let a := unit k.nodes e.src
    let b := unit k.nodes e.dst
    e.kind == 0 && b.station == 5 && (e.group == g || (e.group == 255 && a.serves g && b.serves g))) with
  | some i => (i, (unit k.edges i).depth)
  | none => (k.edges.length, 16)

/-- A contribution tile is written at every position. -/
def State.spent (s : State) (t : SpliceTile) : Bool :=
  match s.group? t.group with
  | none => true
  | some g => decide (s.positions g t.tile ≤ t.done.length)

/-- The committed tiles of a job in the order in which OPEN puts them into streams: by commit, then by segment (R36, R155). -/
def State.committedTiles (s : State) (j : Nat) : List (Nat × SpliceTile) :=
  (sortBy (fun e => e.2.order) (s.ingest.msgs.filter (fun e => e.2.job = j ∧ e.2.stage = .committed))).flatMap
    (fun e => (sortBy (·.segment) e.2.tiles).map (fun t => (e.1, t)))

/-- A station issues a contribution tile (R419): core, station and sequence number. -/
def traceTile (m : Nat) (t : SpliceTile) (core station : Nat) (s : State) : State :=
  let seq := ((s.msg? m).bind (·.seqIn t.group)).getD 0
  let job := ((s.msg? m).map (·.job)).getD 255
  addTrace 4 (BitVec.ofNat 8 job) (BitVec.ofNat 8 t.group) (256 + core) (core / 9)
    ([BitVec.ofNat 8 core, BitVec.ofNat 8 station, 0, 0] ++ toLE 8 (if s.coarsens 2 then 0 else seq)) s

/-- A station issues a tile that no splice holds: its core, and its descriptor (R419). -/
def traceIssued (core : Nat) (d : Bytes) (s : State) : State :=
  addTrace 4 (d.getD 2 0) (d.getD 3 0) (256 + core) (core / 9)
    ([BitVec.ofNat 8 core, d.getD 4 0, 0, 0] ++ (if s.coarsens 2 then zeros 8 else slice d 16 8)) s

/-- The descriptor of bank tile T0 + `i` that POLY makes of a seed tile with descriptor `d`: STATION 0x7, its own FIRST_ELEM, slice and
epoch, and no segment (R33, R227). -/
def expandedDesc (g : Group) (t0 seq : Nat) (d : Bytes) (i : Nat) : Bytes :=
  let j := g.sliceOf (t0 + i)
  let flags := (leAt d 6 2) % 32 + (if i + 1 = t0 then 32 else 0)
  [(4, [7]), (6, toLE 2 flags), (12, toLE 4 65536), (24, toLE 4 ((t0 + i) * g.per)), (28, toLE 2 j),
   (30, toLE 2 ((unit g.slices j).placeOf seq).2), (32, toLE 4 0xFFFFFFFF)].foldl (fun d (e : Nat × Bytes) => redesc e.1 e.2 d) d

/-- The descriptors of the bank tiles that POLY makes of a contribution tile: none of one that is no seed tile (R227). -/
def State.madeOf (s : State) (m : Nat) (t : SpliceTile) : List Bytes :=
  match s.group? t.group with
  | none => []
  | some g =>
    match s.seedT0 g.format g.paramSet g.count with
    | none => []
    | some t0 =>
      if t.tile ≠ t0 then []
      else (List.range t0).map (expandedDesc g t0 (((s.msg? m).bind (·.seqIn t.group)).getD 0) t.desc)

/-- POLY issues what it makes of a seed tile: bank tiles T0 to 2·T0 − 1 (R227). -/
def traceExpanded (m : Nat) (t : SpliceTile) (s : State) : State :=
  match s.group? t.group with
  | none => s
  | some g =>
    match s.seedT0 g.format g.paramSet g.count with
    | none => s
    | some t0 => if t.tile ≠ t0 then s else (List.range t0).foldl (fun s i => traceTile m t (g.coreOf (t0 + i)) 7 s) s

/-- A committed tile moves on: OPEN issues it into its stream, and the node takes it (R36). -/
def movePlace (m : Nat) (t : SpliceTile) (p : TilePlace) (s : State) : State :=
  let s := if t.place = .splice then traceTile m t t.core 3 s else s
  let s := if p = .node then traceExpanded m t s else s
  let made := if p = .node then s.madeOf m t else []
  s.updMsg m (fun k => { k with tiles := k.tiles.map (fun x =>
    if x.group = t.group ∧ x.tile = t.tile then { x with place := p, made := made } else x) })

/-- Moves the committed tiles of a job on, oldest first: the ACCUMULATE node takes tiles while it holds fewer than MAX_TILES in flight,
each stream holds at most DEPTH tiles, and a producer whose stream is full keeps its tiles in the splice (R36, R39, R155). -/
def advance (j : Nat) (s : State) : State :=
  match (s.job? j).bind (·.graph) with
  | none => s
  | some k =>
    let flow := (s.committedTiles j).filter (fun e => e.2.slot = some .committed ∧ !s.spent e.2)
    (flow.foldl (fun (a : State × Nat × List Nat × Bool) e =>
      let (s, taken, streamed, behind) := a
      let (edge, depth) := k.inlet e.2.group
      match e.2.place with
      | .node => (s, taken + 1, streamed, behind)
      | _ =>
        if !behind ∧ taken < k.nodeRoom then (movePlace e.1 e.2 .node s, taken + 1, streamed, behind)
        else if (streamed.filter (· = edge)).length < depth then
          ((if e.2.place = .splice then movePlace e.1 e.2 .stream s else s), taken, streamed ++ [edge], true)
        else (s, taken, streamed ++ [edge], true)) (s, 0, [], false)).1

/-- A tile is re-issued from its mark, with REPLAY set and the same descriptor otherwise (R156). -/
def SpliceTile.rewound (t : SpliceTile) : SpliceTile := { t with place := .splice, desc := replayed t.desc, made := [] }

/-- A committed tile that has been issued can be re-issued from its mark. -/
def SpliceTile.issued (t : SpliceTile) : Bool := t.slot == some .committed && t.place != .splice

/-- Tiles of a core that satisfy a predicate on message and tile. -/
def State.tilesOn (s : State) (p : Nat → SpliceTile → Bool) (c : Nat) : Nat :=
  (s.ingest.msgs.map (fun e => (e.2.tiles.filter (fun t => t.core == c && p e.1 t)).length)).sum

/-- The splices rewind to the marks of the tiles that satisfy a predicate; SPL_REPLAYS counts the tiles and one rewind for each core. -/
def rewindTiles (p : Nat → SpliceTile → Bool) (s : State) : State :=
  let s' := (List.range 36).foldl (fun s c =>
    if s.tilesOn p c = 0 then s
    else s.updCore c (fun k => { k with tiles := satAdd k.tiles (s.tilesOn p c), rewinds := satAdd k.rewinds 1 })) s
  { s' with ingest := { s'.ingest with msgs := Table.mapAll s'.ingest.msgs (fun i k =>
      { k with tiles := k.tiles.map (fun t => if p i t then t.rewound else t) }) } }

/-! ## The end of a bank (R51, R200) -/

/-- Key of a bank's gate item. -/
def itemKey (g : Nat) (isB : Bool) : Nat := 2 * g + (if isB then 1 else 0)

/-- A ledger goes with every bank of its take out of DRAINING and FINAL (R200). -/
def State.ledgerNeeded (s : State) (l : Nat) (k : Ledger) : Bool :=
  (s.jobGroups (l / 2)).any (fun e => [false, true].any (fun b =>
    let x := e.2.bank b
    x.take == k.take && (x.mode == .draining || x.mode == .final || x.mode == .filling)))

/-- Erases the mask sum of a group in a ledger, with the memory it takes (R208). -/
def dropSum (l g : Nat) (s : State) : State :=
  dealloc (.maskSum l g) { s with masks := { s.masks with ledgers := Table.upd s.masks.ledgers l (fun k => { k with
    sums := k.sums.filter (fun x => x.1 ≠ g), inStore := k.inStore.filter (· ≠ g) }) } }

/-- Erases a seed ledger: its tokens, keys, mask sums and items (R200). -/
def freeLedger (l : Nat) (s : State) : State :=
  (List.range 64).foldl (fun s g => dealloc (.maskSum l g) s)
    (dealloc (.ledger l) { s with masks := { s.masks with ledgers := Table.del s.masks.ledgers l } })

/-- Frees the ledgers that nothing needs any more. -/
def freeLedgers (s : State) : State :=
  (s.masks.ledgers.filter (fun e => !s.ledgerNeeded e.1 e.2)).foldl (fun s e => freeLedger e.1 s) s

/-- A bank moves to ZEROING: its contents and its gate item are erased (R51, R251). -/
def beginZeroing (g : Nat) (isB : Bool) (s : State) : State :=
  let s := s.updBank g isB (fun b => { b with mode := .zeroing, elems := [], reports := [], finished := [], nexts := [] })
  let s := { s with gate := { s.gate with items := Table.del s.gate.items (itemKey g isB) } }
  freeLedgers s

/-- Some ACC_COMBINE that has not completed names a bank (R188). -/
def State.combining (s : State) (g : Nat) (isB : Bool) : Bool :=
  s.cmds.any (fun e => e.2.group == g && (match e.2.work with | .combining b _ _ => b == isB | _ => false))

/-- The stations that read a group's FINAL banks. -/
def State.consumers (s : State) (g : Nat) : List Nat :=
  match (s.group? g).bind (fun k => (s.job? k.job).bind (·.graph)) with
  | none => []
  | some k => k.consumers g

/-- A consumer of a FINAL bank has not finished with it. -/
def State.unread (s : State) (g : Nat) (isB : Bool) : Bool :=
  match s.group? g with
  | none => false
  | some k => s.combining g isB || (s.consumers g).any (fun x => !(k.bank isB).finished.contains x)

/-- A FINAL bank with which every consumer has finished moves to ZEROING (R51). -/
def releaseBank (g : Nat) (isB : Bool) (s : State) : State :=
  match s.group? g with
  | none => s
  | some k => if (k.bank isB).mode = .final ∧ !s.unread g isB then beginZeroing g isB s else s

/-- A station has finished with a FINAL bank. -/
def finishStation (g : Nat) (isB : Bool) (station : Nat) (s : State) : State :=
  releaseBank g isB (s.updBank g isB (fun b => if b.mode = .final then { b with finished := b.finished ++ [station] } else b))

/-- A command that waits for banks: one of them has become FINAL, or is gone. -/
def drainEnded (g : Nat) (isB longSum : Bool) (s : State) : State :=
  s.cmds.foldl (fun s e =>
    match e.2.work with
    | .draining bs l r =>
      if bs.contains (g, isB) then
        let rest := bs.filter (· ≠ (g, isB))
        if rest.isEmpty then complete e.1 (if l || longSum then .longSum else .ok) 0 r s
        else s.updCmd e.1 (fun c => { c with work := .draining rest (l || longSum) r })
      else s
    | _ => s) s

/-- A new item at the gate for a bank (R251). -/
def holdItem (g : Nat) (isB : Bool) (s : State) : State :=
  match s.group? g with
  | none => s
  | some k =>
    let it : GateItem := { job := k.job, take := (k.bank isB).take, released := false, kept := [], isSealed := false, slot := none, cohort := 0, scale := 0,
                           elems := [], dest := none, dest2 := none, handle2 := 0, descs := [] }
    { s with gate := { s.gate with items := Table.put s.gate.items (itemKey g isB) it } }

/-- A bank becomes FINAL (R54): what waits for it completes, GATE receives it where the graph says so, and a bank that no station
reads goes on to ZEROING. -/
def bankFinal (g : Nat) (isB : Bool) (s : State) : State :=
  match s.group? g with
  | none => s
  | some k =>
    let b := k.bank isB
    let s := drainEnded g isB b.longSum (s.updBank g isB (fun b => { b with mode := .final, finished := [] }))
    let toGate := match (s.job? k.job).bind (·.graph) with
      | none => false
      | some gr => gr.carries 5 10 g
    releaseBank g isB (if toGate then holdItem g isB s else s)

/-- A DRAINING bank has nothing in flight (R54). -/
def State.drained (s : State) (g : Nat) (isB : Bool) : Bool :=
  match s.group? g with
  | none => false
  | some k =>
    let b := k.bank isB
    b.mode == .draining && !(s.inFlight g).any (fun e => b.takes e.2)

/-- BANK_ZEROED: zeroing ends (R51). -/
def execBankZeroed (group : Nat) (bankB : Bool) (s : State) : Host.Outcome State Fault Refusal :=
  .next (match s.group? group with
    | none => s
    | some k => if (k.bank bankB).mode = .zeroing then s.updBank group bankB (fun _ => Bank.zeroed k.startScale) else s)

/-! ## Failure of a group (R182, R193) -/

/-- A failed group: its unreleased banks and items are erased, and what waits for it ends. -/
def failGroup (g : Nat) (why : GroupFail) (isB : Bool) (core seq slice epoch : Nat) (s : State) : State :=
  match s.group? g with
  | none => s
  | some k =>
    let st := why.status
    let s := post .groupFailed 0x01 core (BitVec.ofNat 8 k.job) (BitVec.ofNat 8 g)
      (toLE 2 st.code ++ [if isB then 1 else 0, 0] ++ toLE 4 (k.bank isB).take ++ toLE 8 seq ++ toLE 2 slice ++ toLE 2 epoch) s
    let s := dropFlight g (fun _ => true) (s.updGroup g (fun k => { k with failed := some why }))
    let released (b : Bool) : Bool := ((Table.get? s.gate.items (itemKey g b)).map (·.released)).getD false
    let s := (s.cmds.filter (fun e => (s.names e.2 e.2.block).2 = some g ∧ e.2.op ≠ .groupClose ∧ e.2.phase ≠ .fetched)).foldl
      (fun s e => complete e.1 st 0 0 s) s
    let s := [false, true].foldl (fun s b =>
      let m := (k.bank b).mode
      let s := if released b then s else { s with gate := { s.gate with items := Table.del s.gate.items (itemKey g b) } }
      if m = .filling ∨ m = .draining ∨ (m = .final ∧ !released b) then drainEnded g b false (beginZeroing g b s) else s) s
    let s := s.masks.ledgers.foldl (fun s e => dropSum e.1 g s) s
    advance k.job { s with masks := { s.masks with ledgers := Table.mapAll s.masks.ledgers (fun _ l => { l with
        items := l.items.filter (fun x => x.group ≠ g) }) } }

/-- The status with which every command that names a failed group completes, other than GROUP_CLOSE (R182). -/
def State.groupFails (s : State) (c : Cmd) : Option Status :=
  if c.op = .groupClose then none
  else match s.names c c.block with
    | (some j, some g) => ((s.groupOf j g).bind (·.failed)).map (·.status)
    | _ => none

/-! ## Takes (R52, R53) -/

/-- The bank that a take opens on: the one in ZERO, or of two the other than that filled last (R52). -/
def Group.nextBank (g : Group) : Option Bool :=
  match g.bankA.mode == .zero, g.bankB.mode == .zero with
  | true, true => some (match g.lastB with | some b => !b | none => false)
  | true, false => some false
  | false, true => some true
  | false, false => none

/-- A ZERO bank becomes FILLING for a take from the group's next sequence number. -/
def Group.fill (g : Group) (isB : Bool) (take : Nat) : Group :=
  let b : Bank := { Bank.zeroed g.startScale with mode := .filling, take := take, start := g.nextSeq }
  { (g.updBank isB (fun _ => b)) with lastB := some isB }

/-- A group of a job whose next bank becomes FILLING for a take. -/
def Group.takeOpened (k : Group) (j t : Nat) : Group :=
  if k.job ≠ j then k
  else match k.nextBank with
    | some b => k.fill b t
    | none => k

/-- TAKE of a partial tile held by reference. -/
def State.heldTake (s : State) (p : PartialTile) : Nat := leNat (memReads s.mem (p.addr + 8) 4)

/-- Partial tiles of a job that are held by reference and satisfy a predicate on their TAKE are discarded and counted (R189). -/
def dropHeld (j : Nat) (gone : Nat → Bool) (s : State) : State :=
  let mine (p : PartialTile) : Bool := p.job == j && gone (s.heldTake p)
  { s with accum := { s.accum with held := s.accum.held.filter (fun p => !mine p),
                                   dropLate := satAdd s.accum.dropLate (s.accum.held.filter mine).length } }

/-- TAKE_OPEN (R52). -/
def opTakeOpen (_ : Nat) (c : Cmd) (s : State) : Verdict :=
  let t := c.inl 0 4
  match s.job? c.job with
  | none => notPermitted 0
  | some jb =>
    checks [((jb.lastTake.map (fun x => decide (x < t))).getD true, inlineAt 0), resInline c 4 28] <|
      let gs := s.jobGroups c.job
      if jb.filling.isSome ∨ jb.graph.isNone ∨ gs.any (fun e => e.2.failed.isSome) then notPermitted 0
      else if gs.any (fun e => e.2.nextBank.isNone) then .waits
      else
        let mask := (gs.map (fun e => if e.2.nextBank = some true then 2 ^ e.1 else 0)).sum
        let s := { s with accum := { s.accum with groups := Table.mapAll s.accum.groups (fun _ k => k.takeOpened c.job t) } }
        let s := s.updJob c.job (fun jb =>
          { jb with lastTake := some t, filling := some t, tokens := [], trigs := List.replicate 64 0 })
        ok mask (dropHeld c.job (fun x => decide (x < t)) (rotateJobPair c.job s))

/-- TAKE_OPEN. -/
def execTakeOpen (cid : Nat) (s : State) : Host.Outcome State Fault Refusal := .next (runRow .takeOpen opTakeOpen cid s)

/-- TAKE_OPEN_RESUME: a waiting TAKE_OPEN finds its banks (R52). -/
def execTakeOpenResume (cid : Nat) (s : State) : Host.Outcome State Fault Refusal := .next (runRow .takeOpen opTakeOpen cid s)

/-- A group of a job whose FILLING bank becomes DRAINING. -/
def Group.drainFilling (k : Group) (j : Nat) : Group :=
  if k.job ≠ j then k
  else match k.filling with
    | some b => k.updBank b (fun x => { x with mode := .draining, stop := some k.nextSeq })
    | none => k

/-- The close barrier of a take: FILLING banks become DRAINING (R52). -/
def closeBarrier (j : Nat) (s : State) : State :=
  let s := { s with accum := { s.accum with groups := Table.mapAll s.accum.groups (fun _ k =>
    k.drainFilling j) } }
  s.updJob j (fun jb => { jb with filling := none })

/-- Places a group's mask sum: beside its banks where the store has room, and otherwise in bobbin memory, tile by tile over the stacks as the
bank tiles of a spilled bank lie (R200, R348). -/
def placeSum (l g : Nat) (s : State) : Option State :=
  match s.group? g with
  | none => some s
  | some k =>
    if !k.spilled ∧ s.fitsStore k 1 then
      some { s with masks := { s.masks with ledgers := Table.upd s.masks.ledgers l (fun x => { x with inStore := x.inStore ++ [g] }) } }
    else allocSpread (.maskSum l g) k.bankTiles s

/-- The seed ledger of a closing take of a mode-M job, in protected memory with a mask sum for each group that has a bank in the take; none
where they do not fit (R200; log entry 117). -/
def formLedger (j l : Nat) (jb : Job) (take : Nat) (s : State) : Option State :=
  let k : Ledger := { take := take, isSealed := false, partials := false, committed := jb.tokens, prg := jb.prg, thresh := jb.thresh,
                      states := [], selfs := [], pairs := [], sums := [], items := [], inStore := [], removed := [] }
  let mine := (s.jobGroups j).filter (fun e => [e.2.bankA, e.2.bankB].any (fun b => decide (b.take = take) && b.mode != .zero))
  mine.foldl (fun (m : Option State) e => m.bind (placeSum l e.1))
    (alloc (.ledger l) (16 * jb.tokens.length) { s with masks := { s.masks with ledgers := Table.put s.masks.ledgers l k } })

/-- The DRAINING banks of a job. -/
def State.drainingBanks (s : State) (j : Nat) : List (Nat × Bool) :=
  ((s.jobGroups j).map (fun e => ([false, true].filter (fun b => (e.2.bank b).mode == .draining)).map (fun b => (e.1, b)))).flatten

/-- The FILLING banks of a job. -/
def State.fillingBanks (s : State) (j : Nat) : List (Nat × Bool) :=
  ((s.jobGroups j).map (fun e => ([false, true].filter (fun b => (e.2.bank b).mode == .filling)).map (fun b => (e.1, b)))).flatten

/-- A GROUP_DRAIN of the job that started earlier still waits for its barrier (R56). -/
def State.drainWaits (s : State) (cid j : Nat) : Bool :=
  s.cmds.any (fun e => decide (e.1 < cid) && e.2.op == .groupDrain && e.2.job == j && e.2.phase == .started)

/-- TAKE_CLOSE (R52, R56, R200). It waits for the banks that its own barrier makes DRAINING, not for one that an earlier GROUP_DRAIN has
left DRAINING: DESIGN CHOICE (log entry 110). -/
def opTakeClose (cid : Nat) (c : Cmd) (s : State) : Verdict :=
  checks [resInline c 0 32] <|
    match s.job? c.job with
    | none => notPermitted 0
    | some jb =>
      match jb.filling with
      | none => notPermitted 0
      | some t =>
        if s.drainWaits cid c.job then .stalls
        else
          let slot := [2 * c.job, 2 * c.job + 1].find? (fun l => !Table.has s.masks.ledgers l)
          if jb.mode = some .masked ∧ slot.isNone then .waits
          else
            let banks := s.fillingBanks c.job
            let s := closeBarrier c.job s
            match (if jb.mode = some .masked then formLedger c.job (slot.getD 0) jb t s else some s) with
            | none => .waits
            | some s => if banks.isEmpty then ok 0 (freeLedgers s) else .goes (commit cid (.draining banks false 0) s)

/-- TAKE_CLOSE. -/
def execTakeClose (cid : Nat) (s : State) : Host.Outcome State Fault Refusal := .next (runRow .takeClose opTakeClose cid s)

/-- TAKE_CLOSE_BARRIER: a waiting TAKE_CLOSE finds a free ledger (R200). -/
def execTakeCloseBarrier (cid : Nat) (s : State) : Host.Outcome State Fault Refusal := .next (runRow .takeClose opTakeClose cid s)

/-- Commands that wait for one of these banks complete with a status (R52, R359). -/
def endDrains (banks : List (Nat × Bool)) (st : Status) (s : State) : State :=
  s.cmds.foldl (fun s e =>
    match e.2.work with
    | .draining bs _ _ => if bs.any banks.contains then complete e.1 st 0 0 s else s
    | _ => s) s

/-- The FINAL banks of a job that belong to one of these takes. -/
def State.finalBanks (s : State) (j : Nat) (takes : List Nat) : List (Nat × Bool) :=
  ((s.jobGroups j).map (fun e => ([false, true].filter (fun b =>
    (e.2.bank b).mode == .final && takes.contains (e.2.bank b).take)).map (fun b => (e.1, b)))).flatten

/-- Aborts those of a job's FILLING and DRAINING takes that satisfy a predicate: the close barrier, then their banks, contributions
and ledgers are discarded and what waits for them ends (R52, R210, R359). A FINAL bank that a GROUP_DRAIN has cut from such a take leaves
FINAL too, and what reads it ends (R51). -/
def abortTakesIf (j : Nat) (p : Nat → Bool) (s : State) : State :=
  let filling := ((s.job? j).bind (·.filling)).toList.filter p
  let s := if filling.isEmpty then s else closeBarrier j s
  let takeOf (e : Nat × Bool) : Nat := ((s.group? e.1).map (fun k => (k.bank e.2).take)).getD 0
  let banks := (s.drainingBanks j).filter (fun e => p (takeOf e))
  let takes := filling ++ banks.map takeOf
  let s := endDrains banks .aborted s
  let s := banks.foldl (fun s e => match s.group? e.1 with
    | none => s
    | some k => beginZeroing e.1 e.2 (dropFlight e.1 (fun q => (k.bank e.2).takes q) s)) s
  let s := (s.cmds.filter (fun e => e.2.job == j && (match e.2.work with | .unmasking _ t => takes.contains t | _ => false))).foldl
    (fun s e => complete e.1 .aborted 0 0 s) s
  let s := (s.finalBanks j takes).foldl (fun s e => beginZeroing e.1 e.2 (abortCmds (fun _ c => c.readsBank e.1 e.2) s)) s
  advance j <| (s.masks.ledgers.filter (fun e => e.1 / 2 = j ∧ takes.contains e.2.take)).foldl (fun s e => freeLedger e.1 s) s

/-- Aborts every FILLING and DRAINING take of a job (R52). -/
def abortTakes (j : Nat) (s : State) : State := abortTakesIf j (fun _ => true) s

/-- TAKE_ABORT (R52). -/
def opTakeAbort (_ : Nat) (c : Cmd) (s : State) : Verdict :=
  checks [resInline c 0 32] <|
    match s.job? c.job with
    | none => notPermitted 0
    | some jb =>
      if jb.filling.isNone ∧ (s.drainingBanks c.job).isEmpty then notPermitted 0 else .done .aborted 0 0 (abortTakes c.job s)

/-- TAKE_ABORT. -/
def execTakeAbort (cid : Nat) (s : State) : Host.Outcome State Fault Refusal := .next (runRow .takeAbort opTakeAbort cid s)

/-- GROUP_DRAIN (R53). -/
def opGroupDrain (cid : Nat) (c : Cmd) (s : State) : Verdict :=
  checks [resInline c 0 32] <|
    match s.groupOf c.job c.group with
    | none => .refuse .groupClosed 0 0
    | some k =>
      match k.failed, k.filling with
      | some f, _ => .refuse f.status 0 0
      | none, none => notPermitted 0
      | none, some b =>
        if (k.bank (!b)).mode ≠ .zero then .waits
        else
          let t := (k.bank b).take
          let s := s.updGroup c.group (fun k =>
            ((k.updBank b (fun x => { x with mode := .draining, stop := some k.nextSeq, cut := true })).fill (!b) t).updBank (!b)
              (fun x => { x with cut := true }))
          .goes (commit cid (.draining [(c.group, b)] false k.nextSeq) s)

/-- GROUP_DRAIN. -/
def execGroupDrain (cid : Nat) (s : State) : Host.Outcome State Fault Refusal := .next (runRow .groupDrain opGroupDrain cid s)

/-- DRAIN_BARRIER_ACCEPTED: the commit arbiter accepts a waiting barrier once the other bank is in ZERO (R53). -/
def execDrainBarrierAccepted (cid : Nat) (s : State) : Host.Outcome State Fault Refusal :=
  .next (runRow .groupDrain opGroupDrain cid s)

/-! ## Closing a group (R55) -/

/-- A group may close: no filling take, and no bank DRAINING or FINAL with a consumer not yet finished. -/
def State.mayClose (s : State) (g : Nat) (k : Group) : Bool :=
  ((s.job? k.job).map (fun jb => jb.filling.isNone)).getD true
    && [false, true].all (fun b => (k.bank b).mode != .draining && !((k.bank b).mode == .final && s.unread g b))

/-- A group closes: its banks, items, policy and routes are erased, its number is free, and a graph that serves it is withdrawn. -/
def closeGroup (g : Nat) (k : Group) (s : State) : State :=
  let s := s.updJob k.job (fun jb => match jb.graph with
    | some gr => if gr.servesAny g then { jb with graph := none } else jb
    | none => jb)
  let s := dropFlight g (fun _ => true) s
  let s := advance k.job (dealloc (.bank g false) (dealloc (.bank g true) s))
  freeLedgers { s with
    accum := { s.accum with groups := Table.del s.accum.groups g, claimed := s.accum.claimed.filter (fun x => x.2.1 ≠ g) }
    gate := { s.gate with policies := Table.del s.gate.policies g,
                          items := Table.del (Table.del s.gate.items (itemKey g false)) (itemKey g true) }
    masks := { s.masks with ledgers := Table.mapAll s.masks.ledgers (fun _ l => { l with
      sums := l.sums.filter (fun x => x.1 ≠ g), items := l.items.filter (fun x => x.group ≠ g),
      inStore := l.inStore.filter (· ≠ g) }) }
    warp := { s.warp with routes := Table.del s.warp.routes g,
                          exported := s.warp.exported.filter (fun x => x.1.1 ≠ g) } }

/-- GROUP_CLOSE (R55). -/
def opGroupClose (_ : Nat) (c : Cmd) (s : State) : Verdict :=
  checks [resInline c 0 32] <|
    match s.groupOf c.job c.group with
    | none => .refuse .groupClosed 0 0
    | some k => if s.mayClose c.group k then ok 0 (closeGroup c.group k s) else notPermitted 0

/-- GROUP_CLOSE. -/
def execGroupClose (cid : Nat) (s : State) : Host.Outcome State Fault Refusal := .next (runRow .groupClose opGroupClose cid s)

/-! ## Slice migration (R57 to R61) -/

/-- An uncommitted tile of a migrating slice passes to the new core, into the lowest free slot there (R163): its descriptor carries the
new epoch. -/
def passTile (core epoch mark : Nat) (t : SpliceTile) : SpliceTile :=
  { t with core := core, epoch := epoch, mark := mark, desc := redate epoch t.desc }

/-- Steps 1 and 2 of a migration: the boundary is recorded, routing switches, and tiles not yet committed move with it (R57, R163).
The device starts one when a core retires (cause 0) and at a station tile timeout (cause 1). When firmware rebalances placement the
manual leaves open, and the model's firmware never does (R61, CAUSE 2): DESIGN CHOICE (log entry 110). -/
def startMove (gn j newCore cause : Nat) (s : State) : State :=
  match s.group? gn with
  | none => s
  | some g =>
    let k := unit g.slices j
    let take := (g.filling.map (fun b => (g.bank b).take)).getD 0
    let epoch := (k.epoch + 1) % 65536
    let step : MoveStep := { boundary := g.nextSeq, oldCore := k.core, oldEpoch := k.epoch, core := newCore, epoch := epoch,
                             cause := cause, take := take }
    let s := s.updGroup gn (fun g => { g with slices := g.slices.set j { core := newCore, epoch := epoch, moves := k.moves ++ [step] } })
    s.ingest.msgs.foldl (fun s e =>
      if e.2.stage = .committed then s
      else (e.2.tiles.filter (fun t => t.group = gn ∧ g.sliceOf t.tile = j)).foldl (fun s t =>
        let mark := s.freeMark newCore
        s.updMsg e.1 (fun m => { m with tiles := m.tiles.map (fun x =>
          if x.segment = t.segment then passTile newCore epoch mark x else x) })) s) s

/-- Crossings from one field to another: none within a field, two on a diagonal (R12). -/
def crossingsBetween (f g : Nat) : Nat :=
  if f = g then 0 else if f + g = 3 then 2 else 1

/-- The fields that traffic from one field to another passes through, in order: between F0 and F3 it passes through F1, and between F1
and F2 through F0 (R12). -/
def fieldPath (f g : Nat) : List Nat :=
  if f = g then [f] else if f + g = 3 then [f, if f = 0 ∨ f = 3 then 1 else 0, g] else [f, g]

/-- The crossing that joins two edge-adjacent fields (R12, R103). -/
def crossingOf (f g : Nat) : Nat :=
  match min f g, max f g with
  | 0, 1 => 0 | 2, 3 => 1 | 0, 2 => 2 | _, _ => 3

/-- A unit of this kind and number is under recovery (R399 to R402; kinds as R410 numbers them). -/
def State.recovering (s : State) (p : Nat → Nat → Bool) : Bool := s.faults.recoveries.any (fun r => p r.kind r.unit)

/-- A unit, kinds as R410 numbers them, lies on a path into a core: an engine of the core or the whole of it, a field on the way, or a
channel of a crossing on the way. -/
def unitOnPath (kind u core : Nat) (path crossings : List Nat) : Bool :=
  match kind with
  | 0 | 3 | 4 | 5 => u == core
  | 1 | 2 => u / 2 == core
  | 11 => crossings.contains (u / 64)
  | 15 => path.contains u
  | _ => false

/-- The path of tiles that come from a field to a core crosses a unit under recovery: an engine or the whole of the core, a field on
the way, or a channel of a crossing on the way (R12, R400). -/
def State.pathHeld (s : State) (from_ core : Nat) : Bool :=
  let path := fieldPath from_ (core / 9)
  let crossings := (path.zip (path.drop 1)).map (fun e => crossingOf e.1 e.2)
  s.recovering (fun kind u => unitOnPath kind u core path crossings)

/-- The field of the region that a message lies in: that of its stack (R14). -/
def State.fieldOfMsg (s : State) (m : Message) : Nat :=
  match Table.get? s.trans.regions m.region with
  | some r => (stackOf r.base).1 / 2
  | none => 0

/-- A tile of the slice waits at its core and no unit on its path is under recovery, so that the station tile timeout runs (R400). -/
def State.timed (s : State) (gn j : Nat) (g : Group) (core : Nat) : Bool :=
  (s.inFlight gn).any (fun e => match s.msg? e.1 with
    | none => false
    | some m => !s.doneInSlice m gn g j && !s.pathHeld (s.fieldOfMsg m) core)

/-- A tile of the slice has passed the station tile timeout: firmware migrates the slice to another active core, which the manual does
not choose (R57). -/
def tileTimeout (gn j : Nat) (s : State) : State :=
  match s.group? gn with
  | none => s
  | some g =>
    let k := unit g.slices j
    let others := s.activeCores.filter (· ≠ k.core)
    if j ≥ g.slices.length ∨ g.failed.isSome ∨ !k.moves.isEmpty ∨ others.isEmpty ∨ !s.timed gn j g k.core then s
    else
      let (v, s) := s.draw
      startMove gn j (unit others (v.toNat % others.length)) 1 s

/-- STATION_TILE_TIMEOUT (R57). -/
def execStationTileTimeout (group slice : Nat) (s : State) : Host.Outcome State Fault Refusal := .next (tileTimeout group slice s)

/-- The old placement has finished every contribution below the boundary (R57 step 3). -/
def State.oldDone (s : State) (gn : Nat) (g : Group) (j m : Nat) : Bool :=
  (s.inFlight gn).all (fun e => decide (m ≤ e.2) || ((s.msg? e.1).map (fun k => s.doneInSlice k gn g j)).getD true)

/-- The end of step 4 of the oldest migration of a slice: the new core has taken the old placement's partial, which changes no element,
and one SLICE_MIGRATED is posted (R57, R58, R61). -/
def mergeMove (group slice : Nat) (g : Group) (k : Slice) (m : MoveStep) (s : State) : State :=
  let s := s.updGroup group (fun g => { g with slices := g.slices.set slice { k with moves := k.moves.drop 1 } })
  let s := { s with faults := { s.faults with migrations := satAdd s.faults.migrations 1 } }
  let jb := BitVec.ofNat 8 g.job
  let gb := BitVec.ofNat 8 group
  let s := addTrace 6 jb gb (256 + m.oldCore) (m.oldCore / 9)
    ([gb, 0] ++ toLE 2 slice ++ toLE 2 m.epoch ++ [BitVec.ofNat 8 m.core]) s
  post .sliceMigrated 0x01 m.oldCore jb gb
    (toLE 2 slice ++ toLE 2 m.epoch ++ [BitVec.ofNat 8 m.oldCore, BitVec.ofNat 8 m.core, BitVec.ofNat 8 m.cause, 0]
      ++ toLE 8 m.boundary ++ toLE 4 m.take) s

/-- SLICE_MIGRATION_MERGE: once the old placement has finished every contribution below the boundary, its partial moves (R57). -/
def execSliceMigrationMerge (group slice : Nat) (s : State) : Host.Outcome State Fault Refusal :=
  .next (match s.group? group with
    | none => s
    | some g =>
      let k := unit g.slices slice
      match k.moves.head? with
      | none => s
      | some m => if s.oldDone group g slice m.boundary then mergeMove group slice g k m s else s)

/-- LATE_EPOCH_TILE: a tile of an earlier placement epoch after the merge fails the group (R59). Epochs count modulo 2^16, and the
manual does not say which are earlier: DESIGN CHOICE, the 32 767 before the present one (log entry 110). -/
def execLateEpochTile (group slice seq epoch : Nat) (s : State) : Host.Outcome State Fault Refusal :=
  .next (match s.group? group with
    | none => s
    | some g =>
      let k := unit g.slices slice
      let age := (k.epoch + 65536 - epoch % 65536) % 65536
      if slice ≥ g.slices.length ∨ g.failed.isSome ∨ !k.moves.isEmpty ∨ age = 0 ∨ 32768 ≤ age then s
      else failGroup group .seqGap ((g.bankOfSeq seq).getD false) k.core seq slice epoch s)

end Sys2Proof.Machine
end

