-- ==== Sys2Proof/Machine/Reed.lean ====
section
/-! DEFINITION. The reed: accumulator arithmetic, descents, the trusted-mode clip, the overflow repeat and spilled banks (R164 to
R185). -/

namespace Sys2Proof.Machine

open Sys2Proof

/-! ## Input elements (R167, R171, R177, R227) -/

/-- The prime that applies to element `e` of an RNS61 group (R224). -/
def ParamSet.primeAt (p : ParamSet) (e : Nat) : Nat := unit p.primes (e / 2 ^ p.logN % p.limbs)

/-- The prime of element `e` of a group, zero where it has none. -/
def State.prime (s : State) (g : Group) (e : Nat) : Nat := ((s.paramSet? g.paramSet).map (·.primeAt e)).getD 0

/-- A two's complement number of `n` bytes. -/
def signedBytes (n v : Nat) : Int := if 2 * v < 256 ^ n then v else (v : Int) - 256 ^ n

/-- A floating-point input of a format. -/
def floatInput (format raw : Nat) : Fp :=
  match format with
  | 0x10 => Fp.decode f16 raw
  | 0x11 => Fp.decode bf16 raw
  | _ => Fp.decode f32 raw

/-- An input element in binary64 (R171, R177): non-finite elements are +0. -/
def inputF (g : Group) (raw : Nat) : Word64 :=
  if isFix g.format then fscaled (signedBytes (formatBytes g.format) raw) (-(g.frac : Int))
  else
    let v := floatInput g.format raw
    if v.finite then BitVec.ofNat 64 (v.encode f64) else fzero

/-- An input element that is a NaN or an infinity. -/
def nonFinite (g : Group) (raw : Nat) : Bool := isFloat g.format && !(floatInput g.format raw).finite

/-- The `k`-th accepted word of a seeded expansion, reduced (R227); `fuel` bounds the words drawn (log entry 32). -/
def acceptedWord (seed : Bytes) (q : Nat) : Nat → Nat → Nat → Nat
  | 0, _, _ => 0
  | fuel + 1, k, i =>
    let w := leNat (stream 8 (fun b => shakeByte seed (8 * i + b)))
    if w < 2 ^ 64 / q * q then (if k = 0 then w % q else acceptedWord seed q fuel (k - 1) (i + 1))
    else acceptedWord seed q fuel k (i + 1)

/-- Words a seeded expansion may draw in the model. -/
def expandFuel : Nat := 2 ^ 40

/-- Element `e` of the c1 half of a seeded contribution (R224, R227). -/
def expandedElem (p : ParamSet) (seeds : Bytes) (e : Nat) : Nat :=
  let n := 2 ^ p.logN
  let limb := e / n % p.limbs
  let ct := e / (p.limbs * n) % (max 1 (seeds.length / 32))
  acceptedWord (slice seeds (32 * ct) 32 ++ ascii "LN7300-C1" ++ [BitVec.ofNat 8 limb]) (unit p.primes limb) expandFuel (e % n) 0

/-- The raw value that a contribution gives element `e` of its group. -/
def State.rawAt (s : State) (g : Group) (t : SpliceTile) (e : Nat) : Nat :=
  match s.seedT0 g.format g.paramSet g.count, s.paramSet? g.paramSet with
  | some t0, some p => if t.tile < t0 then leAt t.data (8 * (e % g.per)) 8 else expandedElem p t.data (e - t0 * 8192)
  | _, _ => leAt t.data (formatBytes g.format * (e % g.per)) (formatBytes g.format)

/-- Elements that a token of a tile covers (R164). -/
def Group.tokenElems (g : Group) (tile token : Nat) : List Nat :=
  let n := 64 / formatBytes g.format
  ((List.range n).map (fun i => tile * g.per + token * n + i)).filter (fun e => decide (e < g.count))

/-! ## Accumulator arithmetic (R170 to R174, R179) -/

/-- One ACC64C step: (S, C) takes y (R171). -/
def acc64c (x c y : Word64) : Word64 × Word64 :=
  let t := fadd x y
  let z := fsub t x
  let e := fadd (fsub x (fsub t z)) (fsub y z)
  (t, fadd c e)

/-- One STAT step (R174). -/
def statStep (el : Elem) (y : Word64) : Elem :=
  let n := min (el.a + 1) 0xFFFFFFFF
  let d := fsub y el.x
  let mean := fadd el.x (fdiv d (fint n))
  { a := n, x := mean, y := fadd el.y (fmul d (fsub y mean)) }

/-- A value lies in the signed range of `w` bytes. -/
def inSigned (w : Nat) (v : Int) : Bool := decide (-(2 ^ (8 * w - 1) : Int) ≤ v ∧ v < 2 ^ (8 * w - 1))

/-- What a fixed-point contribution adds at exponent E: RHE((x × c) × 2^(FRAC + E)) (R178, R179). -/
def fixedTerm (g : Group) (scale : Int) (clip : Word64) (raw : Nat) : Int :=
  (Fp.scale (g.frac + scale) (dec64 (fmul (inputF g raw) clip))).rhe

/-- Adds one input element to a bank element; nothing on an overflow (R170 to R174, R179). -/
def addElem (g : Group) (prime : Nat) (scale : Int) (clip : Word64) (raw : Nat) (el : Elem) : Option Elem :=
  if isU g.format then some { el with a := (el.a + raw) % (2 ^ (8 * g.w) : Int) }
  else if isRns g.format then
    let v := el.a + (raw % prime : Nat)
    some { el with a := if v ≥ prime then v - prime else v }
  else if isFix g.format then
    let y := fixedTerm g scale clip raw
    if inSigned g.w y && inSigned g.w (el.a + y) then some { el with a := el.a + y } else none
  else if g.kind = 3 then
    let y := if nonFinite g raw then fzero else fmul (inputF g raw) clip
    let (x, c) := acc64c el.x el.y y
    some { el with x := x, y := c }
  else some (if nonFinite g raw then el else statStep el (fmul (inputF g raw) clip))

/-! ## The clip (R177, R178) -/

/-- A tile partial q_t in kind SQSUM: 16 lane sums of squares, added in lane order (R177). -/
def tileSquares (g : Group) (raws : List Nat) : Word64 :=
  let lane (l : Nat) : Word64 :=
    ((List.range ((raws.length + 15 - l) / 16)).map (fun i => inputF g (raws.getD (16 * i + l) 0))).foldl
      (fun a x => fadd a (fmul x x)) fzero
  (List.range 16).foldl (fun a l => fadd a (lane l)) fzero

/-- Q of a contribution: the tile partials added in ascending tile order, S + C (R177). -/
def squareSum (qs : List Word64) : Word64 :=
  let r := qs.foldl (fun (a : Word64 × Word64) q => acc64c a.1 a.2 q) (fzero, fzero)
  fadd r.1 r.2

/-- The clip scale c (R178). -/
def clipScale (norm q : Word64) : Word64 :=
  if (dec64 q).le (dec64 (fmul norm norm)) then fone else fdiv norm (fsqrt q)

/-- The clip scale that a message holds for a group. -/
def Message.clipOf (k : Message) (g : Nat) : Word64 := ((k.clip.find? (fun e => e.1 = g)).map (·.2)).getD fone

/-! ## Counts (R173) -/

/-- A bank's contribution count and cohort rise; above 2^26 an ACC64C bank carries LONG_SUM, with one event (R153, R173, R252). -/
def raiseCount (gn : Nat) (isB : Bool) (n : Nat) (s : State) : State :=
  match s.group? gn with
  | none => s
  | some g =>
    let b := g.bank isB
    let count := min (b.count + n) 0xFFFFFFFF
    let long := g.kind = 3 ∧ 2 ^ 26 < b.count + n
    let s := s.updBank gn isB (fun b => { b with count := count, cohort := b.cohort + n, longSum := b.longSum || decide long })
    if long ∧ !b.longSum then
      let core := g.coreOf 0
      postFor .longSum 0x01 core (BitVec.ofNat 8 g.job) (BitVec.ofNat 8 gn)
        ([if isB then 1 else 0, 0, 0, 0] ++ toLE 4 b.take ++ toLE 8 (s.coarseN count)) (s.coarsens 2) none s
    else s

/-! ## Descents (R49, R164, R165, R181) -/

/-- Changes the contribution tile of a message. -/
def updTile (m gn tile : Nat) (f : SpliceTile → SpliceTile) (s : State) : State :=
  s.updMsg m (fun k => { k with tiles := k.tiles.map (fun t => if t.group = gn ∧ t.tile = tile then f t else t) })

/-- The contribution tile of a message, once its plaintext is held. -/
def Message.tile? (k : Message) (gn tile : Nat) : Option SpliceTile := k.tiles.find? (fun t => t.group = gn ∧ t.tile = tile)

/-- The message that holds a sequence number in flight. -/
def State.holder (s : State) (gn seq : Nat) : Option (Nat × Message) :=
  ((s.inFlight gn).find? (fun e => e.2 = seq)).bind (fun e => (s.msg? e.1).map (fun k => (e.1, k)))

/-- A contribution's token position has been written. -/
def State.written (s : State) (k : Message) (gn : Nat) (g : Group) (tile token : Nat) : Bool :=
  match k.tile? gn (s.carrier g tile) with
  | none => false
  | some t => t.done.contains (s.position g tile token)

/-- A contribution has been written everywhere. -/
def State.whole (s : State) (k : Message) (gn : Nat) (g : Group) : Bool :=
  (List.range (s.contribTiles g)).all (fun t => match k.tile? gn t with
    | none => false
    | some x => decide (s.positions g t ≤ x.done.length))

/-- The contributions that may leave flight, in sequence order (R54): a fixed-point one only when none below it can still overflow. -/
def retireBank (gn : Nat) (isB : Bool) (s : State) : State :=
  match s.group? gn with
  | none => s
  | some g =>
    let mine := (s.inFlight gn).filter (fun e => (g.bank isB).takes e.2)
    let ready (e : Nat × Nat) : Bool := ((s.msg? e.1).map (fun k => s.whole k gn g)).getD false
    let out := if isFix g.format then mine.takeWhile ready else mine.filter ready
    out.foldl (fun s e => leaveFlight e.1 gn s) s

/-- Adds one contribution's token to a bank; nothing on an overflow. -/
def addToken (s : State) (g : Group) (k : Message) (gn tile token : Nat) (b : Bank) : Option Bank :=
  match k.tile? gn (s.carrier g tile) with
  | none => none
  | some t =>
    (g.tokenElems tile token).foldl (fun (m : Option Bank) e => m.bind (fun b =>
      let raw := s.rawAt g t e
      (addElem g (s.prime g e) b.scale (k.clipOf gn) raw (b.elem e)).map (fun el =>
        let b := b.setElem e el
        if nonFinite g raw then { b with nonfinite := min (b.nonfinite + 1) 0xFFFFFFFF } else b))) (some b)

/-- A slice reports an overflow at a sequence number (R181 step 1). -/
def report (gn : Nat) (isB : Bool) (slice seq : Nat) (s : State) : State :=
  s.updBank gn isB (fun b => { b with reports := b.reports ++ [(slice, seq)] })

/-- The least sequence number that a slice has reported. -/
def Bank.reported (b : Bank) (slice : Nat) : Option Nat :=
  (b.reports.filter (fun r => r.1 = slice)).foldl (fun (m : Option Nat) r => match m with
    | none => some r.2
    | some x => some (min x r.2)) none

/-- A token position of a contribution is written; a tile of a large message that is written everywhere frees its slot (R156; log
entry 33). -/
def markWritten (s : State) (m gn : Nat) (g : Group) (large : Bool) (tile token : Nat) : State :=
  let c := s.carrier g tile
  updTile m gn c (fun t =>
    let done := t.done ++ [s.position g tile token]
    { t with done := done, slot := if large ∧ s.positions g c ≤ done.length then none else t.slot }) s

/-- The ACCUMULATE node has taken the contribution tile that carries a tile of the group vector (R36). -/
def State.taken (s : State) (k : Message) (gn : Nat) (g : Group) (tile : Nat) : Bool :=
  ((k.tile? gn (s.carrier g tile)).map (fun t => t.place == .node)).getD false

/-- The contributions of a descent, or nothing where one is not in flight, has not been taken by the node (R36), or has been written
there. -/
def State.rows (s : State) (gn : Nat) (g : Group) (tile token : Nat) (seqs : List Nat) : Option (List (Nat × Nat × Message)) :=
  seqs.foldl (fun (m : Option (List (Nat × Nat × Message))) q => m.bind (fun l =>
    match s.holder gn q with
    | none => none
    | some (i, k) =>
      if s.taken k gn g tile ∧ !s.written k gn g tile token then some (l ++ [(q, i, k)]) else none)) (some [])

/-- Strict order allows the descent (R49): every lower contribution of the bank has been applied in every tile of the slice, one of the
descent's own in every other tile. -/
def State.inOrder (s : State) (gn : Nat) (g : Group) (isB : Bool) (tile : Nat) (seqs : List Nat) : Bool :=
  let j := g.sliceOf tile
  (s.inFlight gn).all (fun e => !(g.bank isB).takes e.2 || seqs.all (fun q => decide (q ≤ e.2))
    || ((s.msg? e.1).map (fun k =>
      if seqs.contains e.2 then s.doneBeside k gn g j tile else s.doneInSlice k gn g j)).getD true)

/-- Numbers rise strictly. -/
def ascending : List Nat → Bool
  | [] => true
  | [_] => true
  | a :: b :: r => decide (a < b) && ascending (b :: r)

/-- DESCENT_WRITTEN: a descent of at most 8 contributions at one token position ends, on one side of every migration boundary (R164,
R165, R181). An overflow leaves it unwritten and reports its contribution. -/
def execDescentWritten (group tile token : Nat) (seqs : List Nat) (s : State) : Host.Outcome State Fault Refusal :=
  .next (match s.group? group with
    | none => s
    | some g =>
      let j := g.sliceOf tile
      let sl := unit g.slices j
      match (seqs.head?.bind g.bankOfSeq) with
      | none => s
      | some isB =>
        let b := g.bank isB
        let seqs := if g.relaxed then seqs else sortBy id seqs
        let held : Bool := match b.reported j with | none => false | some r => seqs.any (fun q => decide (r ≤ q))
        let buffered : Bool := sl.crosses seqs || (!g.relaxed && seqs.any sl.buffers)
        if g.failed.isSome ∨ g.spilled ∨ 8 < seqs.length ∨ !ascending (sortBy id seqs) ∨ !seqs.all b.takes ∨ tile ≥ g.tiles
            ∨ s.tokens g tile ≤ token ∨ held ∨ buffered ∨ !(g.relaxed || s.inOrder group g isB tile seqs) then s
        else match s.rows group g tile token seqs with
          | none => s
          | some rows =>
            let r := rows.foldl (fun (a : Bank × Option Nat) x => match a.2 with
              | some _ => a
              | none => match addToken s g x.2.2 group tile token a.1 with
                | none => (a.1, some x.1)
                | some b => (b, none)) (b, none)
            match r.2 with
            | some q => report group isB j q s
            | none =>
              let s := s.updBank group isB (fun _ => r.1)
              advance g.job (retireBank group isB (rows.foldl (fun s x => markWritten s x.2.1 group g x.2.2.large tile token) s)))

/-! ## The scale arbiter (R180, R181, R182) -/

/-- What one contribution has added to a fixed-point bank so far, subtracted exactly (R181 step 3). -/
def undo (s : State) (g : Group) (gn : Nat) (k : Message) (b : Bank) : Bank :=
  (k.tiles.filter (fun t => t.group = gn)).foldl (fun b t =>
    t.done.foldl (fun b p => (g.tokenElems t.tile p).foldl (fun b e =>
      let el := b.elem e
      b.setElem e { el with a := el.a - fixedTerm g b.scale (k.clipOf gn) (s.rawAt g t e) }) b) b) b

/-- Every element of a bank is halved (R181 step 4). -/
def Bank.halve (b : Bank) : Bank :=
  { b with elems := (b.elems.map (fun e => (e.1, { e.2 with a := rheShift e.2.a 1 }))).filter (fun e => e.2.a ≠ 0) }

/-- The least reported contribution of a bank and the slice that reported it. -/
def Bank.candidate (b : Bank) : Option (Nat × Nat) :=
  b.reports.foldl (fun (m : Option (Nat × Nat)) r => match m with
    | none => some r
    | some x => if r.2 < x.2 then some r else some x) none

/-- Every slice has applied every contribution of the bank below s*, or has reported, and none is migrating (R181, R194). -/
def State.confirmable (s : State) (gn : Nat) (g : Group) (isB : Bool) (star : Nat) : Bool :=
  g.slices.all (fun k => k.moves.isEmpty)
    && (List.range g.slices.length).all (fun j => ((g.bank isB).reported j).isSome
      || (s.inFlight gn).all (fun e => !(g.bank isB).takes e.2 || decide (star ≤ e.2)
        || ((s.msg? e.1).map (fun k => s.doneInSlice k gn g j)).getD true))

/-- SCALE_CONFIRM: the arbiter confirms s*; later contributions are undone, the bank is halved, and they are re-issued (R181). -/
def execScaleConfirm (group : Nat) (bankB : Bool) (s : State) : Host.Outcome State Fault Refusal :=
  .next (match s.group? group with
    | none => s
    | some g =>
      let b := g.bank bankB
      match b.candidate with
      | none => s
      | some (slice, star) =>
        let core := (unit g.slices slice).core
        if g.failed.isSome ∨ !s.confirmable group g bankB star then s
        else if b.steps = 8 then failGroup group .scaleExhausted bankB core 0 0 0 s
        else
          let later := (s.inFlight group).filter (fun e => b.takes e.2 ∧ star ≤ e.2)
          let back := later.foldl (fun b e => ((s.msg? e.1).map (fun k => undo s g group k b)).getD b) b
          let half := Bank.halve back
          let nexts := half.nexts.map (fun x => (x.1, min x.2 star))
          let s := s.updBank group bankB (fun _ =>
            { half with scale := b.scale - 1, steps := b.steps + 1, reports := [], nexts := nexts })
          let s := later.foldl (fun s e => s.updMsg e.1 (fun k => { k with
            tiles := k.tiles.map (fun t => if t.group = group then { t with done := [] } else t) })) s
          let s := rewindTiles (fun m t => later.any (fun e => e.1 == m) && t.group == group && t.issued) s
          advance g.job <| post .scaleStep 0x01 core (BitVec.ofNat 8 g.job) (BitVec.ofNat 8 group)
            ([if bankB then 1 else 0, BitVec.ofNat 8 (b.steps + 1), BitVec.ofInt 8 (b.scale - 1), 0] ++ toLE 4 b.take) s)

/-- SCALE_CONFIRM_TIMEOUT: confirmation passed 2 ms, which acts as a station tile timeout of the slice (R408). -/
def execScaleConfirmTimeout (group slice : Nat) (s : State) : Host.Outcome State Fault Refusal :=
  .next (match s.group? group with
    | none => s
    | some g => if g.bankA.reports.isEmpty ∧ g.bankB.reports.isEmpty then s else tileTimeout group slice s)

/-! ## Spilled banks (R185) -/

/-- NEXT of a bank tile. -/
def Bank.nextOf (b : Bank) (tile : Nat) : Nat := (Table.get? b.nexts tile).getD b.start

/-- The tokens of the group vector that a bank tile covers: tile and token of each. -/
def Group.tokensOf (g : Group) (bankTile : Nat) : List (Nat × Nat) :=
  let n := 64 / formatBytes g.format
  let lo := bankTile * g.bankPer
  let hi := min g.count (lo + g.bankPer)
  (List.range ((hi - lo + n - 1) / n)).map (fun i => let e := lo + i * n; (e / g.per, e % g.per / n))

/-- SPILL_UPDATE_APPLY: the base die applies a contribution to one bank tile when NEXT reaches it, and discards one below NEXT. -/
def execSpillUpdateApply (group bankTile seq : Nat) (s : State) : Host.Outcome State Fault Refusal :=
  .next (match s.group? group with
    | none => s
    | some g =>
      match g.bankOfSeq seq, s.holder group seq with
      | some isB, some (m, k) =>
        let b := g.bank isB
        let toks := g.tokensOf bankTile
        let ready := toks.all (fun t => s.taken k group g t.1)
        let j := g.sliceOf ((toks.head?.map (·.1)).getD 0)
        let held : Bool := match b.reported j with | none => false | some r => decide (r ≤ seq)
        let buffered : Bool := !g.relaxed && (unit g.slices j).buffers seq
        if g.failed.isSome ∨ !g.spilled ∨ bankTile ≥ g.bankTiles ∨ seq ≠ b.nextOf bankTile ∨ !ready ∨ held ∨ buffered then s
        else
          let r := toks.foldl (fun (x : Option Bank) t => x.bind (addToken s g k group t.1 t.2)) (some b)
          match r with
          | none => report group isB j seq s
          | some b' =>
            let s := s.updBank group isB (fun _ => { b' with nexts := Table.put b'.nexts bankTile (seq + 1) })
            advance g.job (retireBank group isB (toks.foldl (fun s t => markWritten s m group g k.large t.1 t.2) s))
      | _, _ => s)

/-! ## ACC_CONFIGURE (R176) -/

/-- FRAC's largest value for a format. -/
def maxFrac (f : Nat) : Nat := match f with | 0x20 => 15 | 0x21 => 31 | _ => 0

/-- ACC_CONFIGURE (R176). -/
def opAccConfigure (_ : Nat) (c : Cmd) (s : State) : Verdict :=
  let gn := c.inl 0 1
  let clip := (c.inl 1 1).testBit 0
  let norm : Word64 := BitVec.ofNat 64 (c.inl 8 8)
  checks [(gn < 64, inlineAt 0)] <|
    match s.group? gn with
    | none => .refuse .groupClosed 0 0
    | some g =>
      match g.failed with
      | some f => .refuse f.status 0 0
      | none =>
        checks [(c.inl 1 1 ≤ 1, inlineAt 1), (c.inl 2 1 ≤ maxFrac g.format, inlineAt 2), resInline c 3 5,
            (if clip then (dec64 norm).finite && !(dec64 norm).le (dec64 fzero) else norm == 0, inlineAt 8), resInline c 16 16] <|
          match s.job? g.job with
          | none => notPermitted 0
          | some jb =>
            let noClip := jb.mode != some .trusted || isU g.format || isRns g.format
              || !((jb.graph.map (fun k => k.nodes.any (fun n => n.station == 4))).getD false)
            if jb.filling.isSome ∨ (clip ∧ noClip) then notPermitted 0
            else ok 0 (s.updGroup gn (fun g => { g with frac := c.inl 2 1, clip := clip, clipNorm := norm }))

/-- ACC_CONFIGURE. -/
def execAccConfigure (cid : Nat) (s : State) : Host.Outcome State Fault Refusal := .next (runRow .accConfigure opAccConfigure cid s)

end Sys2Proof.Machine
end

