-- ==== Sys2Proof/Machine/Ingest.lean ====
section
/-! DEFINITION. Sealed updates: the envelope, its checks, sessions, opening, commit and receipts (R143 to R163). -/

namespace Sys2Proof.Machine

open Sys2Proof

/-! ## Envelopes and keys (R144 to R147) -/

/-- T0 of an envelope. -/
def tagTable (kem : Bool) : Nat := if kem then 1168 else 80

/-- HDR_BYTES. -/
def headerBytes (kem : Bool) (segs : Nat) : Nat := (tagTable kem + 16 * segs + 4095) / 4096 * 4096

/-- The group and tile that a segment carries (R41). -/
def State.segTile (s : State) (k : Graph) (seg : Nat) : Option (Nat × Nat) :=
  k.layout.findSome? (fun e => match s.group? e.1 with
    | none => none
    | some g => if e.2 ≤ seg ∧ seg < e.2 + s.contribTiles g then some (e.1, seg - e.2) else none)

/-- VALID_BYTES of a segment's tile. -/
def State.segBytes (s : State) (k : Graph) (seg : Nat) : Nat :=
  match s.segTile k seg with
  | none => 0
  | some (g, t) => ((s.group? g).map (fun x => s.validBytes x t)).getD 0

/-- Length of a segment of the ciphertext (R145). -/
def State.segLen (s : State) (k : Graph) (seg : Nat) : Nat := if seg + 1 = k.segments then s.segBytes k seg else 65536

/-- Length of a whole message (R145). -/
def State.envelopeLen (s : State) (k : Graph) (kem : Bool) : Nat :=
  headerBytes kem k.segments + 65536 * (k.segments - 1) + s.segBytes k (k.segments - 1)

/-- K_SESS (R147). -/
def sessionKey (ss ct token : Bytes) (j : Nat) : Bytes :=
  hkdf ss (sha256 ct) (ascii "LN7300-SESS" ++ [BitVec.ofNat 8 j] ++ token)

/-- K_MSG (R147). -/
def messageKey (kSess nonce : Bytes) (j take ctr : Nat) : Bytes :=
  hkdf kSess nonce (ascii "LN7300-MSG" ++ [BitVec.ofNat 8 j] ++ toBE 4 take ++ toBE 8 ctr)

/-- K_RCPT (R147). -/
def receiptKey (kMsg : Bytes) : Bytes := hkdf kMsg [] (ascii "LN7300-RCPT")

/-- IV of a segment (R151). -/
def segmentIv (nonce : Bytes) (k : Nat) : Bytes := nonce.take 8 ++ xorBytes (slice nonce 8 4) (toBE 4 k)

/-- AAD of a segment (R151). -/
def segmentAad (m : Message) (k : Nat) : Bytes :=
  ascii "LNV1" ++ [BitVec.ofNat 8 m.job, if m.kem then 1 else 2, 0, 0] ++ toBE 4 m.take ++ toBE 4 m.segCount ++ toBE 4 k ++ m.token

/-! ## Receipts (R159 to R161) -/

/-- A receipt's 64 bytes: its outcome, status, RETRY_US and SESSION_REF. -/
def receiptBytes (m : Message) (outcome status retryUs : Nat) (ref : Word64) : Bytes :=
  let h := [1, BitVec.ofNat 8 outcome] ++ toBE 2 status ++ [BitVec.ofNat 8 m.job, 0, 0, 0] ++ toBE 4 m.take ++ toBE 4 m.msgId.toNat
    ++ fitBytes 16 m.token ++ toBE 8 ref.toNat ++ toBE 4 retryUs ++ toBE 2 m.conn ++ zeros 2
  h ++ (if outcome = 0 then (hmac (receiptKey m.kMsg) h).take 16 else zeros 16)

/-- Writes a receipt on the connection that carried the envelope, while that connection is open (R160). -/
def sendReceipt (m : Message) (outcome status retryUs : Nat) (ref : Word64) (s : State) : State :=
  if s.opened m.conn ∧ s.sameConn m.conn m.connId then
    sendMsg m.conn 0x01 none (some m.start) m.rcptKey m.rcptAddr (receiptBytes m outcome status retryUs ref) s
  else s

/-! ## Refusal (R154, R157) -/

/-- Erases a visible envelope: its slots are released, and what has not fallen due falls due. -/
def dropMsg (i : Nat) (s : State) : State :=
  match s.msg? i with
  | none => s
  | some m =>
    let s := unitsDue i (unitsOf m.len - m.due) s
    creditMoved { s with ingest := { s.ingest with
      msgs := Table.del s.ingest.msgs i, hsQueue := s.ingest.hsQueue.filter (· ≠ i), keyOrder := s.ingest.keyOrder.filter (· ≠ i) } }

/-- Refuses an uncommitted envelope with a receipt: outcome 1 REJECTED, 2 RETRY. -/
def refuseMsg (i outcome : Nat) (st : Status) (retryUs : Nat) (s : State) : State :=
  match s.msg? i with
  | none => s
  | some m => dropMsg i (sendReceipt m outcome st.code retryUs 0 s)

/-- Uncommitted envelopes. -/
def State.uncommitted (s : State) : List Nat := (s.ingest.msgs.filter (fun e => e.2.stage ≠ .committed)).map (·.1)

/-! ## The checks of a visible envelope (R146) -/

/-- The session that a reference names in a job. -/
def State.session? (s : State) (ref : Word64) (j : Nat) : Option (Nat × Session) :=
  let i := ref.toNat % 2 ^ 32
  match Table.get? s.ingest.sessions i with
  | none => none
  | some e => if e.gen.toNat = ref.toNat / 2 ^ 32 ∧ e.job = j then some (i, e) else none

/-- The first check of R146 that fails: its status, whether it is a RETRY, and RETRY_US; `p` holds the envelope's bytes. -/
def State.envelopeFault (s : State) (p : Bytes) (len j : Nat) : Option (Status × Bool × Nat) :=
  let kem := byteAt p 1 == 1
  let take := beAt p 4 4
  let segs := beAt p 8 4
  let graph := (s.job? j).bind (·.graph)
  let shape := match graph with
    | none => true
    | some k => segs == k.segments && len == s.envelopeLen k kem
  if !(byteAt p 0 == 1 && (kem || byteAt p 1 == 2) && zeroAt p 2 1 && zeroAt p 52 4 && zeroAt p 72 8
      && (!kem || zeroAt p 56 16) && decide (1 ≤ segs ∧ segs ≤ 65536) && shape && beAt p 16 8 % 64 == 0) then some (.badParam, false, 0)
  else match s.job? j, graph with
    | some jb, some _ =>
      if byteAt p 3 ≠ j ∨ !jb.kinds.getLsbD (if kem then 0 else 1) then some (.notPermitted, false, 0)
      else if s.side.qualified.getLsbD 0 then some (.zeroized, false, 0)
      else if jb.filling ≠ some take then
        if (jb.lastTake.map (fun t => decide (t < take))).getD true then some (.groupClosed, true, 10000) else some (.groupClosed, false, 0)
      else if kem then
        if 256 ≤ s.ingest.hsQueue.length then some (.busyDeferred, true, 500) else none
      else match s.session? (BitVec.ofNat 64 (beAt p 56 8)) j with
        | none => some (.keyInvalid, false, 0)
        | some (_, e) =>
          if e.token ≠ slice p 24 16 then some (.keyInvalid, false, 0)
          else if beAt p 64 8 ≤ e.ctr ∨ jb.sessionMsgs ≤ e.msgs then some (.counterStale, false, 0)
          else none
    | _, _ => some (.notPermitted, false, 0)

/-- The message that an envelope's prefix describes. -/
def messageOf (conn connId : Nat) (msgId : Word32) (region raddr len now : Nat) (p : Bytes) : Message :=
  { conn := conn, connId := connId, msgId := msgId, region := region, raddr := raddr, len := len, kem := byteAt p 1 == 1, job := byteAt p 3,
    take := beAt p 4 4, segCount := beAt p 8 4, rcptKey := BitVec.ofNat 32 (beAt p 12 4), rcptAddr := beAt p 16 8,
    token := slice p 24 16, nonceBase := slice p 40 12, sessionRef := BitVec.ofNat 64 (beAt p 56 8), ctr := beAt p 64 8,
    stage := if byteAt p 1 = 1 then .handshake else .keyed, large := false, kSess := [], kMsg := [], start := now, verified := [],
    paid := [], tiles := [], clipQ := [], clip := [], seqs := [], order := 0, flying := [], due := 0 }

/-- The checks of R146 on a visible envelope, and HANDSHAKE or OPEN. A prefix that memory cannot return is refused with AUTH_FAIL
(R359, OWNER 1); one whose receipt fields are lost gets no receipt (log entry 111). -/
def checkEnvelope (i path : Nat) (m : Message) (r : Region) (s : State) : State :=
  let at_ := r.base + m.raddr
  if poisoned s.mem at_ 64 then dropMsg i s
  else if poisoned s.mem at_ 80 then refuseMsg i 1 .authFail 0 s
  else match s.envelopeFault (memReads s.mem at_ 80) m.len r.job with
    | some (st, retry, us) =>
      let s := if st = .busyDeferred then { s with ingest := { s.ingest with hsRetry := satAdd s.ingest.hsRetry 1 } } else s
      if m.rcptAddr % 64 ≠ 0 then dropMsg i (drop path 2 s) else refuseMsg i (if retry then 2 else 1) st us s
    | none =>
      if m.kem then { s with ingest := { s.ingest with hsQueue := s.ingest.hsQueue ++ [i] } }
      else match s.session? m.sessionRef r.job with
        | none => s
        | some (_, e) =>
          let s := s.updMsg i (fun m => { m with kSess := e.kSess, kMsg := messageKey e.kSess m.nonceBase m.job m.take m.ctr })
          { s with ingest := { s.ingest with keyOrder := s.ingest.keyOrder ++ [i] } }

/-- An envelope becomes visible in an INGEST region (R134, R146). -/
def envelopeVisible (conn : Nat) (msgId : Word32) (region raddr len path : Nat) (s : State) : State :=
  match Table.get? s.trans.regions region with
  | none => s
  | some r =>
    let i := s.ingest.nextMsg
    let id := ((s.conn? conn).map (·.id)).getD 0
    let m := messageOf conn id msgId region raddr len s.time.ptime.toNat (memReads s.mem (r.base + raddr) 80)
    checkEnvelope i path m r { s with ingest := { s.ingest with nextMsg := i + 1, msgs := Table.put s.ingest.msgs i m } }

/-- DECAPSULATION_DONE: the envelope at the front of the handshake queue has its keys (R147, R148). -/
def execDecapsulationDone (s : State) : Host.Outcome State Fault Refusal :=
  .next (match s.ingest.hsQueue with
    | [] => s
    | i :: rest =>
      match s.msg? i with
      | none => { s with ingest := { s.ingest with hsQueue := rest } }
      | some m =>
        match s.job? m.job, Table.get? s.trans.regions m.region with
        | some _, some r =>
          if poisoned s.mem (r.base + m.raddr + 80) 1088 then refuseMsg i 1 .authFail 0 s
          else
          let ct := memReads s.mem (r.base + m.raddr + 80) 1088
          let ks := sessionKey (kemOpen ((s.key? (.jobDk m.job)).getD []) ct) ct m.token m.job
          let s := s.updMsg i (fun m => { m with stage := .keyed, kSess := ks, kMsg := messageKey ks m.nonceBase m.job m.take 0 })
          { s with ingest := { s.ingest with hsQueue := rest, keyOrder := s.ingest.keyOrder ++ [i] } }
        | _, _ => dropMsg i s)

/-! ## Opening (R151, R152) -/

/-- The descriptor that OPEN writes of a contribution tile (R33, R155). Its SEQ is zero until the commit gives it its number, and it
carries no scale exponent: DESIGN CHOICE (log entry 110). -/
def State.contribDesc (s : State) (m : Message) (k : Graph) (gn : Nat) (g : Group) (tile seg epoch : Nat) : Bytes :=
  TileDesc.bytes
    { format := g.format, job := m.job, group := gn, station := 3, mode := k.mode.code,
      flags := descFlags true false false true false (tile + 1 = s.contribTiles g), take := m.take, valid := s.validBytes g tile, seq := 0,
      first := tile * g.per, slice := g.sliceOf tile, epoch := epoch, segment := seg, contribs := 1, seqEnd := 1, scale := 0, kind := 0xFF,
      paramSet := g.paramSet, randRef := 0 }

/-- A descriptor with the sequence number that its contribution takes (R48). -/
def numbered (seq : Nat) (d : Bytes) : Bytes := redesc 40 (toLE 8 (seq + 1)) (redesc 16 (toLE 8 seq) d)

/-- The tiles that a message routes, one for each segment, each with the lowest free mark of its core (R151, R156). -/
def State.routed (s : State) (m : Message) (k : Graph) : List SpliceTile :=
  ((List.range k.segments).filterMap (fun seg => match s.segTile k seg with
    | none => none
    | some (gn, t) => (s.group? gn).map (fun g =>
        let epoch := (unit g.slices (g.sliceOf t)).epoch
        ({ group := gn, tile := t, segment := seg, core := g.coreOf t, slot := some .reserved, mark := 0,
           desc := s.contribDesc m k gn g t seg epoch, data := [], epoch := epoch, place := .splice, done := [],
           made := [] } : SpliceTile)))).foldl
    (fun l t =>
      let used (i : Nat) : Bool := (s.marksOf t.core).contains i || l.any (fun x => x.core == t.core && x.mark == i)
      l ++ [{ t with mark := (lowest (fun i => !used i) 64 0).getD 64 }]) []

/-- OPEN_ADMIT: the next message in the order of its keys is admitted once every core has the slots (R151). -/
def execOpenAdmit (s : State) : Host.Outcome State Fault Refusal :=
  .next (match s.ingest.keyOrder with
    | [] => s
    | i :: rest =>
      match s.msg? i with
      | none => { s with ingest := { s.ingest with keyOrder := rest } }
      | some m =>
        match (s.job? m.job).bind (·.graph) with
        | none => refuseMsg i 1 .groupClosed 0 s
        | some k =>
          if k.segments ≠ m.segCount ∨ m.len ≠ s.envelopeLen k m.kem then refuseMsg i 1 .groupClosed 0 s
          else
            let tiles := s.routed m k
            let on (c : Nat) : Nat := (tiles.filter (fun t => t.core = c)).length
            let large := (List.range 36).any (fun c => decide (48 < on c))
            if !large ∧ (List.range 36).any (fun c => decide (s.slotsFree c < on c)) then s
            else
              let s := s.updMsg i (fun m => { m with stage := .opening, large := large, tiles := if large then [] else tiles })
              { s with ingest := { s.ingest with keyOrder := rest } })

/-- A segment's plaintext, where its tag verifies (R151). -/
def State.openSegment (s : State) (m : Message) (k : Graph) (seg : Nat) : Option Bytes :=
  match Table.get? s.trans.regions m.region with
  | none => none
  | some r =>
    let at_ := r.base + m.raddr
    let n := s.segLen k seg
    let data := at_ + headerBytes m.kem m.segCount + 65536 * seg
    let tag := at_ + tagTable m.kem + 16 * seg
    if poisoned s.mem data n ∨ poisoned s.mem tag 16 then none
    else gcmOpen m.kMsg (segmentIv m.nonceBase seg) (segmentAad m seg) (memReads s.mem data n ++ memReads s.mem tag 16)

/-- Posts OPEN_AUTH_FAIL and refuses the message (R154, R162). -/
def openFailed (i : Nat) (m : Message) (core : Nat) (st : Status) (seg : Nat) (s : State) : State :=
  refuseMsg i 1 st 0 (post .openAuthFail 0x01 core (BitVec.ofNat 8 m.job) nobody
    (toLE 2 m.conn ++ toLE 2 st.code ++ toLE 4 m.msgId.toNat ++ toLE 4 seg ++ toLE 4 m.take ++ m.token) s)

/-- SEGMENT_VERIFIED: a segment's opening ends, and its tag and padding are checked (R151, R157); OPEN issues a tile to CLIP in this pass
(R177). -/
def execSegmentVerified (msg segment : Nat) (s : State) : Host.Outcome State Fault Refusal :=
  .next (match s.msg? msg with
    | none => s
    | some m =>
      match (s.job? m.job).bind (·.graph) with
      | none => if m.stage = .opening then refuseMsg msg 1 .groupClosed 0 s else s
      | some k =>
        match s.segTile k segment with
        | none => s
        | some (gn, t) =>
          match s.group? gn with
          | none => s
          | some g =>
            if m.stage ≠ .opening ∨ m.verified.contains segment ∨ m.segCount ≤ segment then s
            else match s.openSegment m k segment with
              | none => openFailed msg m (g.coreOf t) .authFail segment s
              | some pt =>
                let valid := s.validBytes g t
                if !zeroAt pt valid (pt.length - valid) then openFailed msg m (g.coreOf t) .badParam segment s
                else
                  let pt := pt.take valid
                  let fb := formatBytes g.format
                  let raws := (List.range (valid / fb)).map (fun e => leAt pt (fb * e) fb)
                  let s := s.updMsg msg (fun m =>
                    let verified := m.verified ++ [segment]
                    { m with
                      verified := verified
                      paid := if m.large ∨ m.paid.contains segment then m.paid else m.paid ++ [segment]
                      stage := if verified.length = m.segCount then .verified else .opening
                      tiles := m.tiles.map (fun x => if x.segment = segment then { x with data := pt, slot := some .opened } else x)
                      clipQ := if g.clip then m.clipQ ++ [(gn, t, tileSquares g raws)] else m.clipQ })
                  let s := match m.tiles.find? (fun x => x.segment == segment) with
                    | some x => if g.clip ∧ k.carries 3 4 gn then traceTile msg x x.core 3 s else s
                    | none => s
                  if m.large ∨ m.paid.contains segment then s else unitsDue msg ((s.segLen k segment + 4095) / 4096) s)

/-! ## The commit arbiter (R48, R149, R153) -/

/-- The entry a full table gives up: of the job's entries that no admitted message uses, the one longest without a commit. -/
def State.evictable (s : State) (j : Nat) : Option Nat :=
  let used (i : Nat) (e : Session) : Bool := s.ingest.msgs.any (fun m =>
    !m.2.kem && (m.2.stage == .opening || m.2.stage == .verified) && m.2.job == j
      && m.2.sessionRef.toNat == i + 2 ^ 32 * e.gen.toNat)
  ((s.ingest.sessions.filter (fun e => e.2.job == j && !used e.1 e.2)).foldl (fun (m : Option (Nat × Nat)) e => match m with
    | none => some (e.1, e.2.lastCommit)
    | some x => if e.2.lastCommit < x.2 then some (e.1, e.2.lastCommit) else some x) none).map (·.1)

/-- Creates the session of a KEM envelope that commits: its reference, zero where none is created (R149). -/
def createSession (m : Message) (jb : Job) (s : State) : Word64 × State :=
  if jb.sessions = 0 then (0, s)
  else
    let full := jb.sessions ≤ (s.ingest.sessions.filter (fun e => e.2.job = m.job)).length
    let victim := s.evictable m.job
    if full ∧ victim.isNone then (0, s)
    else
      let sessions := if full then Table.del s.ingest.sessions (victim.getD 0) else s.ingest.sessions
      match Table.free? sessions 0 16777216 with
      | none => (0, s)
      | some i =>
        let gen : BitVec 16 := match Table.get? s.ingest.sessionGen i with | none => 0 | some g => g + 1
        let e : Session := { gen := gen, job := m.job, token := m.token, kSess := m.kSess, ctr := 0, msgs := 1,
                             created := s.time.ptime, lastCommit := s.ingest.commits }
        let keep := decide (1 < jb.sessionMsgs)
        (BitVec.ofNat 64 (i + 2 ^ 32 * gen.toNat),
          { s with ingest := { s.ingest with sessions := if keep then Table.put sessions i e else sessions,
                                             sessionGen := Table.put s.ingest.sessionGen i gen } })

/-- Updates the session of a RESUME envelope that commits; at its message limit the entry is removed (R149). -/
def useSession (m : Message) (jb : Job) (s : State) : State :=
  match s.session? m.sessionRef m.job with
  | none => s
  | some (i, e) =>
    let e' : Session := { e with ctr := m.ctr, msgs := e.msgs + 1, lastCommit := s.ingest.commits }
    { s with ingest := { s.ingest with
      sessions := if jb.sessionMsgs ≤ e'.msgs then Table.del s.ingest.sessions i else Table.put s.ingest.sessions i e' } }

/-- The status with which the arbiter refuses a message, if it does (R153). -/
def State.arbiterFault (s : State) (m : Message) (jb : Job) : Option Status :=
  if jb.filling ≠ some m.take then some .groupClosed
  else if !m.kem ∧ !((s.session? m.sessionRef m.job).map (fun e => decide (e.2.ctr < m.ctr))).getD false then some .counterStale
  else if jb.tokens.contains m.token then some .duplicateClient
  else if jb.tokensMax ≤ jb.tokens.length then some .noResource
  else none

/-- A message takes its number in one group: the bank's counts rise, and its contribution is in flight unless the group has failed. -/
def commitGroup (i gn : Nat) (s : State) : State :=
  match s.group? gn with
  | none => s
  | some g =>
    let q := g.nextSeq
    let s := s.updGroup gn (fun g => { g with nextSeq := g.nextSeq + 1 })
    let bank := if g.failed.isSome then none else g.bankOfSeq q
    let s := match bank with | none => s | some b => raiseCount gn b 1 s
    s.updMsg i (fun m =>
      let qs := (sortBy (fun (x : Nat × Nat × Word64) => x.2.1) (m.clipQ.filter (fun x => x.1 = gn))).map (·.2.2)
      { m with seqs := m.seqs ++ [(gn, q)], flying := if bank.isSome then m.flying ++ [gn] else m.flying,
               clip := if g.clip then m.clip ++ [(gn, clipScale g.clipNorm (squareSum qs))] else m.clip,
               tiles := if bank.isSome then m.tiles else m.tiles.filter (fun t => t.group ≠ gn) })

/-- A message's tiles move into the committed queues of their splices, with their sequence numbers (R48, R153, R155). -/
def Message.queued (m : Message) : Message :=
  { m with stage := .committed, verified := if m.large then [] else m.verified,
           tiles := m.tiles.map (fun t => { t with slot := some .committed, desc := numbered ((m.seqIn t.group).getD 0) t.desc }) }

/-- MESSAGE_COMMIT: the arbiter takes a verified message (R48, R153). The second pass of the clip reads its tiles again from their marks
(R156, R178). -/
def execMessageCommit (msg : Nat) (s : State) : Host.Outcome State Fault Refusal :=
  .next (match s.msg? msg with
    | none => s
    | some m =>
      if m.stage ≠ .verified then s
      else match s.job? m.job with
        | none => refuseMsg msg 1 .groupClosed 0 s
        | some jb =>
          match s.arbiterFault m jb, jb.graph with
          | some st, _ => refuseMsg msg 1 st 0 s
          | none, none => refuseMsg msg 1 .groupClosed 0 s
          | none, some k =>
            let s := k.layout.foldl (fun s e => commitGroup msg e.1 s) s
            let s := s.updMsg msg (fun m => { m with order := s.ingest.commits })
            let s := { s with ingest := { s.ingest with commits := s.ingest.commits + 1 } }
            let s := s.updJob m.job (fun jb => { jb with tokens := jb.tokens ++ [m.token] })
            let (ref, s) := if m.kem then createSession m jb s else (m.sessionRef, useSession m jb s)
            let clipped (gn : Nat) : Bool := ((s.group? gn).map (·.clip)).getD false
            let s := rewindTiles (fun i t => i == msg && clipped t.group) (s.updMsg msg Message.queued)
            let s := sendReceipt m 0 0 0 ref (advance m.job s)
            settleMsg msg (unitsDue msg (headerBytes m.kem m.segCount / 4096) s))

/-- The core and epoch that a tile of a committed message is routed to: the placement of its slice for its number (R47, R57). -/
def State.routeOf (s : State) (m : Message) (gn tile : Nat) : Nat × Nat :=
  match s.group? gn with
  | none => (0, 0)
  | some g => (unit g.slices (g.sliceOf tile)).placeOf ((m.seqIn gn).getD 0)

/-- A committed large message still has a segment to open into a slot of a core. -/
def State.owesTile (s : State) (m : Message) (k : Graph) (core : Nat) : Bool :=
  m.large && m.stage == .committed && (List.range k.segments).any (fun seg => !m.verified.contains seg && (match s.segTile k seg with
    | none => false
    | some (gn, t) => m.flying.contains gn && (s.routeOf m gn t).1 == core))

/-- SECOND_PASS_TILE: after its commit a large message's segment is decrypted again into a slot, behind those of messages that committed
earlier on that core (R152, R157). -/
def execSecondPassTile (msg segment : Nat) (s : State) : Host.Outcome State Fault Refusal :=
  .next (match s.msg? msg with
    | none => s
    | some m =>
      match (s.job? m.job).bind (·.graph) with
      | none => s
      | some k =>
        match s.segTile k segment with
        | none => s
        | some (gn, t) =>
          match s.group? gn with
          | none => s
          | some g =>
            let (core, epoch) := s.routeOf m gn t
            let first := !s.ingest.msgs.any (fun e => e.2.job == m.job && decide (e.2.order < m.order) && s.owesTile e.2 k core)
            let feeds := m.flying.contains gn
            if m.stage ≠ .committed ∨ !m.large ∨ m.verified.contains segment ∨ (feeds ∧ (!first ∨ s.slotsFree core = 0)) then s
            else match s.openSegment m k segment with
              | none => s
              | some pt =>
                let tile : SpliceTile := { group := gn, tile := t, segment := segment, core := core, slot := some .committed,
                                           mark := s.freeMark core,
                                           desc := numbered ((m.seqIn gn).getD 0) (s.contribDesc m k gn g t segment epoch),
                                           data := pt.take (s.validBytes g t), epoch := epoch, place := .splice, done := [], made := [] }
                let s := s.updMsg msg (fun m => { m with verified := m.verified ++ [segment],
                                                         tiles := if feeds then m.tiles ++ [tile] else m.tiles })
                settleMsg msg (unitsDue msg ((s.segLen k segment + 4095) / 4096) (advance m.job s)))

/-- SESSION_EXPIRE: SESSION_LIFE_S seconds after its creation an entry is removed, once no admitted message uses it (R149, R163). -/
def execSessionExpire (index : Nat) (s : State) : Host.Outcome State Fault Refusal :=
  .next (match Table.get? s.ingest.sessions index with
    | none => s
    | some e =>
      let life := ((s.job? e.job).map (·.lifeS)).getD 0
      let pinned := s.ingest.msgs.any (fun m => !m.2.kem && (m.2.stage == .opening || m.2.stage == .verified)
        && m.2.sessionRef.toNat == index + 2 ^ 32 * e.gen.toNat)
      if pinned ∨ s.time.ptime.toNat < e.created.toNat + life * 1000000000 then s
      else { s with ingest := { s.ingest with sessions := Table.del s.ingest.sessions index } })

/-! ## Registers (R158, R161) -/

/-- ING_HS_STATUS as it reads. -/
def State.hsStatus (s : State) : Word64 :=
  placeN 0 9 (s.coarseN s.ingest.hsQueue.length) ||| place 16 (s.coarse s.ingest.hsRetry)
  ||| placeN 32 25 (s.coarseN s.ingest.sessions.length)

/-- ING_HS_STATUS_READ clears HS_RETRY, which lies in the low half. -/
def execIngHsStatusRead (half : Half) (s : State) : Host.Outcome State Fault Refusal :=
  .next (rcRead half State.hsStatus (fun s => { s with ingest := { s.ingest with hsRetry := 0 } }) id s)

/-- ING_RCPT_LATE as it reads. -/
def State.rcptLate (s : State) : Word64 := place 0 (s.coarse s.ingest.late) ||| place 32 (s.coarse s.ingest.maxUs)

/-- ING_RCPT_LATE_READ clears the halves it returns. -/
def execIngRcptLateRead (half : Half) (s : State) : Host.Outcome State Fault Refusal :=
  .next (rcRead half State.rcptLate (fun s => { s with ingest := { s.ingest with late := 0 } })
    (fun s => { s with ingest := { s.ingest with maxUs := 0 } }) s)

/-- ING_POOL as it reads. -/
def State.poolReg (s : State) : Word64 := place 0 s.ingest.pool ||| placeN 32 32 (s.coarseN s.creditOut)

end Sys2Proof.Machine
end

