-- ==== Sys2Proof/Machine/Combine.lean ====
section
/-! DEFINITION. Partials: bank tiles as they travel, EXPORT, and COMBINE (R33, R175, R186 to R192, R393). -/

namespace Sys2Proof.Machine

open Sys2Proof

/-! ## Bank tiles (R33, R175) -/

/-- The bytes of one bank element (R175). -/
def elemBytes (g : Group) (e : Elem) : Bytes :=
  match g.kind with
  | 3 => toLE 8 e.x.toNat ++ toLE 8 e.y.toNat
  | 4 => toLE 4 e.a.toNat ++ zeros 4 ++ toLE 8 e.x.toNat ++ toLE 8 e.y.toNat ++ zeros 8
  | _ => toLE g.w (e.a % (2 ^ (8 * g.w) : Int)).toNat

/-- The element that bytes of a bank tile spell (R175). -/
def elemOf (g : Group) (bs : Bytes) : Elem :=
  match g.kind with
  | 3 => { a := 0, x := BitVec.ofNat 64 (leAt bs 0 8), y := BitVec.ofNat 64 (leAt bs 8 8) }
  | 4 => { a := leAt bs 0 4, x := BitVec.ofNat 64 (leAt bs 8 8), y := BitVec.ofNat 64 (leAt bs 16 8) }
  | _ => { a := if isFix g.format then signedBytes g.w (leAt bs 0 g.w) else leAt bs 0 g.w, x := 0, y := 0 }

/-- The data of bank tile `i`. -/
def bankTileBytes (g : Group) (b : Bank) (i : Nat) : Bytes :=
  ((List.range (g.bankBytes i / g.w)).map (fun e => elemBytes g (b.elem (i * g.bankPer + e)))).flatten

/-- Elements of bank tile `i` out of its data. -/
def tileElems (g : Group) (i : Nat) (bs : Bytes) : List (Nat × Elem) :=
  (List.range (g.bankBytes i / g.w)).map (fun e => (i * g.bankPer + e, elemOf g (slice bs (g.w * e) g.w)))

/-- The descriptor of a partial's bank tile `i` (R33, R186). -/
def partialDesc (gn : Nat) (g : Group) (mode : Mode) (b : Bank) (i : Nat) : Bytes :=
  let first := i * g.bankPer
  let j := g.sliceOf (first / g.per)
  TileDesc.bytes
    { format := g.format, job := g.job, group := gn, station := 12, mode := mode.code,
      flags := descFlags false false true (mode = .trusted) false (i + 1 = g.bankTiles), take := b.take, valid := g.bankBytes i,
      seq := b.start, first := first, slice := j, epoch := (unit g.slices j).epoch, segment := 0xFFFFFFFF, contribs := b.count,
      seqEnd := b.stop.getD b.start, scale := if isFix g.format then b.scale else 0, kind := g.kind, paramSet := g.paramSet,
      randRef := 0 }

/-! ## EXPORT (R186, R187, R393) -/

/-- The message of a bank tile: sealed under K_PART in mode T, where the partial counter rises by one. -/
def partialMessage (gn : Nat) (g : Group) (isB : Bool) (i : Nat) (s : State) : Bytes × State :=
  match s.job? g.job with
  | none => ([], s)
  | some jb =>
    let mode := jb.mode.getD .masked
    let b := g.bank isB
    let desc := partialDesc gn g mode b i
    let data := bankTileBytes g b i
    if mode = .trusted then
      let head := toLE 2 s.member ++ zeros 2 ++ toLE 8 jb.pctr ++ zeros 4
      (desc ++ head ++ gcmSeal (s.using (.part g.job)) (head.take 12) (desc ++ head) data, s.updJob g.job (fun jb => { jb with pctr := jb.pctr + 1 }))
    else (desc ++ data, s)

/-- The connection of an export route, while it is open in the group's job. -/
def State.routeOpen (s : State) (gn : Nat) (g : Group) : Option Route :=
  (Table.get? s.warp.routes gn).filter (fun r => ((s.conn? r.conn).map (fun c => c.phase == .opened && c.job == g.job)).getD false)

/-- Sends the messages of a bank's tiles on a route (R393). -/
def sendTiles (r : Route) (l : List Bytes) (s : State) : State :=
  (l.mapIdx (fun i m => (i, m))).foldl (fun s x =>
    sendMsg r.conn 0x01 (if r.trigger then some r.trigId else none) none r.rkey (r.raddr + 65664 * x.1) x.2 s) s

/-- What EXPORT last wrote of a bank. -/
def State.exported? (s : State) (gn : Nat) (isB : Bool) : Option (List Bytes) :=
  (s.warp.exported.find? (fun e => e.1 = (gn, isB))).map (·.2)

/-- EXPORT writes a bank's tiles on a route, and keeps what it wrote (R393). -/
def writeExport (gn : Nat) (g : Group) (isB : Bool) (r : Route) (s : State) : State :=
  let (l, s) := (List.range g.bankTiles).foldl (fun (a : List Bytes × State) i =>
    let (m, s) := partialMessage gn g isB i a.2
    (a.1 ++ [m], s)) ([], s)
  sendTiles r l { s with warp := { s.warp with
    exported := s.warp.exported.filter (fun e => e.1 ≠ (gn, isB)) ++ [((gn, isB), l)] } }

/-- The bank may be exported: it is FINAL, EXPORT has not finished with it, and, behind COMBINE, its ACC_COMBINE has completed. -/
def State.exportDue (s : State) (gn : Nat) (isB : Bool) : Bool :=
  match s.group? gn with
  | none => false
  | some g =>
    let b := g.bank isB
    match (s.job? g.job).bind (·.graph) with
    | none => false
    | some k =>
      b.mode == .final && !b.finished.contains 12 && !s.combining gn isB && (k.carries 5 12 gn || (k.carries 8 12 gn && b.combined))

/-- EXPORT runs where it is due and the group has a route on an open connection, and waits for one otherwise (log entry 35). -/
def tryExport (gn : Nat) (isB : Bool) (s : State) : State :=
  match s.group? gn with
  | none => s
  | some g =>
    match s.routeOpen gn g with
    | none => s
    | some r => if s.exportDue gn isB then finishStation gn isB 12 (writeExport gn g isB r s) else s

/-- BANK_FINAL: a DRAINING bank's last contribution has left flight (R54), and a leaf's EXPORT starts (R393). -/
def execBankFinal (group : Nat) (bankB : Bool) (s : State) : Host.Outcome State Fault Refusal :=
  .next (if s.drained group bankB then tryExport group bankB (bankFinal group bankB s) else s)

/-! ## Accepting partial tiles (R188, R189) -/

/-- Drops a partial tile, counted in CHECK or LATE. -/
def dropPartial (late : Bool) (s : State) : State :=
  { s with accum := if late then { s.accum with dropLate := satAdd s.accum.dropLate 1 }
                    else { s.accum with dropCheck := satAdd s.accum.dropCheck 1 } }

/-- The checks of R189: the tile's number, its plaintext and the values that every tile of the source repeats. -/
def State.partialCheck (s : State) (j gn take : Nat) (src : CombineSource) (p : PartialTile) :
    Option (Nat × Bytes × (Nat × Nat × Nat × Int)) :=
  match s.groupOf j gn, s.job? j with
  | some g, some jb =>
    let m := memReads s.mem p.addr p.len
    let d := m.take 64
    let valid := leAt d 12 4
    let prot := (leAt d 6 2).testBit 3
    let first := leAt d 24 4
    let i := first / g.bankPer
    let head := (leAt d 36 4, leAt d 16 8, leAt d 40 8, signed8 (leAt d 48 1))
    let data := if prot then gcmOpen (s.using (.part j)) (slice m 64 12) (m.take 80) (m.drop 80) else some (m.drop 64)
    if poisoned s.mem p.addr p.len ∨ leAt d 60 4 ≠ (crc32c (d.take 60)).toNat ∨ p.len ≠ (if prot then 96 else 64) + valid
        ∨ leAt d 2 1 ≠ j ∨ leAt d 3 1 ≠ gn ∨ leAt d 8 4 ≠ take ∨ leAt d 1 1 ≠ g.format ∨ leAt d 49 1 ≠ g.kind
        ∨ leAt d 50 2 ≠ g.paramSet ∨ prot ≠ (jb.mode == some .trusted) ∨ first % g.bankPer ≠ 0 ∨ g.bankTiles ≤ i
        ∨ valid ≠ g.bankBytes i then none
    else match data with
      | none => none
      | some pt =>
        if (src.head.map (fun h => decide (h ≠ head))).getD false ∨ src.tiles.any (fun t => t.1 == i) then none
        else some (i, pt, head)
  | _, _ => none

/-- Every source has delivered every bank tile. -/
def sourcesWhole (tiles : Nat) (l : List CombineSource) : Bool := l.all (fun x => decide (tiles ≤ x.tiles.length))

/-- Offers a visible tile to the ACC_COMBINE that names its connection; the last needed one is its commit point (R188, R189). -/
def offerPartial (cid : Nat) (p : PartialTile) (s : State) : State :=
  match s.cmd? cid with
  | none => s
  | some c =>
    match c.work with
    | .combining isB take sources =>
      match sources.find? (fun x => x.connId == p.connId), s.group? c.group with
      | some src, some g =>
        match s.partialCheck c.job c.group take src p with
        | none => dropPartial false s
        | some (i, pt, head) =>
          let src' : CombineSource := { src with head := some head, tiles := src.tiles ++ [(i, pt)] }
          let sources := sources.map (fun x => if x.connId = p.connId then src' else x)
          let w : Work := .combining isB take sources
          if sourcesWhole g.bankTiles sources then commit cid w s else s.updCmd cid (fun c => { c with work := w })
      | _, _ => s
    | _ => s

/-- The ACC_COMBINE, not yet complete, that names a connection, by its identity. -/
def State.combinerOf (s : State) (connId : Nat) : Option Nat :=
  (s.cmds.find? (fun e => match e.2.work with | .combining _ _ l => l.any (fun x => x.connId == connId) | _ => false)).map (·.1)

/-- A partial tile becomes visible in a COMBINE region (R189). -/
def partialVisible (p : PartialTile) (s : State) : State :=
  match s.combinerOf p.connId with
  | some cid => offerPartial cid p s
  | none =>
    let d := memReads s.mem p.addr 16
    if s.accum.claimed.contains (leAt d 2 1, leAt d 3 1, leAt d 8 4, p.connId) ∨ 65536 ≤ s.accum.held.length then dropPartial true s
    else { s with accum := { s.accum with held := s.accum.held ++ [p] } }

/-- ACC_COMBINE (R188). -/
def opAccCombine (cid : Nat) (c : Cmd) (s : State) : Verdict :=
  let n := c.par 1 1
  let at_ (i : Nat) : Nat := 16 + 8 * i
  let conn (i : Nat) : Nat := c.par (at_ i) 2
  match c.work with
  | .combining _ _ _ => .stalls
  | _ =>
    checks ([resInline c 0 32, (decide (c.par 0 1 ≤ 1), blockAt 0), (decide (1 ≤ n ∧ n ≤ 64), blockAt 1),
        (c.body.length == 16 + 8 * n, 12), resBlock c 2 2, resBlock c 8 8]
      ++ (List.range n).map (fun i => resBlock c (at_ i + 2) 6)
      ++ (List.range n).map (fun i => ((List.range i).all (fun k => conn k != conn i), blockAt (at_ i)))) <|
      match s.groupOf c.job c.group with
      | none => .refuse .groupClosed 0 0
      | some g =>
        match g.failed with
        | some f => .refuse f.status 0 0
        | none =>
          let isB := c.par 0 1 == 1
          let conns := (List.range n).map conn
          let idOf (k : Nat) : Nat := ((s.conn? k).map (·.id)).getD 0
          let named := ((s.job? c.job).bind (·.graph)).map (fun k => k.serves 8 c.group)
          refusals [((g.bank isB).mode == .final, .notPermitted, 1), (named.getD false, .notPermitted, 2),
              (conns.all (fun k => ((s.conn? k).map (fun x => x.phase == .opened && x.job == c.job)).getD false), .notPermitted, 3),
              (conns.all (fun k => (s.combinerOf (idOf k)).isNone), .notPermitted, 4)] <|
            let w : Work := .combining isB (c.par 4 4) (conns.map (fun k => { conn := k, connId := idOf k, head := none, tiles := [] }))
            let ids := conns.map idOf
            let mine := s.accum.held.filter (fun p => ids.contains p.connId)
            let s := { s with accum := { s.accum with held := s.accum.held.filter (fun p => !ids.contains p.connId) } }
            .goes (mine.foldl (fun s p => offerPartial cid p s) (setWork cid w s))

/-- ACC_COMBINE. -/
def execAccCombine (cid : Nat) (s : State) : Host.Outcome State Fault Refusal := .next (runRow .accCombine opAccCombine cid s)

/-! ## Combining (R190, R191) -/

/-- One element of a partial added to a bank element, for every kind but fixed point (R190). -/
def combineElem (g : Group) (prime : Nat) (l p : Elem) : Elem :=
  if isU g.format then { l with a := (l.a + p.a) % (2 ^ (8 * g.w) : Int) }
  else if isRns g.format then
    let v := l.a + p.a % (prime : Int)
    { l with a := if v ≥ prime then v - prime else v }
  else if g.kind = 3 then
    let t := fadd l.x p.x
    let z := fsub t l.x
    let e := fadd (fsub l.x (fsub t z)) (fsub p.x z)
    { l with x := t, y := fadd (fadd l.y p.y) e }
  else if p.a = 0 then l
  else if l.a = 0 then p
  else
    let n := min (l.a + p.a) 0xFFFFFFFF
    let d := fsub p.x l.x
    { a := n, x := fadd l.x (fmul d (fdiv (fint p.a) (fint n)))
      y := fadd (fadd l.y p.y) (fmul (fmul d d) (fdiv (fmul (fint l.a) (fint p.a)) (fint n))) }

/-- Fixed-point sums of a bank and a partial at exponent E, each operand rounded once; nothing where a sum overflows (R191). -/
def fixedSums (g : Group) (b : Bank) (ep e : Int) (l : List (Nat × Elem)) : Option Bank :=
  l.foldl (fun (m : Option Bank) x => m.bind (fun r =>
    let v := rheShift (b.elem x.1).a (b.scale - e).toNat + rheShift x.2.a (ep - e).toNat
    if inSigned g.w v then some (r.setElem x.1 { a := v, x := 0, y := 0 }) else none)) (some { b with scale := e })

/-- Lowers the exponent until no sum overflows, to at most 8 steps below the start scale (R191). -/
def combineFixed (g : Group) (b : Bank) (ep : Int) (l : List (Nat × Elem)) : Nat → Int → Option Bank
  | 0, _ => none
  | fuel + 1, e =>
    if g.startScale - e > 8 then none
    else match fixedSums g b ep e l with
      | some r => some { r with steps := (g.startScale - e).toNat }
      | none => combineFixed g b ep l fuel (e - 1)

/-- Adds one source's partial to the bank; nothing where the scale is exhausted. -/
def State.combineSource (s : State) (g : Group) (b : Bank) (src : CombineSource) : Option Bank :=
  let l := (src.tiles.map (fun t => tileElems g t.1 t.2)).flatten
  if isFix g.format then
    let ep := (src.head.map (·.2.2.2)).getD 0
    combineFixed g b ep l 100 (min b.scale ep)
  else some (l.foldl (fun b x => b.setElem x.1 (combineElem g (s.prime g x.1) (b.elem x.1) x.2)) b)

/-- The effects of a combine beyond the elements: counts, LONG_SUM, the ledger's PARTIALS and the claim (R173, R189, R190, R200). -/
def combined (c : Cmd) (isB : Bool) (take : Nat) (sources : List CombineSource) (bank : Bank) (s : State) : State :=
  let s := s.updBank c.group isB (fun b => { b with elems := bank.elems, scale := bank.scale, steps := bank.steps, combined := true })
  let s := sources.foldl (fun s x => raiseCount c.group isB ((x.head.map (·.1)).getD 0) s) s
  { s with
    accum := { s.accum with claimed := s.accum.claimed ++ sources.map (fun x => (c.job, c.group, take, x.connId)) }
    masks := { s.masks with ledgers := Table.mapAll s.masks.ledgers (fun l k =>
      if l / 2 = c.job ∧ k.take = bank.take then { k with partials := true } else k) } }

/-- The stations behind COMBINE receive a combined bank: GATE, EXPORT, or none where COMBINE stands alone (R51, R251, R393). -/
def afterCombine (gn : Nat) (isB : Bool) (s : State) : State :=
  match (s.group? gn).bind (fun g => (s.job? g.job).bind (·.graph)) with
  | none => s
  | some k =>
    let done := ((s.group? gn).map (fun g => (g.bank isB).finished.contains 10)).getD false
    let s := if k.carries 8 10 gn ∧ !k.carries 5 10 gn ∧ !done ∧ !Table.has s.gate.items (itemKey gn isB) then holdItem gn isB s else s
    releaseBank gn isB (finishStation gn isB 8 (tryExport gn isB s))

/-- ACC_COMBINE_DONE: the combine of every source ends (R190 to R192). -/
def execAccCombineDone (cid : Nat) (s : State) : Host.Outcome State Fault Refusal :=
  .next (match s.cmd? cid with
    | none => s
    | some c =>
      match c.work, s.group? c.group with
      | .combining isB take sources, some g =>
        if c.phase ≠ .committed then s
        else
          let r := sources.foldl (fun (m : Option Bank) x => m.bind (fun b => s.combineSource g b x)) (some (g.bank isB))
          match r with
          | none => failGroup c.group .scaleExhausted isB (g.coreOf 0) 0 0 0 s
          | some bank =>
            let s := combined c isB take sources bank s
            let b := ((s.group? c.group).map (fun g => g.bank isB)).getD bank
            let s := complete cid (if b.longSum then .longSum else .ok) 0 b.count s
            afterCombine c.group isB s
      | _, _ => s)

/-- ACC_COMBINE commands that name a discarded bank, or a bank of a job, end with ABORTED (R188). -/
def abortCombines (p : Nat → Bool → Bool) (s : State) : State :=
  (s.cmds.filter (fun e => match e.2.work with | .combining b _ _ => p e.2.group b | _ => false)).foldl
    (fun s e => complete e.1 .aborted 0 0 s) s

/-! ## Registers -/

/-- ACC_COMBINE_DROPS as it reads. -/
def State.combineDrops (s : State) : Word64 := place 0 (s.coarse s.accum.dropCheck) ||| place 32 (s.coarse s.accum.dropLate)

/-- ACC_COMBINE_DROPS_READ clears the halves it returns. -/
def execAccCombineDropsRead (half : Half) (s : State) : Host.Outcome State Fault Refusal :=
  .next (rcRead half State.combineDrops (fun s => { s with accum := { s.accum with dropCheck := 0 } })
    (fun s => { s with accum := { s.accum with dropLate := 0 } }) s)

end Sys2Proof.Machine
end

