-- ==== Sys2Proof/Machine/Masks.lean ====
section
/-! DEFINITION. Mask removal: seed records, the seed ledger, mask regeneration and MASK_REMOVE (R195 to R210). -/

namespace Sys2Proof.Machine

open Sys2Proof

/-! ## Masks (R195 to R198) -/

/-- The prime of the seed field, 2^127 − 1. -/
def seedPrime : Nat := 2 ^ 127 - 1

/-- KM of a seed in a group (R197). -/
def maskKey (z0 z1 j take gn : Nat) : Bytes :=
  hkdf (toBE 16 z0 ++ toBE 16 z1) (ascii "LN7300-MASK") ([BitVec.ofNat 8 j] ++ toBE 4 take ++ [BitVec.ofNat 8 gn])

/-- Byte `n` of the keystream of a mask key (R198). -/
def maskByte (prg : Nat) (key : Bytes) (n : Nat) : Byte := if prg = 0 then aesCtrByte key n else chachaByte key n

/-- Element `e` of a mask of element width `w` (R198). -/
def maskElem (prg w : Nat) (key : Bytes) (e : Nat) : Nat := leNat (stream w (fun b => maskByte prg key (w * e + b)))

/-! ## MASK_CONFIGURE (R199) -/

/-- MASK_CONFIGURE (R199). -/
def opMaskConfigure (_ : Nat) (c : Cmd) (s : State) : Verdict :=
  checks [(decide (c.inl 0 1 ≤ 1), inlineAt 0), (decide (2 ≤ c.inl 1 1 ∧ c.inl 1 1 ≤ 128), inlineAt 1), resInline c 2 30] <|
    match s.job? c.job with
    | none => notPermitted 0
    | some jb =>
      if jb.mode ≠ some .masked ∨ jb.filling.isSome then notPermitted 0
      else ok 0 (s.updJob c.job (fun jb => { jb with prg := c.inl 0 1, thresh := c.inl 1 1 }))

/-- MASK_CONFIGURE. -/
def execMaskConfigure (cid : Nat) (s : State) : Host.Outcome State Fault Refusal := .next (runRow .maskConfigure opMaskConfigure cid s)

/-! ## Seed records (R201, R202) -/

/-- A share of a seed: X, Y0 and Y1. -/
structure SeedShare where
  x : Nat
  y0 : Nat
  y1 : Nat
  deriving DecidableEq, Repr, Inhabited

/-- A record of MASK_SEEDS_SUBMIT. -/
structure SeedRecord where
  kind : Nat
  token : Bytes
  peer : Bytes
  shares : List SeedShare
  /-- Its reserved bytes are zero. -/
  clean : Bool
  deriving DecidableEq, Repr, Inhabited

/-- The record at the start of some bytes, and its length; nothing where they end before it does. -/
def seedRecordAt (b : Bytes) : Option (SeedRecord × Nat) :=
  let n := byteAt b 1
  let len := 40 + 48 * n
  if b.length < len then none
  else
    let share (i : Nat) : SeedShare := { x := leAt b (40 + 48 * i) 4, y0 := leAt b (56 + 48 * i) 16, y1 := leAt b (72 + 48 * i) 16 }
    some ({ kind := byteAt b 0, token := slice b 8 16, peer := slice b 24 16, shares := (List.range n).map share,
            clean := zeroAt b 2 6 && (List.range n).all (fun i => zeroAt b (44 + 48 * i) 12) }, len)

/-- The records of the content, up to the first that is cut short, and the bytes left over. -/
def seedRecords : Nat → Bytes → List SeedRecord × Bytes
  | 0, b => ([], b)
  | n + 1, b => match seedRecordAt b with
    | none => ([], b)
    | some (r, len) => let (l, rest) := seedRecords n (b.drop len); (r :: l, rest)

/-- The value at `x` of the polynomial through shares, modulo p (R202): x = 0 rebuilds the seed. -/
def interpolate (l : List (Nat × Nat)) (x : Nat) : Nat :=
  l.foldl (fun a q =>
    let weight := l.foldl (fun w m =>
      if m.1 = q.1 then w
      else w * ((m.1 + seedPrime - x % seedPrime) % seedPrime) % seedPrime
        * expMod seedPrime ((m.1 + seedPrime - q.1) % seedPrime) (seedPrime - 2) % seedPrime) 1
    (a + weight * q.2) % seedPrime) 0

/-- The seed of a record, from its first THRESH shares. -/
def SeedRecord.seed (r : SeedRecord) (thresh : Nat) : Nat × Nat :=
  let l := r.shares.take thresh
  (interpolate (l.map (fun q => (q.x, q.y0))) 0, interpolate (l.map (fun q => (q.x, q.y1))) 0)

/-- Every further share agrees. -/
def SeedRecord.agrees (r : SeedRecord) (thresh : Nat) : Bool :=
  let l := r.shares.take thresh
  (r.shares.drop thresh).all (fun k => interpolate (l.map (fun q => (q.x, q.y0))) k.x == k.y0
    && interpolate (l.map (fun q => (q.x, q.y1))) k.x == k.y1)

/-- A record by itself is valid (R203 check 1); `thresh` is the ledger's, where it is set. -/
def SeedRecord.valid (r : SeedRecord) (thresh : Option Nat) : Bool :=
  (r.kind == 1 || r.kind == 2) && r.clean && ((thresh.map (fun t => decide (t ≤ r.shares.length))).getD true)
    && r.shares.all (fun q => decide (1 ≤ q.x) && decide (q.y0 < seedPrime) && decide (q.y1 < seedPrime))
    && decide ((r.shares.map (·.x)).Nodup)
    && (if r.kind = 1 then r.peer == zeros 16 else r.token != r.peer)

/-! ## The seed rule (R203, R204) -/

/-- The state of a token in a ledger and the earlier records of a command. -/
def seedState (k : Ledger) (before : List SeedRecord) (t : Bytes) : Option SeedMode :=
  match (k.states.find? (fun e => e.1 = t)).map (·.2) with
  | some m => some m
  | none => (before.find? (fun r => r.token = t)).map (fun r => if r.kind = 1 then .self else .pair)

/-- The reason of R204 for which a record is refused. -/
def seedReason (k : Ledger) (before : List SeedRecord) (r : SeedRecord) : Option Nat :=
  let other : SeedMode := if r.kind = 1 then .pair else .self
  if seedState k before r.token = some other then some 1
  else if r.kind = 1 then (if !k.committed.contains r.token && !k.partials then some 2 else none)
  else if k.committed.contains r.token then some 3
  else if !k.committed.contains r.peer && !k.partials then some 4 else none

/-- The first record, with those before it, for which a test gives a reason. -/
def firstRecord (f : List SeedRecord → SeedRecord → Option Nat) (l : List SeedRecord) : Option (Nat × Nat) :=
  (List.range l.length).findSome? (fun i => (l[i]?).bind (fun r => (f (l.take i) r).map (fun why => (i, why))))

/-- A record repeats an entry of the ledger or of the command (R203 check 4). -/
def seedRepeats (k : Ledger) (before : List SeedRecord) (r : SeedRecord) : Bool :=
  if r.kind = 1 then k.selfs.contains r.token || before.any (fun q => q.kind == 1 && q.token == r.token)
  else k.pairs.contains (r.token, r.peer) || before.any (fun q => q.kind == 2 && q.token == r.token && q.peer == r.peer)

/-- Tokens compare as their bytes do. -/
def tokenLess (a b : Bytes) : Bool := decide (beNat a < beNat b)

/-- A group has a bank in a take whose seeds may still come: DRAINING, or FINAL (R51, R205). -/
def Group.inTake (g : Group) (take : Nat) : Bool :=
  [g.bankA, g.bankB].any (fun b => decide (b.take = take) && (b.mode == .draining || b.mode == .final))

/-- The regeneration items of a record: one for each masked group of the take and slice (R205). -/
def seedItems (s : State) (l j : Nat) (k : Ledger) (r : SeedRecord) : List RegenItem :=
  let z := r.seed k.thresh
  ((s.jobGroups j).map (fun e =>
    if e.2.failed.isSome ∨ !e.2.inTake k.take then []
    else (List.range e.2.slices.length).map (fun i =>
      let item : RegenItem :=
        { ledger := l, group := e.1, slice := i, key := maskKey z.1 z.2 j k.take e.1, negative := r.kind == 2 && tokenLess r.token r.peer,
          next := i * e.2.sliceTiles, last := min e.2.tiles ((i + 1) * e.2.sliceTiles) }
      item))).flatten

/-- The ledger takes every record of a command (R205). -/
def takeRecords (l j : Nat) (k : Ledger) (rs : List SeedRecord) (s : State) : State :=
  let states := rs.foldl (fun (a : List (Bytes × SeedMode)) r =>
    if a.any (fun e => e.1 == r.token) then a else a ++ [(r.token, if r.kind = 1 then SeedMode.self else SeedMode.pair)]) k.states
  let k' : Ledger := { k with
    states := states
    selfs := k.selfs ++ (rs.filter (fun r => r.kind = 1)).map (·.token)
    pairs := k.pairs ++ (rs.filter (fun r => r.kind = 2)).map (fun r => (r.token, r.peer))
    items := k.items ++ (rs.map (seedItems s l j k)).flatten }
  { s with masks := { s.masks with ledgers := Table.put s.masks.ledgers l k' } }

/-- Protected memory that a command's records take in their ledger: the token or tokens of an entry, and 32 bytes of key (log entry 117). -/
def ledgerBytes (rs : List SeedRecord) : Nat := (rs.map (fun r => if r.kind = 1 then 48 else 64)).sum

/-- The ledger of a take of a job. -/
def State.ledgerOf (s : State) (j take : Nat) : Option (Nat × Ledger) :=
  s.masks.ledgers.find? (fun e => e.1 / 2 = j ∧ e.2.take = take)

/-- SEED_RULE's DETAIL (R203). -/
def seedDetail (i reason : Nat) : Nat := reason * 2 ^ 24 + i

/-- The checks of R203 over the content, in order. -/
def submitSeeds (j : Nat) (b : Bytes) (s : State) : Verdict :=
  let take := leAt b 0 4
  let n := leAt b 4 4
  let (rs, rest) := seedRecords n (b.drop 16)
  let led := s.ledgerOf j take
  let thresh := (led.map (fun e => e.2.thresh)).filter (fun t => t != 0)
  if b.length < 16 ∨ n = 0 ∨ 65536 < n ∨ !zeroAt b 8 8 then badList
  else match rs.findIdx? (fun r => !r.valid thresh) with
    | some i => .refuse .badParam i 0
    | none =>
      if rs.length < n then .refuse .badParam rs.length 0
      else if !rest.isEmpty then badList
      else match s.job? j, led, thresh with
        | some jb, some (l, k), some t =>
          if jb.mode ≠ some .masked ∨ k.isSealed then .refuse .notPermitted noEntry 0
          else match rs.findIdx? (fun r => !r.agrees t) with
            | some i => .refuse .authFail i 0
            | none =>
              match firstRecord (fun before r => if seedRepeats k before r then some 0 else none) rs, firstRecord (seedReason k) rs with
              | some (i, _), _ => .refuse .duplicateClient i 0
              | none, some (i, why) => .refuse .seedRule (seedDetail i why) 0
              | none, none =>
                if 16777216 < k.selfs.length + (rs.filter (fun r => r.kind = 1)).length
                    ∨ 33554432 < k.pairs.length + (rs.filter (fun r => r.kind = 2)).length then .refuse .noResource noEntry 0
                else match alloc (.ledger l) (ledgerBytes rs) s with
                  | none => .refuse .noResource noEntry 0
                  | some s => ok n (takeRecords l j k rs s)
        | _, _, _ => .refuse .notPermitted noEntry 0

/-- MASK_SEEDS_SUBMIT (R201 to R205). -/
def opMaskSeedsSubmit (_ : Nat) (c : Cmd) (s : State) : Verdict :=
  if !c.inlZero 0 32 then badList
  else withScatter c 0 (fun _ used => if c.body.length ≠ used then badList else withInput c 0 (fun b => submitSeeds c.job b s))

/-- MASK_SEEDS_SUBMIT. -/
def execMaskSeedsSubmit (cid : Nat) (s : State) : Host.Outcome State Fault Refusal :=
  .next (runRow .maskSeedsSubmit opMaskSeedsSubmit cid s)

/-! ## Regeneration (R205) -/

/-- An element of a mask sum, zero when it is not listed. -/
def Ledger.sum (k : Ledger) (gn e : Nat) : Nat := ((k.sums.find? (fun x => x.1 = gn ∧ x.2.1 = e)).map (·.2.2)).getD 0

/-- Sets elements of a group's mask sum, in ascending order, keeping only those that are not zero. -/
def Ledger.setSums (k : Ledger) (gn : Nat) (l : List (Nat × Nat)) : Ledger :=
  let others := k.sums.filter (fun x => !(x.1 == gn && l.any (fun y => y.1 == x.2.1)))
  let fresh := (l.filter (fun y => y.2 ≠ 0)).map (fun y => (gn, y.1, y.2))
  { k with sums := sortBy (fun (x : Nat × Nat × Nat) => x.1 * 2 ^ 32 + x.2.1) (others ++ fresh) }

/-- One mask tile is added to the mask sum, modulo 2^k (R205). -/
def addMaskTile (g : Group) (k : Ledger) (it : RegenItem) : Ledger :=
  let lo := it.next * g.per
  let hi := min g.count (lo + g.per)
  let q := 2 ^ (8 * g.w)
  k.setSums it.group ((List.range (hi - lo)).map (fun i =>
    let e := lo + i
    let m := maskElem k.prg g.w it.key e
    (e, (k.sum it.group e + (if it.negative then q - m else m)) % q)))

/-- MASK_REGEN_TILE: item `item` of a ledger adds its next tile, and its key is erased with its last (R205). -/
def execMaskRegenTile (ledger item : Nat) (s : State) : Host.Outcome State Fault Refusal :=
  .next (match Table.get? s.masks.ledgers ledger with
    | none => s
    | some k =>
      match k.items[item]? with
      | none => s
      | some it =>
        match s.group? it.group with
        | none => s
        | some g =>
          let k := addMaskTile g k it
          let it' : RegenItem := { it with next := it.next + 1 }
          let k := if it'.next < it'.last then { k with items := k.items.set item it' } else { k with items := k.items.eraseIdx item }
          { s with masks := { s.masks with ledgers := Table.put s.masks.ledgers ledger k, done := satAdd s.masks.done 1 } })

/-! ## MASK_REMOVE (R207, R208) -/

/-- MASK_REMOVE (R207). -/
def opMaskRemove (cid : Nat) (c : Cmd) (s : State) : Verdict :=
  match s.groupOf c.job c.group with
  | none => .refuse .groupClosed 0 0
  | some g =>
    let isB := c.inl 0 1 == 1
    let take := c.inl 4 4
    let b := g.bank isB
    checks [(decide (c.inl 0 1 ≤ 1), inlineAt 0), resInline c 1 3, resInline c 8 24] <|
      match g.failed with
      | some f => .refuse f.status 0 0
      | none =>
        let jb := s.job? c.job
        let unmask := ((jb.bind (·.graph)).map (fun k => k.serves 6 c.group)).getD false
        if (jb.bind (·.mode)) ≠ some .masked ∨ b.mode ≠ .final ∨ b.take ≠ take ∨ !unmask then notPermitted 1
        else if b.cut then notPermitted 2
        else
          let led := s.ledgerOf c.job take
          let selfs := (led.map (fun e => e.2.selfs.length)).getD 0
          if selfs ≠ b.count then .refuse .notPermitted 3 (((selfs : Int) - b.count) % (2 ^ 64 : Int)).toNat
          else match led with
            | none => notPermitted 3
            | some (l, k) =>
              if k.removed.contains (c.group, isB) then notPermitted 4
              else
                let k' : Ledger := { k with isSealed := true, removed := k.removed ++ [(c.group, isB)] }
                .goes (commit cid (.unmasking isB take)
                  { s with masks := { s.masks with ledgers := Table.put s.masks.ledgers l k' } })

/-- MASK_REMOVE. -/
def execMaskRemove (cid : Nat) (s : State) : Host.Outcome State Fault Refusal := .next (runRow .maskRemove opMaskRemove cid s)

/-- The unmasked elements of a bank: B − A modulo 2^k (R208). -/
def unmasked (g : Group) (gn : Nat) (b : Bank) (k : Ledger) : List (Nat × Elem) :=
  let q := 2 ^ (8 * g.w)
  (List.range g.count).filterMap (fun e =>
    let v := ((b.elem e).a.toNat + (q - k.sum gn e)) % q
    if v = 0 then none else some (e, { a := v, x := 0, y := 0 }))

/-- The descriptor of tile `i` of an unmasked bank: the bank's, written by UNMASK, with BANK and PROTECTED set (R33, R208). -/
def unmaskedDesc (gn : Nat) (g : Group) (b : Bank) (i : Nat) : Bytes :=
  let first := i * g.bankPer
  let j := g.sliceOf (first / g.per)
  TileDesc.bytes
    { format := g.format, job := g.job, group := gn, station := 6, mode := Mode.masked.code,
      flags := descFlags false true false true false (i + 1 = g.bankTiles), take := b.take, valid := g.bankBytes i,
      seq := b.start, first := first, slice := j, epoch := (unit g.slices j).epoch, segment := 0xFFFFFFFF, contribs := b.count,
      seqEnd := b.stop.getD b.start, scale := 0, kind := g.kind, paramSet := 0, randRef := 0 }

/-- The gate holds a bank's unmasked elements, and UNMASK has issued its tiles in order (R208). -/
def sendUnmasked (gn : Nat) (g : Group) (isB : Bool) (l : List (Nat × Elem)) (s : State) : State :=
  let b := g.bank isB
  let tiles := (List.range g.bankTiles).map (fun i => (g.coreOf (i * g.bankPer / g.per), unmaskedDesc gn g b i))
  let s := tiles.foldl (fun s t => traceIssued t.1 t.2 s) s
  { s with gate := { s.gate with items := Table.upd s.gate.items (itemKey gn isB) (fun it => { it with elems := l, descs := tiles.map (·.2) }) } }

/-- UNMASK writes B − A to the gate, the mask sum is erased, and MASK_REMOVE completes (R208). -/
def unmaskBank (cid : Nat) (c : Cmd) (isB : Bool) (l : Nat) (k : Ledger) (g : Group) (s : State) : State :=
  let elems := unmasked g c.group (g.bank isB) k
  let s := dropSum l c.group (sendUnmasked c.group g isB elems (holdItem c.group isB s))
  finishStation c.group isB 6 (complete cid .ok 0 (k.selfs.length + k.pairs.length) s)

/-- MASK_REMOVE_UNMASK: every item of the group has finished. -/
def execMaskRemoveUnmask (cid : Nat) (s : State) : Host.Outcome State Fault Refusal :=
  .next (match s.cmd? cid with
    | none => s
    | some c =>
      match c.work, s.group? c.group with
      | .unmasking isB take, some g =>
        match s.ledgerOf c.job take with
        | none => s
        | some (l, k) => if k.items.any (fun it => it.group == c.group) then s else unmaskBank cid c isB l k g s
      | _, _ => s)

/-! ## Registers (R209) -/

/-- Keystream tiles queued over all jobs. -/
def State.regenPending (s : State) : Nat :=
  (s.masks.ledgers.map (fun e => (e.2.items.map (fun it => it.last - it.next)).sum)).sum

/-- MSK_REGEN as it reads. -/
def State.mskRegen (s : State) : Word64 :=
  place 0 (s.coarse (BitVec.ofNat 32 (min s.regenPending 0xFFFFFFFF))) ||| place 32 (s.coarse s.masks.done)

/-- MSK_REGEN_READ clears DONE, which lies in the high half. -/
def execMskRegenRead (half : Half) (s : State) : Host.Outcome State Fault Refusal :=
  .next (rcRead half State.mskRegen id (fun s => { s with masks := { s.masks with done := 0 } }) s)

/-- MSK_LEDGER as it reads. -/
def State.mskLedger (s : State) (l : Nat) : Word64 :=
  match Table.get? s.masks.ledgers l with
  | none => 0
  | some k => placeN 0 32 k.take ||| placeN 32 2 (if k.isSealed then 2 else 1) ||| placeB 34 k.partials

/-- MSK_LEDGER_COUNT as it reads, coarsened. -/
def State.mskLedgerCount (s : State) (l : Nat) : Word64 :=
  match Table.get? s.masks.ledgers l with
  | none => 0
  | some k => placeN 0 32 (s.coarseN k.selfs.length) ||| placeN 32 32 (s.coarseN k.pairs.length)

end Sys2Proof.Machine
end

