-- ==== Sys2Proof/Machine/Noise.lean ====
section
/-! DEFINITION. The NOISE station: exact discrete Gaussian sampling from a seed's word stream (R255, R256). -/

namespace Sys2Proof.Machine

open Sys2Proof

/-- Word `i` of a noise tile's stream (R256). -/
def noiseWord (seed : Bytes) (i : Nat) : Nat := leNat (stream 8 (fun b => aesCtrByte seed (8 * i + b)))

/-- The number that words `pos` to `pos + n - 1` spell, word 0 least significant. -/
def noiseWords (seed : Bytes) (n pos : Nat) : Nat :=
  (List.range n).foldl (fun a i => a + noiseWord seed (pos + i) * 2 ^ (64 * i)) 0

/-- An integer in [0, d), and the next position; `fuel` bounds the draws (log entry 32). -/
def uniformBelow (seed : Bytes) (d : Nat) : Nat → Nat → Nat × Nat
  | 0, pos => (0, pos)
  | fuel + 1, pos =>
    if d ≤ 1 then (0, pos)
    else
      let b := (d - 1).log2 + 1
      let n := (b + 63) / 64
      let u := noiseWords seed n pos % 2 ^ b
      if u < d then (u, pos + n) else uniformBelow seed d fuel (pos + n)

/-- The k at which bernoulli(n, d·k) first fails, from k on. -/
def bernoulliRun (seed : Bytes) (n d : Nat) : Nat → Nat → Nat → Nat × Nat
  | 0, k, pos => (k, pos)
  | fuel + 1, k, pos =>
    let (u, pos) := uniformBelow seed (d * k) expandFuel pos
    if u < n then bernoulliRun seed n d fuel (k + 1) pos else (k, pos)

/-- bexp(n, d) for n at most d: true with probability exp(−n/d). -/
def bexpSmall (seed : Bytes) (n d pos : Nat) : Bool × Nat :=
  let (k, pos) := bernoulliRun seed n d expandFuel 1 pos
  (k % 2 == 1, pos)

/-- bexp(n, d). -/
def bexp (seed : Bytes) (d : Nat) : Nat → Nat → Nat → Bool × Nat
  | 0, _, pos => (false, pos)
  | fuel + 1, n, pos =>
    if n ≤ d then bexpSmall seed n d pos
    else
      let (go, pos) := bexpSmall seed 1 1 pos
      if go then bexp seed d fuel (n - d) pos else (false, pos)

/-- How often bexp(1, 1) succeeds in a row. -/
def bexpRun (seed : Bytes) : Nat → Nat → Nat → Nat × Nat
  | 0, v, pos => (v, pos)
  | fuel + 1, v, pos =>
    let (go, pos) := bexpSmall seed 1 1 pos
    if go then bexpRun seed fuel (v + 1) pos else (v, pos)

/-- laplace(t). -/
def laplace (seed : Bytes) (t : Nat) : Nat → Nat → Int × Nat
  | 0, pos => (0, pos)
  | fuel + 1, pos =>
    let (u, pos) := uniformBelow seed t expandFuel pos
    let (go, pos) := bexp seed t expandFuel u pos
    if !go then laplace seed t fuel pos
    else
      let (v, pos) := bexpRun seed expandFuel 0 pos
      let x := u + t * v
      let (sign, pos) := uniformBelow seed 2 expandFuel pos
      if sign = 1 then (if x = 0 then laplace seed t fuel pos else (-(x : Int), pos)) else (x, pos)

/-- gaussian(num, den): a sample, and the next position. -/
def gaussian (seed : Bytes) (num den : Nat) : Nat → Nat → Int × Nat
  | 0, pos => (0, pos)
  | fuel + 1, pos =>
    let t := num / den + 1
    let (y, pos) := laplace seed t expandFuel pos
    if 2 ^ 53 ≤ y.natAbs then gaussian seed num den fuel pos
    else
      let a : Int := y.natAbs * t * den * den - num * num
      let (go, pos) := bexp seed (2 * t * t * den * den * num * num) expandFuel (a * a).toNat pos
      if go then (y, pos) else gaussian seed num den fuel pos

/-- The first `n` samples of a noise tile, in ascending element order (R256). -/
def noiseTile (seed : Bytes) (num den : Nat) : Nat → Nat → List Int
  | 0, _ => []
  | n + 1, pos =>
    let (x, pos) := gaussian seed num den expandFuel pos
    x :: noiseTile seed num den n pos

end Sys2Proof.Machine
end

