-- ==== Sys2Proof/Machine/Ring.lean ====
section
/-! DEFINITION. Ring arithmetic of the heddle: transforms, base conversion and noise bounds (R215, R216, R220, R233, R242 to
R246). -/

namespace Sys2Proof.Machine

open Sys2Proof

/-! ## Primes (R219) -/

/-- Squares `x` up to `fuel` times, looking for n − 1. -/
def millerRabinLoop (n : Nat) : Nat → Nat → Bool
  | 0, _ => false
  | fuel + 1, x => x == n - 1 || millerRabinLoop n fuel (x * x % n)

/-- The power of two in a positive number, and its odd part. -/
def oddPart : Nat → Nat → Nat → Nat × Nat
  | 0, r, d => (r, d)
  | fuel + 1, r, d => if d % 2 = 0 ∧ 0 < d then oddPart fuel (r + 1) (d / 2) else (r, d)

/-- The primality check of R219, for numbers above 37. -/
def isPrime (n : Nat) : Bool :=
  let (r, d) := oddPart 64 0 (n - 1)
  [2, 3, 5, 7, 11, 13, 17, 19, 23, 29, 31, 37].all (fun a =>
    let x := expMod n a d
    x == 1 || millerRabinLoop n r x)

/-! ## Montgomery reduction and twiddle tables (R215, R221) -/

/-- q′ = −q⁻¹ mod 2^64, for an odd q. -/
def qPrime (q : Nat) : Nat := (2 ^ 64 - expMod (2 ^ 64) q (2 ^ 62 - 1)) % 2 ^ 64

/-- a·b·2^−64 mod q for a and b below q, by R215's reduction. -/
def montMul (q a b : Nat) : Nat :=
  let t := a * b
  let m := t % 2 ^ 64 * qPrime q % 2 ^ 64
  let r := (t + m * q) / 2 ^ 64
  if q ≤ r then r - q else r

/-- x·2^64 mod q. -/
def toMont (q x : Nat) : Nat := x * 2 ^ 64 % q

/-- A table slot's 1 024 entries for a limb: ψ^j and ψ^(512·j) for j = 0 to 511, in Montgomery form. -/
def twiddles (q psi : Nat) : List Nat :=
  (List.range 512).map (fun j => toMont q (expMod q psi j)) ++ (List.range 512).map (fun j => toMont q (expMod q psi (512 * j)))

/-- ψ^e in Montgomery form from a limb's entries, for e = 512·hi + lo below 2N. -/
def twiddle (q : Nat) (tw : List Nat) (e : Nat) : Nat := montMul q (tw.getD (512 + e / 512) 0) (tw.getD (e % 512) 0)

/-! ## Transforms (R216) -/

/-- Reverses the low `n` bits of a number. -/
def brv (n j : Nat) : Nat := bitsOf n (fun i => j.testBit (n - 1 - i))

/-- Σ a_i·ψ^(e i) mod q. -/
def twiddleSum (q : Nat) (tw : List Nat) (e : Nat → Nat) (a : List Nat) : Nat :=
  (a.mapIdx (fun i v => montMul q v (twiddle q tw (e i)))).foldl (fun x y => (x + y) % q) 0

/-- A limb's NTT: element j is a(ψ^(2·brv(j)+1)) mod q. -/
def nttLimb (logN q : Nat) (tw a : List Nat) : List Nat :=
  (List.range (2 ^ logN)).map (fun j => twiddleSum q tw (fun i => i * (2 * brv logN j + 1) % 2 ^ (logN + 1)) a)

/-- The inverse of `nttLimb`, with N⁻¹ mod q at the end; ψ^−e is ψ^(2N − e). -/
def inttLimb (logN q : Nat) (tw a : List Nat) : List Nat :=
  let n := 2 ^ logN
  let inv := expMod q n (q - 2)
  (List.range n).map (fun i => twiddleSum q tw (fun j => (2 * n - (2 * brv logN j + 1) * i % (2 * n)) % (2 * n)) a * inv % q)

/-- Brings residues from one domain to another: true for NTT. -/
def toDomain (logN q : Nat) (tw : List Nat) (from_ to_ : Bool) (a : List Nat) : List Nat :=
  if from_ == to_ then a else if to_ then nttLimb logN q tw a else inttLimb logN q tw a

/-- Sum, difference and product of two limbs, element by element. -/
def addLimb (q : Nat) (a b : List Nat) : List Nat := List.zipWith (fun x y => (x + y) % q) a b
/-- Difference. -/
def subLimb (q : Nat) (a b : List Nat) : List Nat := List.zipWith (fun x y => (x + q - y % q) % q) a b
/-- Product. -/
def mulLimb (q : Nat) (a b : List Nat) : List Nat := List.zipWith (fun x y => x * y % q) a b
/-- Product with a constant. -/
def scaleLimb (q k : Nat) (a : List Nat) : List Nat := a.map (fun x => x * k % q)
/-- Integers reduced modulo q (R247). -/
def reduceInts (q : Nat) (l : List Int) : List Nat := l.map (fun x => (x % (q : Int)).toNat)

/-- Inverse modulo a prime. -/
def invMod (q a : Nat) : Nat := expMod q (a % q) (q - 2)

/-- Product of the numbers other than the one at a position. -/
def productBut (l : List Nat) (i : Nat) : Nat := ((l.eraseIdx i).foldl (· * ·) 1)

/-- Conv_S(x)_t: base conversion of residues over primes `ps` to the prime `t` (R242). -/
def convert (ps : List Nat) (x : List (List Nat)) (t : Nat) : List Nat :=
  ((ps.mapIdx (fun i q =>
    let hat := productBut ps i
    scaleLimb t (hat % t) (scaleLimb q (invMod q hat) (x.getD i []))))).foldl (addLimb t)
    (List.replicate ((x.head?.map List.length).getD 0) 0)

/-! ## Bounds (R220, R233) -/

/-- The largest r with r^256 at most `v`, below 2^bits above `acc`. -/
def root256 (v : Nat) : Nat → Nat → Nat
  | 0, acc => acc
  | b + 1, acc => if (acc + 2 ^ b) ^ 256 ≤ v then root256 v b (acc + 2 ^ b) else root256 v b acc

/-- ⌊2^(p + j/256)⌋. -/
def powFloor (p j : Nat) : Nat := root256 (2 ^ (256 * p + j)) (p + j / 256 + 1) 0

/-- The coefficient of 2^(r/256) in Σ c·2^(b/256), each exponent reduced modulo 256. -/
def coefficient (l : List (Nat × Nat)) (r : Nat) : Nat := ((l.filter (fun e => e.2 % 256 = r)).map (fun e => e.1 * 2 ^ (e.2 / 256))).sum

/-- Compares Σ c·2^(b/256) with 2^(k/256) at a precision that doubles until it decides; the powers are independent over the rationals,
so that two equal sums have equal coefficients. -/
def sumAtMost (l : List (Nat × Nat)) (k : Nat) : Nat → Nat → Bool
  | 0, _ => (List.range 256).all (fun r => coefficient l r == coefficient [(1, k)] r)
  | fuel + 1, p =>
    let low := (l.map (fun e => e.1 * powFloor p e.2)).sum
    let high := (l.map (fun e => e.1 * (powFloor p e.2 + 1))).sum
    if high ≤ powFloor p k then true
    else if powFloor p k + 1 ≤ low then false
    else if (List.range 256).all (fun r => coefficient l r == coefficient [(1, k)] r) then true
    else sumAtMost l k fuel (2 * p)

/-- The largest value below 2^bits above `acc` at which a falling predicate still holds, plus one where it holds there. -/
def firstFalse (p : Nat → Bool) : Nat → Nat → Nat
  | 0, acc => if p acc then acc + 1 else acc
  | b + 1, acc => if p (acc + 2 ^ b - 1) then firstFalse p b (acc + 2 ^ b) else firstFalse p b acc

/-- SUMB of values given as count and value: the smallest k with 2^(k/256) ≥ Σ 2^(b/256) (R233). -/
def sumB (l : List (Nat × Nat)) : Nat := firstFalse (fun k => !sumAtMost l k 12 64) 18 0

/-- LOG2F(q): the largest k with 2^(k/256) ≤ q. -/
def log2F (q : Nat) : Nat := (q ^ 256).log2

/-- CAP(ℓ) in units of 1/256: the largest k with 2^(k/256) < Δ/2 − T, strictly; none where Δ/2 − T is not positive (R220). -/
def capBits (primes : List Nat) (level t : Nat) : Option Int :=
  let delta := (primes.take (level + 1)).foldl (· * ·) 1 / t
  if delta ≤ 2 * t then none
  else if delta - 2 * t = 1 then some (-257) else some ((((delta - 2 * t) ^ 256 - 1).log2 : Int) - 256)

end Sys2Proof.Machine
end

