-- ==== Sys2Proof/Machine/Poly.lean ====
section
/-! DEFINITION. The heddle: parameter sets, table slots, objects and keys, and the POLY commands (R218 to R250). -/

namespace Sys2Proof.Machine

open Sys2Proof

/-! ## Parameter sets (R218 to R220) -/

/-- Changes the heddles' state. -/
def State.updPoly (s : State) (f : Poly → Poly) : State := { s with poly := f s.poly }

/-- CAP of a level. -/
def ParamSet.cap (p : ParamSet) (level : Nat) : Option Int := capBits p.primes level p.t

/-- A 16-bit noise or budget field; one that cannot hold its value is open (log entry 36). -/
def field16 (signed : Bool) (v : Int) : BitVec 16 :=
  if (if signed then decide (-32768 ≤ v ∧ v < 32768) else decide (0 ≤ v ∧ v < 65536)) then BitVec.ofInt 16 v else Config.wideField v

/-- BUDGET_BITS: CAP − NOISE_BITS; far below zero where no capacity exists. -/
def ParamSet.budget (p : ParamSet) (level noise : Nat) : Int := ((p.cap level).getD (-1000000)) - noise

/-- The set that a block describes. -/
def paramSetOf (b : Bytes) : ParamSet :=
  { logN := leAt b 2 1, limbs := leAt b 3 1, special := leAt b 4 1, ingestForm := leAt b 5 1, ingestDomain := leAt b 6 1,
    eta := leAt b 7 1, ingestVer := leAt b 8 2, inputBits := leAt b 10 2, roundBits := leAt b 12 2, t := leAt b 16 8,
    encKeyTag := BitVec.ofNat 64 (leAt b 24 8), primes := (List.range (leAt b 3 1 + leAt b 4 1)).map (fun i => leAt b (64 + 8 * i) 8)
    versions := [] }

/-- A parameter set is referenced by an open group, an object or a table slot (R219). -/
def State.setUsed (s : State) (p : Nat) : Bool :=
  s.accum.groups.any (fun e => isRns e.2.format && e.2.paramSet == p) || s.poly.objects.any (fun e => e.2.paramSet == p)
    || s.poly.heddles.any (fun h => [h.slot0, h.slot1].any (fun k => k.state != .empty && (k.set == p || k.next.any (fun n => n.1 == p))))

/-- POLY_PARAMS_LOAD (R218, R219). -/
def opPolyParamsLoad (_ : Nat) (c : Cmd) (s : State) : Verdict :=
  let b := c.body
  let n := c.par 0 2
  let k := paramSetOf b
  let total := k.limbs + k.special
  checks ([resInline c 0 32, (decide (0x100 ≤ n ∧ n ≤ 0xFFFE), blockAt 0), (decide (10 ≤ k.logN ∧ k.logN ≤ 17), blockAt 2),
      (decide (1 ≤ k.limbs ∧ k.limbs ≤ 64), blockAt 3), (decide (total ≤ 64), blockAt 4), (b.length == 64 + 8 * total, 12),
      (decide (k.ingestForm ≤ 1), blockAt 5), (decide (k.ingestDomain ≤ 1), blockAt 6), (decide (1 ≤ k.eta ∧ k.eta ≤ 16), blockAt 7),
      ((k.ingestDomain == 1) == (k.ingestVer != 0), blockAt 8), resBlock c 14 2,
      (decide (2 ≤ k.t ∧ k.t < unit k.primes 0), blockAt 16), resBlock c 32 32]
    ++ k.primes.mapIdx (fun i q => (decide (2 ^ 20 < q ∧ q < 2 ^ 61) && q % 2 ^ (k.logN + 1) == 1 && isPrime q
        && !(k.primes.take i).contains q, blockAt (64 + 8 * i)))) <|
    if s.setUsed n then notPermitted 6
    else if (s.paramSet? n).isNone ∧ 16 ≤ s.poly.sets.length then .refuse .noResource 0 0
    else
      let cap := match k.cap (k.limbs - 1) with
        | some v => field16 false v
        | none => Config.wideField (-1)
      ok cap.toNat (s.updPoly (fun p => { p with sets := Table.put p.sets n k }))

/-- POLY_PARAMS_LOAD. -/
def execPolyParamsLoad (cid : Nat) (s : State) : Host.Outcome State Fault Refusal :=
  .next (runRow .polyParamsLoad opPolyParamsLoad cid s)

/-! ## Table slots (R221 to R223) -/

/-- Slot 0 or 1 of a heddle. -/
def Heddle.slot (h : Heddle) (one : Bool) : TableSlot := if one then h.slot1 else h.slot0

/-- Changes a slot of a heddle. -/
def Heddle.upd (h : Heddle) (one : Bool) (f : TableSlot → TableSlot) : Heddle :=
  if one then { h with slot1 := f h.slot1 } else { h with slot0 := f h.slot0 }

/-- Changes heddle `h`. -/
def State.updHeddle (s : State) (h : Nat) (f : Heddle → Heddle) : State :=
  s.updPoly (fun p => { p with heddles := p.heddles.modify h f })

/-- A slot is in a state with a version. -/
def TableSlot.is (k : TableSlot) (m : SlotState) (set ver : Nat) : Bool := k.state == m && k.set == set && k.ver == ver

/-- A heddle holds a version in a slot of a state. -/
def Heddle.holds (h : Heddle) (m : SlotState) (set ver : Nat) : Bool := h.slot0.is m set ver || h.slot1.is m set ver

/-- A build of the version is under way or waits on the heddle. -/
def Heddle.builds (h : Heddle) (set ver : Nat) : Bool :=
  h.holds .building set ver || h.slot0.next == some (set, ver) || h.slot1.next == some (set, ver)

/-- The slot that a build takes (R222): an EMPTY one, the older READY one without users, or the older READY one, which retires. `users` are the commands that
have named the version. -/
def Heddle.place (h : Heddle) (set ver : Nat) (users : List Nat) : Heddle :=
  if h.holds .ready set ver ∨ h.builds set ver then h
  else
    let older (p : TableSlot → Bool) : Option Bool :=
      match p h.slot0, p h.slot1 with
      | true, true => some (decide (h.slot1.order < h.slot0.order))
      | true, false => some false
      | false, true => some true
      | false, false => none
    match older (fun k => k.state == .empty) with
    | some _ => h.upd (h.slot0.state != .empty) (fun k => k.begin set ver users)
    | none =>
      match older (fun k => k.state == .ready && k.users.isEmpty) with
      | some b => h.upd b (fun k => k.begin set ver users)
      | none =>
        match older (fun k => k.state == .ready) with
        | some b => h.upd b (fun k => { k with state := .retiring, next := some (set, ver) })
        | none => h

/-- A slot whose table is lost is built again (R250, R359). -/
def TableSlot.rebuild (k : TableSlot) : TableSlot := { k with state := .building, built := 0, entries := [] }

/-- Every heddle in service that does not hold a version begins to build it. -/
def buildEverywhere (set ver : Nat) (s : State) : State :=
  s.updPoly (fun p => { p with heddles := p.heddles.map (fun h =>
    if h.inService then h.place set ver (namersOf s.cmds set ver) else h) })

/-- POLY_TABLE_BUILD (R222). -/
def opPolyTableBuild (cid : Nat) (c : Cmd) (s : State) : Verdict :=
  let set := c.par 0 2
  let ver := c.par 2 2
  let n := c.par 4 1
  checks [resInline c 0 32] <|
    match s.paramSet? set with
    | none => badBlock 0
    | some p =>
      let roots := (List.range n).map (fun i => c.par (16 + 8 * i) 8)
      let start (s : State) : Verdict := .goes (commit cid (.tables set ver s.time.ptime.toNat) (buildEverywhere set ver s))
      checks [(ver != 0, blockAt 2), resBlock c 5 11] <|
        if Table.has p.versions ver then checks [(n == 0, blockAt 4), (c.body.length == 16, 12)] (start s)
        else if !c.auth then notPermitted 4
        else
          checks ([(n == p.limbs + p.special, blockAt 4), (c.body.length == 16 + 8 * n, 12)]
            ++ roots.mapIdx (fun i r => let q := unit p.primes i; (expMod q r (2 ^ p.logN) == q - 1, blockAt (16 + 8 * i)))) <|
            if 8 ≤ p.versions.length then .refuse .noResource 0 0
            else
              let p' : ParamSet := { p with versions := Table.put p.versions ver (roots.mapIdx (fun i r => r % unit p.primes i)) }
              start (s.updPoly (fun k => { k with sets := Table.put k.sets set p' }))

/-- POLY_TABLE_BUILD. -/
def execPolyTableBuild (cid : Nat) (s : State) : Host.Outcome State Fault Refusal :=
  .next (runRow .polyTableBuild opPolyTableBuild cid s)

/-- Heddles in service. -/
def State.heddlesIn (s : State) : List (Nat × Heddle) := (s.poly.heddles.mapIdx (fun i h => (i, h))).filter (fun e => e.2.inService)

/-- The slot in which a heddle holds a version READY. -/
def Heddle.ready? (h : Heddle) (set ver : Nat) : Option TableSlot := [h.slot0, h.slot1].find? (fun k => k.is .ready set ver)

/-- TABLE_BUILD_DONE: every heddle in service holds the version READY (R222, R249). -/
def execTableBuildDone (cid : Nat) (s : State) : Host.Outcome State Fault Refusal :=
  .next (match s.cmd? cid with
    | none => s
    | some c =>
      match c.work with
      | .tables set ver since =>
        let hs := s.heddlesIn
        if !hs.all (fun e => e.2.holds .ready set ver) then buildEverywhere set ver s
        else
          let slots := hs.filterMap (fun e => (e.2.ready? set ver).map (fun k => (e.1, k)))
          let last := slots.foldl (fun (m : Nat × Nat) e => if m.2 ≤ e.2.order then (e.1, e.2.order) else m) (0, 0)
          let raised := (slots.filter (fun e => e.2.raised)).length
          complete cid .ok 0 hs.length (forCommand cid (post .tableReady 0x01 (last.1 / 2) nobody nobody
            (toLE 2 set ++ toLE 2 ver ++ [BitVec.ofNat 8 hs.length, BitVec.ofNat 8 raised] ++ zeros 2
              ++ toLE 4 ((s.time.ptime.toNat - since) / 1000))) s)
      | _ => s)

/-! ## Objects (R228 to R232) -/

/-- Key of an object in the store. -/
def objId (j handle : Nat) : Nat := 4096 * j + handle

/-- A live object of a job: one that admits new users (R232). -/
def State.object? (s : State) (j handle : Nat) : Option PolyObject :=
  (Table.get? s.poly.objects (objId j handle)).filter (fun o => !o.freeing)

/-- DATA_BYTES. -/
def PolyObject.bytes (o : PolyObject) : Nat := 8 * o.data.length

/-- An object is a key: kinds KS_KEY, PUBLIC_KEY and SECRET_SHARE. -/
def PolyObject.isKey (o : PolyObject) : Bool := decide (2 ≤ o.kind ∧ o.kind ≤ 4)

/-- LIMB_MASK: the limbs held; none for an additive share. -/
def PolyObject.limbMask (o : PolyObject) : Nat := if o.kind = 6 then 0 else 2 ^ (o.level + 1 + o.special) - 1

/-- BUDGET_BITS of an object. -/
def State.objBudget (s : State) (o : PolyObject) : Int :=
  if o.isKey then 0 else ((s.paramSet? o.paramSet).map (fun p => p.budget o.level o.noise)).getD 0

/-- The 128-byte descriptor (R229). -/
def State.objDesc (s : State) (j handle : Nat) (o : PolyObject) : Bytes :=
  let d := [1, BitVec.ofNat 8 o.kind] ++ toLE 2 o.paramSet ++ toLE 2 (if o.ntt then o.tableVer else 0)
    ++ [BitVec.ofNat 8 o.level, if o.ntt then 1 else 0] ++ toLE 8 o.limbMask ++ toLE 8 o.keyTag.toNat ++ toLE 8 o.targetTag.toNat
    ++ toLE 2 (field16 false o.noise).toNat ++ toLE 2 (field16 true (s.objBudget o)).toNat ++ toLE 4 o.count
    ++ [BitVec.ofNat 8 j, BitVec.ofNat 8 o.dnum, BitVec.ofNat 8 o.special, BitVec.ofNat 8 o.comps] ++ toLE 4 o.contribs
    ++ toLE 8 o.bytes ++ toLE 2 o.auxBits ++ zeros 2 ++ toLE 4 o.take ++ fitBytes 32 o.idHash ++ toLE 8 o.seqEnd ++ toLE 2 handle
    ++ zeros 18
  d ++ toLE 4 (crc32c d).toNat

/-- The data of an object as bytes. -/
def PolyObject.dataBytes (o : PolyObject) : Bytes := (o.data.map (toLE 8)).flatten

/-! ## Key tiles (R230, R243) -/

/-- Residues of a key tile: 64 KiB. -/
def keyTileWords : Nat := 8192

/-- The 32-byte header of a key's tile (R230). -/
def PolyObject.tileHeader (o : PolyObject) (index : Nat) : Bytes :=
  let h := toLE 8 o.keyTag.toNat ++ toLE 2 o.paramSet ++ toLE 2 o.tableVer ++ toLE 4 index ++ [BitVec.ofNat 8 o.kind] ++ zeros 11
  h ++ toLE 4 (crc32c h).toNat

/-- Tiles that a key's data takes. -/
def PolyObject.keyTiles (o : PolyObject) : Nat := (o.data.length + keyTileWords - 1) / keyTileWords

/-- A key with the headers of its tiles. -/
def PolyObject.tiled (o : PolyObject) : PolyObject := { o with headers := (List.range o.keyTiles).map o.tileHeader }

/-- Limbs in each component of a key. -/
def PolyObject.keyLimbs (o : PolyObject) (p : ParamSet) : Nat := if o.kind = 2 then p.limbs + p.special else p.limbs

/-- A key tile is streamed at a level: not all its limbs lie above ℓ and below L (R243). -/
def PolyObject.streams (o : PolyObject) (p : ParamSet) (level index : Nat) : Bool :=
  let n := 2 ^ p.logN
  let first := index * keyTileWords / n
  let last := (min ((index + 1) * keyTileWords) o.data.length - 1) / n
  (List.range (last + 1 - first)).any (fun i =>
    let limb := (first + i) % max 1 (o.keyLimbs p)
    decide (limb ≤ level) || decide (p.limbs ≤ limb))

/-- A tile header names a key tag and its check holds. -/
def headerOk (tag : Word64) (h : Bytes) : Bool := leAt h 0 8 == tag.toNat && leAt h 28 4 == (crc32c (h.take 28)).toNat

/-- The first tile streamed whose header does not carry the ciphertext's KEY_TAG, or whose HCHK fails (R243). -/
def PolyObject.badTile (key : PolyObject) (p : ParamSet) (a : PolyObject) : Option Nat :=
  (List.range key.keyTiles).find? (fun i => key.streams p a.level i && !headerOk a.keyTag (key.headers.getD i []))

/-- Bytes of an object in protected memory: its data, and its key tile headers. -/
def PolyObject.stored (o : PolyObject) : Nat := o.bytes + 32 * o.headers.length

/-- The store takes an object: its handle is in use, or fewer than 16 384 objects exist (R228). -/
def State.storeTakes (s : State) (id : Nat) : Bool := Table.has s.poly.objects id || decide (s.poly.objects.length < 16384)

/-- Puts an object under a handle; one that stood there keeps its users. -/
def storeObject (id : Nat) (o : PolyObject) (s : State) : State :=
  let o := match Table.get? s.poly.objects id with
    | none => o
    | some old => { o with freeing := old.freeing, users := old.users }
  s.updPoly (fun p => { p with objects := Table.put p.objects id o })

/-- Places a new object in protected memory and in the store (R228). -/
def putObject (j handle : Nat) (o : PolyObject) (s : State) : Option State :=
  let id := objId j handle
  if !s.storeTakes id then none else (alloc (.object id) o.stored s).map (storeObject id o)

/-- A command's scratch becomes the place of its result, and what the handle held before is freed (R239). Scratch that a stack took with
it is placed again. -/
def claimScratch (cid : Nat) (second : Bool) (id bytes : Nat) (s : State) : Option State :=
  let own : Owner := .scratch cid second
  let s := dealloc (.object id) s
  if s.mem.allocs.any (fun a => a.owner = own) then
    some { s with mem := { s.mem with allocs := s.mem.allocs.map (fun a => if a.owner = own then { a with owner := .object id } else a) } }
  else alloc (.object id) bytes s

/-- A result takes its handle in one action (R239). -/
def putResult (cid : Nat) (second : Bool) (j handle : Nat) (o : PolyObject) (s : State) : Option State :=
  let id := objId j handle
  if !s.storeTakes id then none else (claimScratch cid second id o.stored s).map (storeObject id o)

/-- POLY_OBJECT_ERASE: the last user of an object being freed has completed, and its data is erased (R232). -/
def eraseObject (id : Nat) (s : State) : State :=
  match Table.get? s.poly.objects id with
  | none => s
  | some o =>
    if !o.freeing ∨ !o.users.isEmpty then s
    else
      let s := dealloc (.object id) (s.updPoly (fun p => { p with objects := Table.del p.objects id }))
      (s.cmds.filter (fun e => e.2.work = .freeing id)).foldl (fun s e => complete e.1 .ok 0 0 s) s

/-- POLY_OBJECT_ERASE. -/
def execPolyObjectErase (object : Nat) (s : State) : Host.Outcome State Fault Refusal := .next (eraseObject object s)

/-- An object admits no new users; without users it goes at once. -/
def freeObject (id : Nat) (s : State) : State :=
  eraseObject id (s.updPoly (fun p => { p with objects := Table.upd p.objects id (fun o => { o with freeing := true }) }))

/-- A key tag: bytes 0 to 7 of SHA-256 over the identity string. -/
def keyTagOf (id : Bytes) : Word64 := BitVec.ofNat 64 (leNat ((sha256 id).take 8))

/-- The checks of POLY_KEY_LOAD's header (R232). -/
def keyChecks (c : Cmd) (s : State) : List Check :=
  let action := c.par 0 1
  let kind := c.par 1 1
  let h := c.par 2 2
  let set := s.paramSet? (c.par 4 2)
  let l := (set.map (·.limbs)).getD 0
  let dnum := c.par 8 1
  let idLen := c.par 9 1
  let load := action == 0
  [resInline c 0 32, (decide (action ≤ 1), blockAt 0), (!load || decide (2 ≤ kind ∧ kind ≤ 4), blockAt 1),
    (decide (1 ≤ h ∧ h ≤ 4095), blockAt 2), (!load || set.isSome, blockAt 4),
    (!load || (set.map (fun p => Table.has p.versions (c.par 6 2))).getD false, blockAt 6),
    (!load || (if kind = 2 then decide (1 ≤ dnum ∧ dnum ≤ l ∧ (dnum - 1) * ((l + dnum - 1) / max 1 dnum) < l) else dnum == 0), blockAt 8),
    (!load || decide (1 ≤ idLen ∧ idLen ≤ 64), blockAt 9), (!load || kind != 4 || c.par 10 2 == 0, blockAt 10), resBlock c 12 4,
    (!load || c.parZero (48 + idLen) (64 - idLen), blockAt 48), (!load || kind == 2 || c.par 112 8 == 0, blockAt 112), resBlock c 120 8]

/-- Residues of a key of a kind (R231). -/
def keyResidues (p : ParamSet) (kind dnum : Nat) : Nat :=
  (if kind = 2 then 2 * dnum * (p.limbs + p.special) else if kind = 3 then 2 * p.limbs else p.limbs) * 2 ^ p.logN

/-- Limbs in each component of a key of a kind (R231). -/
def keyLimbsOf (p : ParamSet) (kind : Nat) : Nat := max 1 (if kind = 2 then p.limbs + p.special else p.limbs)

/-- The key object that a header and its opened data make: a residue that is not below its prime is reduced (R215; log entry 114). -/
def keyObject (c : Cmd) (p : ParamSet) (data : Bytes) : PolyObject :=
  let kind := c.par 1 1
  let id := c.parB 48 (c.par 9 1)
  { kind := kind, paramSet := c.par 4 2, tableVer := c.par 6 2, level := p.limbs - 1, ntt := true, keyTag := keyTagOf id,
    targetTag := BitVec.ofNat 64 (c.par 112 8), noise := 0, count := 1, dnum := c.par 8 1, special := if kind = 2 then p.special else 0,
    comps := if kind = 2 then 2 * c.par 8 1 else if kind = 3 then 2 else 1, contribs := 0, auxBits := c.par 10 2, take := 0,
    idHash := sha256 id, seqEnd := 0, headers := [], freeing := false
    data := (List.range (data.length / 8)).map (fun i => leAt data (8 * i) 8 % unit p.primes (i / 2 ^ p.logN % keyLimbsOf p kind)),
    users := [], sources := [], sigma := none, unbounded := false, seqStart := 0, combined := false }

/-- The load of a key, once its data is there. -/
def loadKeyData (c : Cmd) (input : Bytes) (s : State) : Verdict :=
  let j := c.job
  let h := c.par 2 2
  let kind := c.par 1 1
  match s.paramSet? (c.par 4 2), s.job? j with
  | some p, some _ =>
    let want := 8 * keyResidues p kind (c.par 8 1) + (if kind = 4 then 28 else 0)
    if sha256 input ≠ c.parB 16 32 then .refuse .authFail 0 0
    else if input.length ≠ want then badBlock 128
    else
      let aad := ascii "LN7300-SKS" ++ toBE 2 (c.par 4 2) ++ c.parB 48 (c.par 9 1)
      let data := if kind = 4 then gcmOpen (s.using (.keyImport j)) (input.take 12) aad (input.drop 12) else some input
      match data with
      | none => .refuse .authFail 0 0
      | some d =>
        match putObject j h (keyObject c p d).tiled s with
        | none => .refuse .noResource 0 0
        | some s => ok h (if kind = 4 then loadNamed (.keyImport j) s else s)
  | _, _ => notPermitted 0

/-- POLY_KEY_LOAD: a load (R232). -/
def opKeyLoad (c : Cmd) (s : State) : Verdict :=
  checks (keyChecks c s) <|
    if (s.job? c.job).isNone then notPermitted 0
    else if Table.has s.poly.objects (objId c.job (c.par 2 2)) then notPermitted 2
    else withScatter c 128 (fun _ used =>
      if c.body.length ≠ 128 + used then badBlock 128 else withInput c 128 (fun input => loadKeyData c input s))

/-- POLY_KEY_LOAD: a free (R232). -/
def opKeyFree (cid : Nat) (c : Cmd) (s : State) : Verdict :=
  checks (keyChecks c s) <|
    if (s.job? c.job).isNone then notPermitted 0
    else if (s.object? c.job (c.par 2 2)).isNone then notPermitted 2
    else
      let id := objId c.job (c.par 2 2)
      .goes (freeObject id (commit cid (.freeing id) s))

/-- POLY_KEY_LOAD (R232). -/
def opPolyKeyLoad (cid : Nat) (c : Cmd) (s : State) : Verdict := if c.par 0 1 = 1 then opKeyFree cid c s else opKeyLoad c s

/-- POLY_KEY_LOAD. -/
def execPolyKeyLoad (cid : Nat) (s : State) : Host.Outcome State Fault Refusal := .next (runRow .polyKeyLoad opPolyKeyLoad cid s)

/-- POLY_OBJECT_FREE: a POLY_KEY_LOAD whose action is free. -/
def execPolyObjectFree (cid : Nat) (s : State) : Host.Outcome State Fault Refusal :=
  .next (if ((s.cmd? cid).map (fun c => c.par 0 1 == 1)).getD false then runRow .polyKeyLoad opPolyKeyLoad cid s else s)

/-! ## Operands (R236, R237) -/

/-- A FINAL bank of an RNS61 group read as an object (R236). -/
def State.bankObject (s : State) (gn : Nat) (isB : Bool) : Option PolyObject :=
  match s.group? gn with
  | none => none
  | some g =>
    match s.paramSet? g.paramSet with
    | none => none
    | some p =>
      let b := g.bank isB
      some { kind := 1, paramSet := g.paramSet, tableVer := p.ingestVer, level := p.limbs - 1, ntt := p.ingestDomain == 1,
             keyTag := p.encKeyTag, targetTag := 0, noise := sumB [(b.count, p.inputBits)],
             count := g.count / (2 * p.limbs * 2 ^ p.logN), dnum := 0, special := 0, comps := 2, contribs := b.count, auxBits := 0,
             take := b.take, idHash := zeros 32, seqEnd := b.stop.getD b.start,
             data := (List.range g.count).map (fun e => (b.elem e).a.toNat), headers := [], freeing := false, users := [],
             sources := [(gn, isB, b.take, b.cohort)], sigma := none, unbounded := false, seqStart := b.start, combined := b.combined }

/-- A bank may be read as an object: format, state, and a POLY node of INSTANCE 1 (R236). -/
def State.bankReadable (s : State) (gn : Nat) (isB : Bool) : Bool :=
  match s.group? gn with
  | none => false
  | some g =>
    isRns g.format && (g.bank isB).mode == .final
      && (((s.job? g.job).bind (·.graph)).map (fun k => k.nodes.any (fun n => n.station == 7 && n.inst == 1 && n.serves gn))).getD false

/-- The object or bank that an operand names: at acceptance one that admits new users, and while the command runs one whose free waits
for it too (R232). -/
def State.operandOf (s : State) (running : Bool) (c : Cmd) (off : Nat) : Option PolyObject :=
  let (k, h) := c.src off
  if k = 1 then (if running then Table.get? s.poly.objects (objId c.job h) else s.object? c.job h)
  else if k = 2 then s.bankObject c.group false else if k = 3 then s.bankObject c.group true else none

/-- The object or bank that an operand names at acceptance. -/
def State.operand (s : State) (c : Cmd) (off : Nat) : Option PolyObject := s.operandOf false c off

/-- The object or bank that a running command's operand names. -/
def State.held (s : State) (c : Cmd) (off : Nat) : Option PolyObject := s.operandOf true c off

/-- The key kind that an operation uses, zero for none. -/
def Opcode.keyKind : Opcode → Nat
  | .polyKeyswitch => 2 | .polyEncNoise => 3 | .polyDecShare => 4 | .polyToShares => 4 | _ => 0

/-- The kind of DEST that an operation on a source kind produces. -/
def Opcode.destKind (o : Opcode) (src : Nat) : Nat :=
  match o with
  | .polyDecShare => 5 | .polyToShares => 5 | .polyNtt => src | _ => 1

/-- OFLAGS. -/
def Cmd.freeSrc (c : Cmd) : Bool := (c.inl 2 1).testBit 0
/-- TO_GATE. -/
def Cmd.toGate (c : Cmd) : Bool := (c.inl 2 1).testBit 1
/-- ADD_C0. -/
def Cmd.addC0 (c : Cmd) : Bool := (c.inl 2 1).testBit 2
/-- DEST2 of POLY_TO_SHARES. -/
def Cmd.dest2 (c : Cmd) : Nat := c.inl 24 2 % 4096

/-- A source operand's own fields. -/
def srcChecks (c : Cmd) (off : Nat) : List Check :=
  let (k, h) := c.src off
  [(decide (1 ≤ k ∧ k ≤ 3), inlineAt off), resInline c (off + 1) 1,
   (if k = 1 then decide (1 ≤ h ∧ h ≤ 4095) else h == 0, inlineAt (off + 2))]

/-- Fields of a POLY command (R237, R238 check 1, R241). -/
def polyFields (c : Cmd) : List Check :=
  let op := c.op
  let shares := op == .polyDecShare || op == .polyToShares
  let out := c.inl 3 1
  let arg0 := c.inl 16 4
  let arg1 := c.inl 20 4
  let two := op == .polyAdd
  let bank := (c.src 4).1 == 2 || (c.src 4).1 == 3 || (two && ((c.src 8).1 == 2 || (c.src 8).1 == 3))
  [(if bank then decide (c.group < 64) else c.group == 0xFF, 9), (decide (1 ≤ c.inl 0 2 ∧ c.inl 0 2 ≤ 4095), inlineAt 0),
    (decide (c.inl 2 1 < if shares then 8 else 4), inlineAt 2),
    (out == 0xFF || (op != .polyNtt && decide (out ≤ 1)), inlineAt 3)]
  ++ srcChecks c 4 ++ (if two then srcChecks c 8 else [resInline c 8 4])
  ++ [(if op.keyKind = 0 then c.inl 12 2 == 0 else decide (1 ≤ c.inl 12 2 ∧ c.inl 12 2 ≤ 4095), inlineAt 12),
    (match op with
      | .polyNtt => decide (arg0 ≤ 1)
      | .polyModred => decide (1 ≤ arg0)
      | .polyDecShare => decide (8 ≤ arg0 ∧ arg0 ≤ 60)
      | .polyToShares => decide (8 ≤ arg0 ∧ arg0 ≤ 60)
      | _ => arg0 == 0, inlineAt 16),
    (if shares then decide (1 ≤ arg1 ∧ arg1 ≤ 255) else arg1 == 0, inlineAt 20),
    (if op = .polyToShares then decide (1 ≤ c.inl 24 8 ∧ c.inl 24 8 ≤ 4095) && c.inl 24 8 != c.inl 0 2 else c.inl 24 8 == 0,
      inlineAt 24)]

/-- Fields whose range the operand gives: ARG0 of a POLY_MODRED is at most LEVEL (R241), and a set without special limbs switches no keys
(R242). -/
def State.polyRange (s : State) (c : Cmd) : List Check :=
  match s.operand c 4 with
  | none => []
  | some a =>
    [(c.op != .polyKeyswitch || ((s.paramSet? a.paramSet).map (fun p => decide (0 < p.special))).getD true, inlineAt 12),
     (c.op != .polyModred || decide (c.inl 16 4 ≤ a.level), inlineAt 16)]

/-- DEST may take the result: free, or an object of a kind the operation produces. -/
def State.destOk (s : State) (j handle kind : Nat) : Bool :=
  match Table.get? s.poly.objects (objId j handle) with
  | none => true
  | some o => !o.freeing && o.kind == kind

/-! ## The result descriptor (R235) -/

/-- NOISE_BITS and level after dropping limbs, one at a time (R235). -/
def dropNoise (p : ParamSet) : Nat → Nat → Nat → Nat
  | 0, _, noise => noise
  | n + 1, level, noise => dropNoise p n (level - 1) (sumB [(1, noise - log2F (unit p.primes level)), (1, p.roundBits)])

/-- The bounds that an operation forms on its way to its result's (R233): the operand's own, and one for each limb dropped. -/
def noiseSteps (c : Cmd) (p : ParamSet) (a : PolyObject) : List Nat :=
  a.noise :: (if c.op = .polyModred then (List.range (c.inl 16 4)).map (fun n => dropNoise p n a.level a.noise) else [])

/-- NOISE_BITS and LEVEL of a result. -/
def resultNoise (c : Cmd) (p : ParamSet) (a b key : Option PolyObject) : Nat × Nat :=
  let na := (a.map (·.noise)).getD 0
  let level := (a.map (·.level)).getD 0
  let aux := (key.map (·.auxBits)).getD 0
  match c.op with
  | .polyAdd => (sumB [(1, na), (1, (b.map (·.noise)).getD 0)], level)
  | .polyKeyswitch => (sumB [(1, na), (1, aux)], level)
  | .polyEncNoise => (sumB [(1, na), (1, aux)], level)
  | .polyModred => (dropNoise p (c.inl 16 4) level na, level - c.inl 16 4)
  | .polyDecShare => (sumB [(1, na), (c.inl 20 4, 256 * c.inl 16 4)], level)
  | .polyToShares => (sumB [(1, na), (c.inl 20 4, 256 * c.inl 16 4)], level)
  | _ => (na, level)

/-- RESULT of a POLY command (R240). -/
def polyResult (p : ParamSet) (noise level dest : Nat) : Nat :=
  (field16 false noise).toNat + 2 ^ 16 * (field16 true (p.budget level noise)).toNat + 2 ^ 32 * level + 2 ^ 48 * dest

/-- The domain of the output: true for NTT. -/
def outDomain (c : Cmd) (a : PolyObject) : Bool :=
  match c.op, c.inl 3 1 with
  | .polyNtt, _ => c.inl 16 4 == 0
  | _, 0 => false
  | _, 1 => true
  | _, _ => a.ntt

/-! ## Accepting a POLY command (R238, R247) -/

/-- Counts a refusal in POL_REFUSALS. -/
def polyRefused (st : Status) (s : State) : State :=
  s.updPoly (fun p => match st with
    | .keyMismatch => { p with keyMismatch := satAdd p.keyMismatch 1 }
    | .noiseExhausted => { p with noiseExhausted := satAdd p.noiseExhausted 1 }
    | _ => p)

/-- σ that POLY_ENC_NOISE uses: the largest policy σ among the groups of its operand's list, zero for none (R253; log entry 38). -/
def State.encSigma (s : State) (a : PolyObject) : Nat × Nat :=
  a.sources.foldl (fun (m : Nat × Nat) e => match Table.get? s.gate.policies e.1 with
    | none => m
    | some q => if q.noisy ∧ m.1 * q.sigmaDen < q.sigmaNum * m.2 then (q.sigmaNum, q.sigmaDen) else m) (0, 1)

/-- The random values of a POLY command: noise tiles' seeds, and each work item's values (R247, R256). -/
structure PolyDraw where
  seeds : List Bytes
  items : List ItemValues
  deriving DecidableEq, Repr, Inhabited

/-- What each work item of an operation draws: a work item is one ciphertext (R247). -/
def itemDraw (c : Cmd) (p : ParamSet) : ItemDraw :=
  { coeffs := 2 ^ p.logN, eta := if c.op = .polyEncNoise then some p.eta else none
    e := if c.op = .polyDecShare ∨ c.op = .polyToShares then some (2 ^ (c.inl 16 4 + 1) + 1) else none
    m := if c.op = .polyToShares then some p.t else none }

/-- Bytes of noise-tile seeds that an operation draws. -/
def seedBytes (c : Cmd) (count num : Nat) : Nat := if c.op = .polyEncNoise ∧ num ≠ 0 then 32 * count else 0

/-- The bytes of a work item's stream. -/
def State.itemStream (s : State) (cid k : Nat) : Bytes :=
  ((s.rng.requests.find? (fun q => q.consumer = .item cid k)).map (·.got)).getD []

/-- The values that a command has drawn: seeds, and each item's own stream read (R247). -/
def State.polyDraw (s : State) (cid : Nat) (c : Cmd) (p : ParamSet) (count num : Nat) : PolyDraw :=
  { seeds := chunks 32 (seedBytes c count num / 32) (((s.granted cid).map (·.got)).getD [])
    items := (List.range count).map (fun k => match (itemDraw c p).read (s.itemStream cid k) with
      | .inl _ => default
      | .inr v => v) }

/-- Operations that draw random values. -/
def Opcode.draws (o : Opcode) : Bool := o == .polyEncNoise || o == .polyDecShare || o == .polyToShares

/-- A command joins the objects that it names, and the slots that hold its version BUILDING or READY (R221, R232). -/
def joinUsers (cid : Nat) (c : Cmd) (set ver : Nat) (s : State) : State :=
  let ids := ([(c.src 4), (c.src 8)].filter (fun x => x.1 == 1)).map (fun x => objId c.job x.2)
    ++ (if c.op.keyKind = 0 then [] else [objId c.job (c.inl 12 2)])
    ++ (objId c.job (c.inl 0 2) :: (if c.op = .polyToShares then [objId c.job c.dest2] else []))
  s.updPoly (fun p => { p with
    objects := Table.mapAll p.objects (fun i o => if ids.contains i then { o with users := o.users ++ [cid] } else o)
    heddles := p.heddles.map (fun h =>
      let join (k : TableSlot) : TableSlot :=
        if ver ≠ 0 ∧ (k.is .ready set ver ∨ k.is .building set ver) then { k with users := k.users ++ [cid] } else k
      { h with slot0 := join h.slot0, slot1 := join h.slot1 }) })

/-- The build of a version on a heddle runs as C1 (R223). -/
def Heddle.raise (h : Heddle) (set ver : Nat) : Heddle :=
  let up (k : TableSlot) : TableSlot := if k.is .building set ver then { k with raised := true } else k
  { h with slot0 := up h.slot0, slot1 := up h.slot1 }

/-- Work items that wait on a build count in TABLE_WAITS. -/
def countWaits (n : Nat) (s : State) : State := s.updPoly (fun p => { p with tableWaits := satAdd p.tableWaits n })

/-- Some of a command's `items` work items may go to a heddle that builds the version, and wait there; where no heddle has it READY, all of
them wait (R223). How many wait, and on which heddles, is open: free values (log entry 115). Each such heddle's build runs as C1. -/
def waitItems (items set ver : Nat) (s : State) : State :=
  let building := s.heddlesIn.filter (fun e => e.2.holds .building set ver)
  if ver = 0 ∨ items = 0 ∨ building.isEmpty then s
  else
    let (v, s) := s.draw
    let n := if s.heddlesIn.any (fun e => e.2.holds .ready set ver) then v.toNat % (items + 1) else items
    if n = 0 then s
    else
      let (w, s) := s.draw
      let (x, s) := s.draw
      let sure := (unit building (w.toNat % building.length)).1
      countWaits n (s.updPoly (fun p => { p with
        heddles := p.heddles.mapIdx (fun i h => if h.inService ∧ (i = sure ∨ x.getLsbD (i % 64)) then h.raise set ver else h) }))

/-- TABLE_VER is available (R223): the DETAIL of its refusal. -/
def State.tableFault (s : State) (set ver : Nat) (needed : Bool) : Option Nat :=
  if ver = 0 ∧ !needed then none
  else
    let hs := s.heddlesIn
    if hs.any (fun e => e.2.holds .ready set ver || e.2.holds .building set ver) then none
    else if hs.any (fun e => e.2.holds .retiring set ver) then some 5 else some 4

/-- Bytes of a command's results: DEST, and DEST2 of a POLY_TO_SHARES (R228). -/
def resultBytes (c : Cmd) (p : ParamSet) (a : PolyObject) (level : Nat) : Nat × Nat :=
  let n := 8 * a.count * 2 ^ p.logN
  ((if c.op.destKind a.kind = 1 then 2 else 1) * n * (level + 1), if c.op = .polyToShares then n else 0)

/-- The scratch in which a command builds its results (R239). -/
def takeScratch (cid : Nat) (bytes : Nat × Nat) (s : State) : Option State :=
  (alloc (.scratch cid false) bytes.1 s).bind (alloc (.scratch cid true) bytes.2)

/-- The requests for a command's random values: its noise tiles' seeds, and one stream for each work item (R247, R318). -/
def askValues (cid : Nat) (c : Cmd) (p : ParamSet) (count num : Nat) (s : State) : State :=
  let n := seedBytes c count num
  let s := if n = 0 then s else request 3 (.command cid) n 32 s
  (List.range count).foldl (fun s k => requestItem cid k (itemDraw c p) s) s


/-- A command that has passed its checks takes its scratch, joins what it uses, and asks for its random values. -/
def startPoly (cid : Nat) (c : Cmd) (p : ParamSet) (a : PolyObject) (level ver num den : Nat) (s : State) : Verdict :=
  match takeScratch cid (resultBytes c p a level) s with
  | none => .refuse .noResource 0 0
  | some s =>
    let s := waitItems a.count a.paramSet ver (joinUsers cid c a.paramSet ver s)
    let s := if c.op.draws then askValues cid c p a.count num s else s
    .goes (setWork cid (.poly (s.drawn cid) a.paramSet ver num den) s)

/-- Checks 5 to 9 of R238, and the acceptance of a command. -/
def acceptPoly (cid : Nat) (c : Cmd) (p : ParamSet) (a : PolyObject) (b key : Option PolyObject) (s : State) : Verdict :=
  let ver := c.inl 14 2
  let set := a.paramSet
  let out := outDomain c a
  let nttOps := a.ntt || (b.map (·.ntt)).getD false || out || key.isSome
  match s.tableFault set ver nttOps with
  | some d => notPermitted d
  | none =>
    let wrong := (a.ntt && a.tableVer != ver) || (b.map (fun x => x.ntt && x.tableVer != ver)).getD false
      || (b.map (fun x => x.paramSet != set || x.level != a.level || x.ntt != a.ntt || x.count != a.count)).getD false
      || (key.map (fun x => x.paramSet != set || x.tableVer != ver)).getD false || (c.op == .polyNtt && a.ntt != (c.inl 16 4 == 1))
    if wrong then notPermitted 7
    else if (b.map (fun x => x.keyTag != a.keyTag)).getD false ∨ (key.map (fun x => x.keyTag != a.keyTag)).getD false then
      .done .keyMismatch 0xFFFFFFFF 0 (polyRefused .keyMismatch s)
    else
      let (noise, level) := resultNoise c p (some a) b key
      if 65535 < noise ∨ (noiseSteps c p a).any (fun x => decide (65535 < x)) ∨ (b.map (fun x => decide (65535 < x.noise))).getD false
          ∨ p.budget level noise < 256 then
        .done .noiseExhausted 0 (polyResult p noise level (c.inl 0 2)) (polyRefused .noiseExhausted s)
      else
        let (num, den) := if c.op = .polyEncNoise then s.encSigma a else (0, 1)
        let start := startPoly cid c p a level ver num den
        if c.op.draws then askRandom cid start s else start s

/-- Checks 4 of R238 on the bank operands and the edge to GATE. -/
def polyGroupFault (c : Cmd) (s : State) : Option (Status × Nat) :=
  let banks := (if (c.src 4).1 = 2 ∨ (c.src 4).1 = 3 then [(c.src 4).1 == 3] else [])
    ++ (if c.op = .polyAdd ∧ ((c.src 8).1 = 2 ∨ (c.src 8).1 = 3) then [(c.src 8).1 == 3] else [])
  let graph := (s.job? c.job).bind (·.graph)
  let gate := (graph.map (fun k => k.edges.any (fun e => e.kind == 0 && (unit k.nodes e.src).station == 7
    && (unit k.nodes e.dst).station == 10 && (banks.isEmpty || e.group == 255 || e.group == c.group)))).getD false
  let edge : Option (Status × Nat) := if c.toGate ∧ !gate then some (.notPermitted, 3) else none
  if banks.isEmpty then edge
  else match s.groupOf c.job c.group with
    | none => some (.groupClosed, 0)
    | some g =>
      match g.failed with
      | some f => some (f.status, 0)
      | none => if banks.all (fun b => s.bankReadable c.group b) then edge else some (.notPermitted, 3)

/-- The kinds of the operands (R238 check 3): a bank stands for a ciphertext. -/
def polyKindsOk (c : Cmd) (s : State) : Bool :=
  let src (off : Nat) : Bool :=
    let (k, h) := c.src off
    k != 1 || ((s.object? c.job h).map (fun o => o.kind == 1 || (c.op == .polyNtt && o.kind == 5))).getD false
  let srcKind := if (c.src 4).1 = 1 then ((s.object? c.job (c.src 4).2).map (·.kind)).getD 0 else 1
  src 4 && (c.op != .polyAdd || src 8)
    && (c.op.keyKind == 0 || ((s.object? c.job (c.inl 12 2)).map (fun o => o.kind == c.op.keyKind)).getD false)
    && s.destOk c.job (c.inl 0 2) (c.op.destKind srcKind) && (c.op != .polyToShares || s.destOk c.job c.dest2 6)

/-- A POLY operation command up to its work items (R237, R238). -/
def opPoly (cid : Nat) (c : Cmd) (s : State) : Verdict :=
  match c.work with
  | .poly true _ _ _ _ => .stalls
  | .poly false set ver num den => if s.drawn cid then .goes (setWork cid (.poly true set ver num den) s) else .stalls
  | _ =>
    checks (polyFields c ++ s.polyRange c) <|
      if ((s.job? c.job).bind (·.mode)) ≠ some .homomorphic then notPermitted 1
      else if !polyKindsOk c s then notPermitted 2
      else match polyGroupFault c s with
        | some (st, d) => .refuse st d 0
        | none =>
          let b := if c.op = .polyAdd then s.operand c 8 else none
          let key := if c.op.keyKind = 0 then none else s.object? c.job (c.inl 12 2)
          match s.operand c 4 with
          | none => notPermitted 2
          | some a =>
            match s.paramSet? a.paramSet with
            | none => notPermitted 2
            | some p => acceptPoly cid c p a b key s

/-- POLY_NTT (R241). -/
def execPolyNtt (cid : Nat) (s : State) : Host.Outcome State Fault Refusal := .next (runRow .polyNtt opPoly cid s)
/-- POLY_ADD (R241). -/
def execPolyAdd (cid : Nat) (s : State) : Host.Outcome State Fault Refusal := .next (runRow .polyAdd opPoly cid s)
/-- POLY_KEYSWITCH (R242). -/
def execPolyKeyswitch (cid : Nat) (s : State) : Host.Outcome State Fault Refusal := .next (runRow .polyKeyswitch opPoly cid s)
/-- POLY_MODRED (R244). -/
def execPolyModred (cid : Nat) (s : State) : Host.Outcome State Fault Refusal := .next (runRow .polyModred opPoly cid s)
/-- POLY_ENC_NOISE (R245). -/
def execPolyEncNoise (cid : Nat) (s : State) : Host.Outcome State Fault Refusal := .next (runRow .polyEncNoise opPoly cid s)
/-- POLY_DEC_SHARE (R246). -/
def execPolyDecShare (cid : Nat) (s : State) : Host.Outcome State Fault Refusal := .next (runRow .polyDecShare opPoly cid s)
/-- POLY_TO_SHARES (R246). -/
def execPolyToShares (cid : Nat) (s : State) : Host.Outcome State Fault Refusal := .next (runRow .polyToShares opPoly cid s)

/-! ## The work items (R241 to R246) -/

/-- Limb `limb` of component `comp` of ciphertext `ct` (R224, R228). -/
def PolyObject.limb (o : PolyObject) (p : ParamSet) (comp ct limb : Nat) : List Nat :=
  let n := 2 ^ p.logN
  let l := o.level + 1
  (o.data.drop (((comp * o.count + ct) * l + limb) * n)).take n

/-- Limb of a digit's component of a KS_KEY (R231): b_j and then a_j. -/
def PolyObject.keyLimb (o : PolyObject) (p : ParamSet) (comp limb : Nat) : List Nat :=
  let n := 2 ^ p.logN
  (o.data.drop ((comp * (p.limbs + p.special) + limb) * n)).take n

/-- A heddle's slot that serves a version: READY or RETIRING (R221). -/
def Heddle.serves? (h : Heddle) (set ver : Nat) : Option TableSlot :=
  [h.slot0, h.slot1].find? (fun k => k.is .ready set ver || k.is .retiring set ver)

/-- The twiddle entries of a version, limb by limb, in a slot that serves it (R221, R223); none where no heddle in service does. -/
def State.tables? (s : State) (set ver : Nat) : Option (List (List Nat)) :=
  if ver = 0 then some [] else s.heddlesIn.findSome? (fun e => (e.2.serves? set ver).map (·.entries))

/-- A limb brought to a domain. -/
def ParamSet.bring (p : ParamSet) (tables : List (List Nat)) (limb : Nat) (from_ to_ : Bool) (a : List Nat) : List Nat :=
  toDomain p.logN (unit p.primes limb) (tables.getD limb []) from_ to_ a

/-- Data in the layout of R228, limb by limb. -/
def layOut (comps count limbs : Nat) (f : Nat → Nat → Nat → List Nat) : List Nat :=
  ((List.range comps).map (fun x => ((List.range count).map (fun ct => ((List.range limbs).map (f x ct)).flatten)).flatten)).flatten

/-- The key switch of one ciphertext (R242): coefficient-domain r0 and r1 over limbs 0 to ℓ. -/
def switchOne (p : ParamSet) (tables : List (List Nat)) (a key : PolyObject) (ct : Nat) : List (List Nat) × List (List Nat) :=
  let l := a.level + 1
  let base := List.range l ++ (List.range p.special).map (fun i => p.limbs + i)
  let prime (i : Nat) : Nat := unit p.primes i
  let alpha := (p.limbs + key.dnum - 1) / max 1 key.dnum
  let c1 := (List.range l).map (fun i => p.bring tables i a.ntt false (a.limb p 1 ct i))
  let digits := (List.range key.dnum).map (fun j => (j, (List.range (min ((j + 1) * alpha) p.limbs - j * alpha)).map (fun i => j * alpha + i)
    |>.filter (fun i => decide (i < l)))) |>.filter (fun d => !d.2.isEmpty)
  let digit (d : List Nat) (t : Nat) : List Nat :=
    let v := if d.contains t then c1.getD t [] else convert (d.map prime) (d.map (fun i => c1.getD i [])) (prime t)
    p.bring tables t false true v
  let sumFor (half t : Nat) : List Nat :=
    p.bring tables t true false (digits.foldl (fun acc d =>
      addLimb (prime t) acc (mulLimb (prime t) (digit d.2 t) (key.keyLimb p (2 * d.1 + half) t))) (List.replicate (2 ^ p.logN) 0))
  let half (x : Nat) : List (List Nat) :=
    let u := base.map (fun t => (t, sumFor x t))
    let at_ (t : Nat) : List Nat := ((u.find? (fun e => e.1 = t)).map (·.2)).getD []
    let ps := (List.range p.special).map (fun i => prime (p.limbs + i))
    let xs := (List.range p.special).map (fun i => at_ (p.limbs + i))
    (List.range l).map (fun i =>
      scaleLimb (prime i) (invMod (prime i) (ps.foldl (· * ·) 1)) (subLimb (prime i) (at_ i) (convert ps xs (prime i))))
  (half 0, half 1)

/-- One component after dropping limbs (R244), in the coefficient domain. -/
def dropLimbs (p : ParamSet) : Nat → List (List Nat) → List (List Nat)
  | 0, x => x
  | n + 1, x =>
    let l := x.length - 1
    let q := unit p.primes l
    let r : List Int := (x.getD l []).map (fun v => if v ≤ (q - 1) / 2 then (v : Int) else (v : Int) - q)
    dropLimbs p n ((x.take l).mapIdx (fun i c =>
      let qi := unit p.primes i
      scaleLimb qi (invMod qi q) (subLimb qi c (reduceInts qi r))))

/-- Δ_ℓ mod q_i (R220). -/
def ParamSet.delta (p : ParamSet) (level : Nat) : Nat := (p.primes.take (level + 1)).foldl (· * ·) 1 / p.t

/-- The data of DEST, and of DEST2 (R241 to R246). -/
def polyData (c : Cmd) (p : ParamSet) (tables : List (List Nat)) (a : PolyObject) (b key : Option PolyObject) (d : PolyDraw) (num den : Nat) :
    List Nat × List Nat :=
  let out := outDomain c a
  let n := 2 ^ p.logN
  let l := a.level + 1
  let q (i : Nat) : Nat := unit p.primes i
  let coef (x ct i : Nat) : List Nat := p.bring tables i a.ntt false (a.limb p x ct i)
  let key_ := key.getD a
  let up (i : Nat) (v : List Nat) : List Nat := p.bring tables i false out v
  let times (i : Nat) (x y : List Nat) : List Nat := p.bring tables i true false (mulLimb (q i) (p.bring tables i false true x) y)
  match c.op with
  | .polyNtt => (layOut a.comps a.count l (fun x ct i => p.bring tables i a.ntt out (a.limb p x ct i)), [])
  | .polyAdd => (layOut 2 a.count l (fun x ct i =>
      up i (addLimb (q i) (coef x ct i) (p.bring tables i a.ntt false ((b.getD a).limb p x ct i)))), [])
  | .polyKeyswitch =>
    let r := (List.range a.count).map (switchOne p tables a key_)
    (layOut 2 a.count l (fun x ct i =>
      let h := r.getD ct ([], [])
      up i (if x = 0 then addLimb (q i) (coef 0 ct i) (h.1.getD i []) else h.2.getD i [])), [])
  | .polyModred =>
    let drop := c.inl 16 4
    (layOut 2 a.count (l - drop) (fun x ct i => up i ((dropLimbs p drop ((List.range l).map (coef x ct))).getD i [])), [])
  | .polyEncNoise =>
    let noise := (List.range a.count).map (fun ct =>
      if num = 0 then List.replicate n 0 else reduceInts p.t (noiseTile (d.seeds.getD ct []) num den n 0))
    (layOut 2 a.count l (fun x ct i =>
      let u := reduceInts (q i) (d.items.getD ct default).u
      let e := reduceInts (q i) (if x = 0 then (d.items.getD ct default).e0 else (d.items.getD ct default).e1)
      let m := if x = 0 then scaleLimb (q i) (p.delta a.level % q i) (noise.getD ct []) else List.replicate n 0
      up i (addLimb (q i) (addLimb (q i) (coef x ct i) (times i u (key_.limb p x 0 i))) (addLimb (q i) e m))), [])
  | _ =>
    let bound : Int := 2 ^ (c.inl 16 4)
    let share (_ ct i : Nat) : List Nat :=
      let e := reduceInts (q i) ((d.items.getD ct default).e.map (fun (v : Nat) => (v : Int) - bound))
      let base := addLimb (q i) (times i (coef 1 ct i) (key_.limb p 0 0 i)) e
      let base := if c.addC0 then addLimb (q i) base (coef 0 ct i) else base
      let base := if c.op = .polyToShares then addLimb (q i) base (scaleLimb (q i) (p.delta a.level % q i) (d.items.getD ct default).m) else base
      up i base
    (layOut 1 a.count l share,
      if c.op = .polyToShares then (d.items.map (fun x => x.m.map (fun v => (p.t - v) % p.t))).flatten else [])

/-- The union of two provenance lists: an entry that both hold, the cohort included, counts once (R253). -/
def joinSources (a b : List (Nat × Bool × Nat × Nat)) : List (Nat × Bool × Nat × Nat) := a ++ b.filter (fun e => !a.contains e)

/-- The smaller of two σ, or none (R253). -/
def smallerSigma : Option (Nat × Nat) → Option (Nat × Nat) → Option (Nat × Nat)
  | some a, some b => some (if a.1 * b.2 ≤ b.1 * a.2 then a else b)
  | _, _ => none

/-- The result object of a POLY command (R229, R235, R253). -/
def polyObject (c : Cmd) (p : ParamSet) (ver : Nat) (a : PolyObject) (b key : Option PolyObject) (data : List Nat) (num den : Nat) :
    PolyObject :=
  let (noise, level) := resultNoise c p (some a) b key
  let kind := c.op.destKind a.kind
  let all := match b with | none => a.sources | some x => joinSources a.sources x.sources
  { a with kind := kind, tableVer := if outDomain c a then ver else 0, level := level, ntt := outDomain c a,
           keyTag := if c.op = .polyKeyswitch then (key.map (·.targetTag)).getD 0 else a.keyTag, noise := noise,
           comps := if kind = 1 then 2 else 1, contribs := a.contribs + (b.map (·.contribs)).getD 0,
           seqEnd := max a.seqEnd ((b.map (·.seqEnd)).getD 0), seqStart := min a.seqStart ((b.map (·.seqStart)).getD a.seqStart),
           combined := a.combined || (b.map (·.combined)).getD false, data := data, headers := [], freeing := false, users := [],
           sources := all.take 8,
           sigma := (match b, c.op with
             | some x, _ => smallerSigma a.sigma x.sigma
             | none, .polyEncNoise => if num = 0 then none else some (num, den)
             | none, _ => a.sigma),
           unbounded := a.unbounded || (b.map (·.unbounded)).getD false || decide (8 < all.length) }

/-- The tile of a destination that POLY writes to GATE (R248): its number of tiles is one for each 8 192 residues. What R248 does not
state of the descriptor follows R33 for data that belongs to no slice (log entry 116). -/
def polyTile (c : Cmd) (o : PolyObject) (i : Nat) : TileDesc :=
  let n := o.data.length
  { format := 0x30, job := c.job, group := c.group, station := 7, mode := Mode.homomorphic.code
    flags := descFlags false false false true false (decide (n ≤ (i + 1) * 8192)), take := o.take, valid := 8 * min 8192 (n - i * 8192)
    seq := o.seqStart, first := i * 8192, slice := 0, epoch := 0, segment := 0xFFFFFFFF, contribs := o.contribs, seqEnd := o.seqEnd
    scale := 0, kind := 0xFF, paramSet := o.paramSet, randRef := 0 }

/-- The descriptors of a destination's tiles. -/
def polyTiles (c : Cmd) (o : PolyObject) : List Bytes :=
  (List.range ((o.data.length + 8191) / 8192)).map (fun i => (polyTile c o i).bytes)

/-- The POLY item of a command with TO_GATE: DEST's tiles, and DEST2's after them (R248, R251). Which core's heddle wrote them is open: a
free value in their trace records. -/
def gatePoly (c : Cmd) (dest : PolyObject) (dest2 : Option PolyObject) (s : State) : State :=
  if !c.toGate then s
  else
    let it : GateItem := { job := c.job, take := dest.take, released := false, kept := [], isSealed := false, slot := none, cohort := 0, scale := 0, elems := [],
                           dest := some dest, dest2 := dest2, handle2 := c.dest2
                           descs := polyTiles c dest ++ (dest2.map (polyTiles c)).getD [] }
    let s := it.descs.foldl (fun s d =>
      let (v, s) := s.draw
      traceIssued (v.toNat % 36) d s) s
    { s with gate := { s.gate with polyItems := Table.put s.gate.polyItems (objId c.job (c.inl 0 2)) it } }

/-- FREE_SRC takes effect at the commit point (R236, R237). -/
def freeSources (c : Cmd) (s : State) : State :=
  if !c.freeSrc then s
  else ([(c.src 4), (c.src 8)].eraseDups).foldl (fun s x =>
    if x.1 = 1 then (if x.2 = c.inl 0 2 then s else freeObject (objId c.job x.2) s)
    else if x.1 = 2 then finishStation c.group false 7 s
    else if x.1 = 3 then finishStation c.group true 7 s else s) s

/-- POLY_COMMIT: the last work item ends; the destination is replaced in one action (R239, R240). -/
def commitPoly (cid : Nat) (c : Cmd) (p : ParamSet) (tables : List (List Nat)) (ver : Nat) (a : PolyObject) (num den : Nat) (s : State) :
    State :=
  let b := if c.op = .polyAdd then s.held c 8 else none
  let key := if c.op.keyKind = 0 then none else Table.get? s.poly.objects (objId c.job (c.inl 12 2))
  match key.bind (fun k => k.badTile p a) with
  | some i => complete cid .keyMismatch i 0 (polyRefused .keyMismatch s)
  | none =>
    let d := s.polyDraw cid c p (if c.op.draws then a.count else 0) num
    let (x, y) := polyData c p tables a b key d num den
    let dest := polyObject c p ver a b key x num den
    let dest2 : Option PolyObject := if c.op = .polyToShares then
        some { dest with kind := 6, ntt := false, tableVer := 0, data := y } else none
    let placed := (putResult cid false c.job (c.inl 0 2) dest s).bind (fun s => match dest2 with
      | none => some s
      | some o => putResult cid true c.job c.dest2 o s)
    match placed with
    | none => complete cid .noResource 0 0 s
    | some s =>
      let s := gatePoly c dest dest2 s
      let s := complete cid .ok 0 (polyResult p dest.noise dest.level (c.inl 0 2)) s
      freeSources c s

/-- POLY_COMMIT, once a heddle in service serves the version. -/
def execPolyCommit (cid : Nat) (s : State) : Host.Outcome State Fault Refusal :=
  .next (match s.cmd? cid with
    | none => s
    | some c =>
      match c.work with
      | .poly true set ver num den =>
        match s.held c 4, s.paramSet? set, s.tables? set ver with
        | some a, some p, some tables => commitPoly cid c p tables ver a num den s
        | _, _, _ => s
      | _ => s)

/-! ## Registers (R249) -/

/-- What POL_OBJ_SEL selects: its handle and object. -/
def State.selected (s : State) : Option (Nat × PolyObject) :=
  let j := s.poly.selJob.toNat
  let h := s.poly.selHandle.toNat
  if h ≠ 0 then (Table.get? s.poly.objects (objId j h)).map (fun o => (h, o))
  else
    let g := s.poly.selGroup.toNat
    if (s.groupOf j g).isSome ∧ s.bankReadable g s.poly.selBank then (s.bankObject g s.poly.selBank).map (fun o => (0, o)) else none

/-- POL_OBJ_SEL as it reads. -/
def State.polObjSel (s : State) : Word64 :=
  place 0 s.poly.selJob ||| place 4 s.poly.selHandle ||| place 16 s.poly.selGroup ||| placeB 22 s.poly.selBank
  ||| placeB 31 s.selected.isSome

/-- POL_OBJ_DESC[i] as it reads: CONTRIB_COUNT coarsened, ID_HASH never shown. -/
def State.polObjDesc (s : State) (i : Nat) : Word64 :=
  match s.selected with
  | none => 0
  | some (h, o) =>
    if 8 ≤ i ∧ i < 12 then 0
    else BitVec.ofNat 64 (leAt (s.objDesc s.poly.selJob.toNat h { o with contribs := s.coarseN o.contribs }) (8 * i) 8)

/-- A masked write of POL_OBJ_SEL. -/
def writeObjSel (m v : Word64) (s : State) : State :=
  s.updPoly (fun p => { p with selJob := maskField m v 0 p.selJob, selHandle := maskField m v 4 p.selHandle,
                               selGroup := maskField m v 16 p.selGroup, selBank := maskFlag m v 22 p.selBank })

/-- POL_OBJ_SEL_WRITE. -/
def execPolObjSelWrite (value : Word32) (s : State) : Host.Outcome State Fault Refusal :=
  .next (atBar (writeObjSel 0xFFFFFFFF (value.setWidth 64)) s)

/-- State code of a slot. -/
def SlotState.code : SlotState → Nat
  | .empty => 0 | .building => 1 | .ready => 2 | .retiring => 3

/-- POL_SLOT as it reads. -/
def Heddle.slotReg (h : Heddle) : Word64 :=
  placeN 0 16 h.slot0.set ||| placeN 16 16 h.slot0.ver ||| placeN 32 16 h.slot1.set ||| placeN 48 16 h.slot1.ver

/-- POL_SLOT_STATE as it reads; no spare column is counted before the heddle's core has been found at power-up. -/
def Heddle.stateReg (h : Heddle) (found : Bool) : Word64 :=
  placeN 0 3 h.slot0.state.code ||| placeN 3 3 h.slot1.state.code ||| placeB 6 (h.slot0.raised && h.slot0.state == .building)
  ||| placeB 7 (h.slot1.raised && h.slot1.state == .building)
  ||| placeN 8 16 (min h.slot0.users.length 65535) ||| placeN 24 16 (min h.slot1.users.length 65535) ||| placeN 40 2 (if found then h.spareCols else 0)
  ||| placeB 42 h.inService

/-- POL_REFUSALS as it reads, coarsened. -/
def State.polRefusals (s : State) : Word64 :=
  place 0 (s.coarse s.poly.keyMismatch) ||| place 16 (s.coarse s.poly.noiseExhausted) ||| place 32 (s.coarse s.poly.tableWaits)

/-- POL_REFUSALS_READ clears the counts that it returns. -/
def execPolRefusalsRead (half : Half) (s : State) : Host.Outcome State Fault Refusal :=
  .next (rcRead half State.polRefusals (fun s => s.updPoly (fun p => { p with keyMismatch := 0, noiseExhausted := 0 }))
    (fun s => s.updPoly (fun p => { p with tableWaits := 0 })) s)

end Sys2Proof.Machine
end

