-- ==== Sys2Proof/Machine/Gate.lean ====
section
/-! DEFINITION. The release gate: policies, items, noise and GATE_RELEASE (R251 to R266). -/

namespace Sys2Proof.Machine

open Sys2Proof

/-- Changes the gate. -/
def State.updGate (s : State) (f : Gate → Gate) : State := { s with gate := f s.gate }

/-! ## Policies (R254) -/

/-- The policy that a block describes. -/
def policyOf (b : Bytes) : GatePolicy :=
  { noisy := leAt b 1 1 == 1, outMask := BitVec.ofNat 3 (leAt b 2 1), localOnly := (leAt b 3 1).testBit 0,
    requireEnc := (leAt b 3 1).testBit 1, minCohort := leAt b 4 4, sigmaNum := leAt b 8 6, sigmaDen := leAt b 16 4,
    unitExp := signed8 (leAt b 20 1) }

/-- GATE_POLICY_SET (R254). -/
def opGatePolicySet (_ : Nat) (c : Cmd) (s : State) : Verdict :=
  let p := policyOf c.block
  checks [resInline c 0 32, (c.body.length == 32, 12), (c.par 0 1 == 1, blockAt 0), (decide (c.par 1 1 ≤ 1), blockAt 1),
      (decide (c.par 2 1 < 8), blockAt 2), (decide (c.par 3 1 < 4), blockAt 3), (decide (1 ≤ p.minCohort), blockAt 4),
      (c.par 14 2 == 0 && (p.noisy == (p.sigmaNum != 0)) && decide (p.sigmaNum ≤ p.sigmaDen * 2 ^ 32), blockAt 8),
      (decide (1 ≤ p.sigmaDen), blockAt 16), (decide (-60 ≤ p.unitExp ∧ p.unitExp ≤ 60), blockAt 20), resBlock c 21 11] <|
    if (s.job? c.job).isNone then notPermitted 0
    else if c.group = 0xFF then
      ok 0 (s.updGate (fun g => { g with
        policies := (s.jobGroups c.job).foldl (fun l e => Table.put l e.1 p) g.policies, defaults := Table.put g.defaults c.job p }))
    else if (s.groupOf c.job c.group).isNone then .refuse .groupClosed 0 0
    else ok 0 (s.updGate (fun g => { g with policies := Table.put g.policies c.group p }))

/-- GATE_POLICY_SET. -/
def execGatePolicySet (cid : Nat) (s : State) : Host.Outcome State Fault Refusal := .next (runRow .gatePolicySet opGatePolicySet cid s)

/-- The policies of several groups applied together (R254). -/
def joinPolicy (a b : GatePolicy) : GatePolicy :=
  let larger := b.sigmaNum * a.sigmaDen > a.sigmaNum * b.sigmaDen
  { noisy := a.noisy || b.noisy, outMask := a.outMask &&& b.outMask, localOnly := a.localOnly || b.localOnly,
    requireEnc := a.requireEnc || b.requireEnc, minCohort := max a.minCohort b.minCohort,
    sigmaNum := if larger then b.sigmaNum else a.sigmaNum, sigmaDen := if larger then b.sigmaDen else a.sigmaDen, unitExp := a.unitExp }

/-! ## The item a command names (R251 to R253, R260) -/

/-- The item of a GATE_RELEASE. -/
def State.gateItem (s : State) (c : Cmd) : Option GateItem :=
  if c.polyItem then Table.get? s.gate.polyItems (objId c.job (c.inl 24 2))
  else (Table.get? s.gate.items (itemKey c.group c.itemB)).filter (fun it => it.job == c.job)

/-- The groups that an item concerns. -/
def State.itemGroups (s : State) (c : Cmd) : List Nat :=
  if c.polyItem then (((s.gateItem c).bind (·.dest)).map (fun o => (o.sources.map (·.1)).eraseDups)).getD [] else [c.group]

/-- The cohort of a POLY item: the largest, over takes, of the sum of the cohorts of a take's entries (R253). -/
def PolyObject.cohort (o : PolyObject) : Nat :=
  o.sources.foldl (fun m e => max m ((o.sources.filter (fun x => x.2.2.1 = e.2.2.1)).map (·.2.2.2)).sum) 0

/-- The bank of a bank or unmasked item. -/
def State.itemBank (s : State) (c : Cmd) : Option (Group × Bank) := (s.group? c.group).map (fun g => (g, g.bank c.itemB))

/-- The cohort of an item (R252, R253). -/
def State.itemCohort (s : State) (c : Cmd) (it : GateItem) : Nat :=
  if c.polyItem then (it.dest.map (·.cohort)).getD 0 else ((s.itemBank c).map (fun x => x.2.cohort)).getD 0

/-- An item's banks have taken partials. -/
def State.itemCombined (s : State) (c : Cmd) (it : GateItem) : Bool :=
  if c.polyItem then (it.dest.map (·.combined)).getD false else ((s.itemBank c).map (fun x => x.2.combined)).getD false

/-- The job's mode. -/
def State.modeOfJob (s : State) (j : Nat) : Mode := ((s.job? j).bind (·.mode)).getD .trusted

/-- A mode H item: a POLY item, or a bank of a mode H job. -/
def State.isCipherItem (s : State) (c : Cmd) : Bool := c.polyItem || s.modeOfJob c.job == .homomorphic

/-- REPEAT, FINISH and SEALED of RFLAGS, and DEST. -/
def Cmd.repeats (c : Cmd) : Bool := (c.inl 1 1).testBit 0
/-- FINISH. -/
def Cmd.finishes (c : Cmd) : Bool := (c.inl 1 1).testBit 1
/-- SEALED. -/
def Cmd.sealed (c : Cmd) : Bool := (c.inl 1 1).testBit 2
/-- DEST. -/
def Cmd.outDest (c : Cmd) : Nat := c.inl 2 1

/-- Bytes of an item's data (R263). -/
def State.itemBytes (s : State) (c : Cmd) (it : GateItem) : Nat :=
  if c.polyItem then 128 + (it.dest.map (·.bytes)).getD 0 + (it.dest2.map (fun o => 128 + o.bytes)).getD 0
  else ((s.itemBank c).map (fun x => x.1.count * x.1.w)).getD 0

/-- Bytes of the whole output. -/
def State.outputBytes (s : State) (c : Cmd) (it : GateItem) : Nat := 64 + s.itemBytes c it + (if c.sealed then 16 else 0)

/-! ## Released elements (R257) -/

/-- A released element: its samples, and whether it saturated. -/
def noiseElem (g : Group) (b : Bank) (unitExp : Int) (e : Elem) (n : List Int) : Elem × Bool :=
  let x := n.getD 0 0
  let q : Int := 2 ^ (8 * g.w)
  if isU g.format then ({ e with a := (e.a + x) % q }, false)
  else if isFix g.format then
    let v := e.a + (Fp.scale (unitExp + g.frac + b.scale) (.fin (decide (x < 0)) x.natAbs 0)).rhe
    let top : Int := q / 2
    if v ≥ top then ({ e with a := top - 1 }, true) else if v < -top then ({ e with a := -top }, true) else ({ e with a := v }, false)
  else if g.kind = 3 then
    let (s, c) := acc64c e.x e.y (fscaled x unitExp)
    ({ e with x := s, y := c }, false)
  else if g.kind = 4 then
    ({ a := max 0 (min 0xFFFFFFFF (e.a + x)), x := fadd e.x (fscaled (n.getD 1 0) unitExp), y := fadd e.y (fscaled (n.getD 2 0) unitExp) }, false)
  else (e, false)

/-- Samples an element draws. -/
def Group.samples (g : Group) : Nat := if g.kind = 4 then 3 else 1

/-- The released elements of one bank tile. -/
def releaseTile (g : Group) (b : Bank) (src : Nat → Elem) (p : GatePolicy) (noised : Bool) (seed : Bytes) (i : Nat) : List (Elem × Bool) :=
  let n := g.bankBytes i / g.w
  let k := g.samples
  let samples := if noised then noiseTile seed p.sigmaNum p.sigmaDen (k * n) 0 else []
  (List.range n).map (fun e => noiseElem g b p.unitExp (src (i * g.bankPer + e)) (if noised then (samples.drop (k * e)).take k else []))

/-- The elements that an item releases, in order, and whether any saturated. -/
def State.releasedElems (s : State) (c : Cmd) (it : GateItem) (p : GatePolicy) (seeds : List Bytes) : List Elem × Bool :=
  match s.itemBank c with
  | none => ([], false)
  | some (g, b) =>
    let masked := s.modeOfJob c.job == .masked
    let zero : Elem := { a := 0, x := 0, y := 0 }
    let src (e : Nat) : Elem := if masked then (Table.get? it.elems e).getD zero else b.elem e
    let noised := p.noisy && !s.isCipherItem c
    let l := ((List.range g.bankTiles).map (fun i => releaseTile g b src p noised (seeds.getD i []) i)).flatten
    (l.map (·.1), l.any (·.2))

/-! ## The output (R263, R264) -/

/-- The release header. -/
def State.releaseHeader (s : State) (c : Cmd) (it : GateItem) (p : GatePolicy) (saturated : Bool) (rctr : Nat) : Bytes :=
  let bank := s.itemBank c
  let cipher := s.isCipherItem c
  let sigma : Option (Nat × Nat) :=
    if cipher then it.dest.bind (·.sigma) else if p.noisy then some (p.sigmaNum, p.sigmaDen) else none
  let flags := (if c.sealed then 1 else 0) + (if (bank.map (fun x => x.2.longSum)).getD false ∧ !c.polyItem then 2 else 0)
    + (if sigma.isSome then 4 else 0) + (if s.itemCombined c it then 8 else 0) + (if saturated then 16 else 0)
  let seq := if c.polyItem then (it.dest.map (·.seqStart)).getD 0 else (bank.map (fun x => x.2.start)).getD 0
  let seqEnd := if c.polyItem then (it.dest.map (·.seqEnd)).getD 0 else (bank.map (fun x => x.2.stop.getD x.2.start)).getD 0
  let scale : Int := match bank with
    | some (g, b) => if isFix g.format ∧ !c.polyItem then b.scale else 0
    | none => 0
  [1, BitVec.ofNat 8 (s.modeOfJob c.job).code, BitVec.ofNat 8 c.job, if c.polyItem then 0xFF else BitVec.ofNat 8 c.group,
    BitVec.ofNat 8 (c.inl 0 1), BitVec.ofNat 8 (if c.polyItem then 0x30 else (bank.map (fun x => x.1.format)).getD 0),
    BitVec.ofNat 8 (if c.polyItem then (it.dest.map (·.kind)).getD 0 else (bank.map (fun x => x.1.kind)).getD 0), BitVec.ofNat 8 flags]
  ++ toLE 4 it.take ++ toLE 4 (min (s.itemCohort c it) 0xFFFFFFFF) ++ toLE 8 seq ++ toLE 8 seqEnd ++ toLE 8 (s.itemBytes c it)
  ++ toLE 6 ((sigma.map (·.1)).getD 0) ++ zeros 2 ++ toLE 4 ((sigma.map (·.2)).getD 0)
  ++ [BitVec.ofInt 8 scale, BitVec.ofInt 8 p.unitExp] ++ toLE 2 (c.inl 24 2) ++ toLE 8 (if c.sealed then rctr else 0)

/-- The data of an output. -/
def State.releaseData (s : State) (c : Cmd) (it : GateItem) (elems : List Elem) : Bytes :=
  if c.polyItem then
    let part (h : Nat) (o : PolyObject) : Bytes := s.objDesc c.job h o ++ o.dataBytes
    (it.dest.map (part (c.inl 24 2))).getD [] ++ (it.dest2.map (part it.handle2)).getD []
  else match s.itemBank c with
    | none => []
    | some (g, _) => (elems.map (elemBytes g)).flatten

/-- The whole output of a release, sealed under K_REL where asked. -/
def State.releaseOutput (s : State) (c : Cmd) (jb : Job) (header data : Bytes) : Bytes :=
  if c.sealed then header ++ gcmSeal (s.using (.release c.job)) (ascii "LNRL" ++ toLE 8 jb.rctr) header data else header ++ data

/-! ## GATE_RELEASE (R260 to R262) -/

/-- Check 1 of R261. -/
def releaseFields (c : Cmd) : List Check :=
  let d := c.outDest
  [(if c.polyItem then c.group == 0xFF else decide (c.group < 64), 9), (decide (c.inl 0 1 ≤ 2), inlineAt 0),
   (decide (c.inl 1 1 < 8) && (d == 0 || (!c.repeats && !c.sealed)), inlineAt 1),
   (decide (d ≤ 2) && (d != 2 || c.finishes), inlineAt 2), (if d = 1 then decide (c.inl 3 1 < 8) else c.inl 3 1 == 0, inlineAt 3),
   (d == 0 || c.inl 8 4 == 0, inlineAt 8), resInline c 12 4, (if d = 0 then c.inl 16 8 % 64 == 0 else c.inl 16 8 == 0, inlineAt 16),
   (if c.polyItem then decide (1 ≤ c.inl 24 2 ∧ c.inl 24 2 ≤ 4095) else c.inl 24 2 == 0, inlineAt 24), resInline c 26 6]

/-- Checks 2 to 4 of R261: the item and the policy that applies to it, or the refusal. -/
def State.releaseItem (s : State) (c : Cmd) : Sum (Status × Nat) (Job × GateItem × GatePolicy) :=
  match s.job? c.job with
  | none => .inl (.notPermitted, 1)
  | some jb =>
    let gs := s.itemGroups c
    let ps := gs.filterMap (fun g => Table.get? s.gate.policies g)
    if gs.any (fun g => (s.groupOf c.job g).isNone) then .inl (.groupClosed, 0)
    else match gs.findSome? (fun g => (s.group? g).bind (·.failed)) with
      | some f => .inl (f.status, 0)
      | none =>
        if ps.length < gs.length then .inl (.notPermitted, 1)
        else match s.gateItem c, ps with
          | none, _ => .inl (.notPermitted, 2)
          | some it, ps =>
            if it.take ≠ c.inl 4 4 then .inl (.notPermitted, 2)
            else if c.outDest ≠ 2 ∧ it.released ≠ c.repeats then .inl (.notPermitted, 3)
            else .inr (jb, it, ps.tail.foldl joinPolicy (ps.headD
              { noisy := false, outMask := 0, localOnly := false, requireEnc := false, minCohort := 1, sigmaNum := 0, sigmaDen := 1,
                unitExp := 0 }))

/-- An item carries encrypted noise of at least the policy's σ (R258). -/
def encNoiseOk (it : GateItem) (p : GatePolicy) : Bool :=
  match it.dest.bind (·.sigma) with
  | none => false
  | some x => decide (p.sigmaNum * x.2 ≤ x.1 * p.sigmaDen)

/-- Check 8: the region takes a write of the whole output. -/
def State.outRegion (s : State) (j : Nat) (key : Word32) (off len : Nat) : Sum Status Region :=
  match s.access j key off len 0 false with
  | .inl st => .inl st
  | .inr (_, r) =>
    if r.space = .ingest ∨ r.space = .combine then .inl .rights
    else if r.rights &&& rightW ≠ rightW then .inl .rights else .inr r

/-- Checks 5 to 8 of R261. -/
def State.releaseFault (s : State) (c : Cmd) (it : GateItem) (p : GatePolicy) : Option (Status × Nat) :=
  let d := c.outDest
  let bit := if d = 1 then 2 else if c.sealed then 1 else 0
  let cohort := s.itemCohort c it
  if !p.outMask.getLsbD bit ∨ (d = 1 ∧ (s.isCipherItem c ∨ (unit s.gate.slots (c.inl 3 1)).isNone))
      ∨ (c.repeats ∧ (it.isSealed ≠ c.sealed ∨ it.kept.isEmpty)) then some (.notPermitted, 4)
  else if p.localOnly ∧ s.itemCombined c it then some (.notPermitted, 5)
  else if s.isCipherItem c ∧ p.requireEnc ∧ !encNoiseOk it p then some (.notPermitted, 6)
  else if (it.dest.map (·.unbounded)).getD false then some (.notPermitted, 7)
  else if !c.repeats ∧ cohort < p.minCohort then some (.cohortTooSmall, min cohort 0xFFFFFFFF)
  else if d = 0 then
    match s.outRegion c.job (BitVec.ofNat 32 (c.inl 8 4)) (c.inl 16 8) (s.outputBytes c it) with
    | .inl st => some (st, 0)
    | .inr _ => none
  else none

/-- Counts a refusal at the gate. -/
def gateRefused (st : Status) (s : State) : State :=
  s.updGate (fun g => match st with
    | .cohortTooSmall => { g with cohortRefused := satAdd g.cohortRefused 1 }
    | .entropyFail => { g with entropyRefused := satAdd g.entropyRefused 1 }
    | _ => g)

/-- Noise tiles whose seeds a first release draws. -/
def State.releaseTiles (s : State) (c : Cmd) (p : GatePolicy) : Nat :=
  if p.noisy ∧ !s.isCipherItem c then ((s.itemBank c).map (fun x => x.1.bankTiles)).getD 0 else 0

/-- The gate has finished with an item: its data is erased, and its bank is released (R251). -/
def finishItem (c : Cmd) (s : State) : State :=
  if c.polyItem then s.updGate (fun g => { g with polyItems := Table.del g.polyItems (objId c.job (c.inl 24 2)) })
  else finishStation c.group c.itemB 10 (s.updGate (fun g => { g with items := Table.del g.items (itemKey c.group c.itemB) }))

/-- FINISH takes effect with OK. -/
def releaseEnds (c : Cmd) (s : State) : State := if c.finishes then finishItem c s else s

/-- The end of a committed release with an output: it is written to its region and the command completes with OK, or the region refuses the
write and the command ends with that refusal, its item left RELEASED (R262, R274). -/
def writeRelease (c : Cmd) (bytes : Bytes) (s : State) : Verdict :=
  match s.outRegion c.job (BitVec.ofNat 32 (c.inl 8 4)) (c.inl 16 8) bytes.length with
  | .inl st => .refuse st 0 0
  | .inr r => ok bytes.length (releaseEnds c (regionWrite r (c.inl 16 8) bytes s))

/-- The output goes to host memory, and the shuttle may issue nothing (R373): a committed release waits to write it. -/
def State.outputWaits (s : State) (c : Cmd) : Bool :=
  !s.shuttleOpen && c.outDest == 0
    && (match Table.get? s.trans.regions (c.inl 8 4 / 256) with | none => false | some r => r.space == .host)

/-- A release past its commit point writes its output, at once or when the shuttle may issue writes. -/
def outputRelease (cid : Nat) (c : Cmd) (bytes : Bytes) (s : State) : Verdict :=
  if s.outputWaits c then .goes (commit cid (.writing bytes) s)
  else match writeRelease c bytes s with
    | .refuse st d r => .done st d r s
    | v => v

/-- Sets an item. -/
def putItem (c : Cmd) (it : GateItem) (s : State) : State :=
  s.updGate (fun g => if c.polyItem then { g with polyItems := Table.put g.polyItems (objId c.job (c.inl 24 2)) it }
    else { g with items := Table.put g.items (itemKey c.group c.itemB) it })

/-- The first release of an item, from its commit point on (R257, R262 to R265). -/
def releaseFirst (cid : Nat) (c : Cmd) (jb : Job) (it : GateItem) (p : GatePolicy) (seeds : List Bytes) (s : State) : Verdict :=
  let (elems, saturated) := s.releasedElems c it p seeds
  let zero : Elem := { a := 0, x := 0, y := 0 }
  let s' := if saturated then s.updGate (fun g => { g with saturated := satAdd g.saturated 1 }) else s
  if c.outDest = 1 then
    let kept := (elems.mapIdx (fun i e => (i, e))).filter (fun x => x.2 ≠ zero)
    let it' : GateItem := { it with released := true, kept := [], isSealed := false, slot := some (c.inl 3 1), elems := kept,
                                         cohort := s.itemCohort c it, scale := ((s.itemBank c).map (fun x => x.2.scale)).getD 0 }
    ok elems.length (releaseEnds c (putItem c it' s'))
  else
    let out := s.releaseOutput c jb (s.releaseHeader c it p saturated jb.rctr) (s.releaseData c it elems)
    let it' : GateItem := { it with released := true, kept := out, isSealed := c.sealed, slot := none, elems := [] }
    let s' := if c.sealed then s'.updJob c.job (fun jb => { jb with rctr := jb.rctr + 1 }) else s'
    outputRelease cid c out (putItem c it' s')

/-- GATE_RELEASE up to its seeds (R260, R261, R266); a REPEAT, and a release of nothing, complete here. -/
def opGateRelease (cid : Nat) (c : Cmd) (s : State) : Verdict :=
  match c.work with
  | .seeds _ _ => .stalls
  | _ =>
    checks (releaseFields c) <|
      match s.releaseItem c with
      | .inl (st, d) => .refuse st d 0
      | .inr (_, it, p) =>
        if c.outDest = 2 then ok 0 (releaseEnds c s)
        else match s.releaseFault c it p with
          | some (st, d) => .done st d 0 (gateRefused st s)
          | none =>
            if c.repeats then outputRelease cid c it.kept s
            else
              let tiles := s.releaseTiles c p
              let w : Work := .seeds p.sigmaNum p.sigmaDen
              if tiles = 0 then .goes (setWork cid w s)
              else if s.rng.mode = .failed ∨ s.rng.mode = .retesting then .done .entropyFail 0 0 (gateRefused .entropyFail s)
              else if s.rng.mode = .unseeded ∧ slateNoWait c.slate then .waits
              else .goes (setWork cid w (request 3 (.command cid) (32 * tiles) 32 s))

/-- GATE_RELEASE. -/
def execGateRelease (cid : Nat) (s : State) : Host.Outcome State Fault Refusal := .next (runRow .gateRelease opGateRelease cid s)

/-- The last checks of a waiting release and its commit point: the policy in force governs, and seeds drawn under another σ are drawn
again (R261, R262, R274). -/
def opReleaseCommit (cid : Nat) (c : Cmd) (s : State) : Verdict :=
  match c.work with
  | .seeds num den =>
    match s.releaseItem c with
    | .inl (st, d) => .refuse st d 0
    | .inr (jb, it, p) =>
      match s.releaseFault c it p with
      | some (st, d) => .done st d 0 (gateRefused st s)
      | none =>
        let tiles := s.releaseTiles c p
        if tiles = 0 then releaseFirst cid c jb it p [] s
        else
          let same := num == p.sigmaNum && den == p.sigmaDen
          match s.granted cid with
          | some q =>
            if !same then
              let s := { s with rng := { s.rng with requests := s.rng.requests.filter (fun q => q.consumer ≠ .command cid) } }
              if s.rng.mode = .failed ∨ s.rng.mode = .retesting then .done .entropyFail 0 0 (gateRefused .entropyFail s)
              else .goes (setWork cid (.seeds p.sigmaNum p.sigmaDen) (request 3 (.command cid) (32 * tiles) 32 s))
            else if q.left ≠ 0 then .stalls else releaseFirst cid c jb it p (chunks 32 tiles q.got) s
          | none =>
            if s.rng.mode = .failed ∨ s.rng.mode = .retesting then .done .entropyFail 0 0 (gateRefused .entropyFail s)
            else .goes (setWork cid (.seeds p.sigmaNum p.sigmaDen) (request 3 (.command cid) (32 * tiles) 32 s))
  | _ => .stalls

/-- A committed release goes on: it writes its output once the shuttle may issue writes. Out of service the output has been erased with the
items, and the command ends with ABORTED (R262, R274, R373). -/
def resumeRelease (cid : Nat) (s : State) : State :=
  match s.cmd? cid with
  | none => s
  | some c =>
    match c.phase, c.work with
    | .committed, .writing out =>
      if s.faults.outOfService then complete cid .aborted 0 0 s
      else if s.outputWaits c then s
      else settle cid c (writeRelease c out s) s
    | _, _ => s

/-- GATE_RELEASE_COMMIT: a release that waits for its seeds commits, and one that has committed writes its output. -/
def execGateReleaseCommit (cid : Nat) (s : State) : Host.Outcome State Fault Refusal :=
  .next (resumeRelease cid (runRow .gateRelease opReleaseCommit cid s))

/-! ## Registers -/

/-- State code of a bank's item. -/
def State.itemCode (s : State) (gn : Nat) (isB : Bool) : Nat :=
  match Table.get? s.gate.items (itemKey gn isB) with
  | none => 0
  | some it => if it.released then 2 else 1

/-- GAT_ITEM as it reads. -/
def State.gatItem (s : State) (gn : Nat) : Word64 :=
  let combined (b : Bool) : Bool := ((s.group? gn).map (fun g => (g.bank b).combined)).getD false
  let vault (b : Bool) : Bool := ((Table.get? s.gate.items (itemKey gn b)).map (fun it => it.slot.isSome)).getD false
  placeN 0 2 (s.itemCode gn false) ||| placeN 2 2 (s.itemCode gn true) ||| placeB 4 (combined false) ||| placeB 5 (combined true)
  ||| placeB 6 (vault false) ||| placeB 7 (vault true) ||| placeB 8 (Table.has s.gate.policies gn)

/-- GAT_COHORT as it reads, coarsened. -/
def State.gatCohort (s : State) (gn : Nat) : Word64 :=
  let n (b : Bool) : Nat := ((s.group? gn).map (fun g => s.coarseN (min (g.bank b).cohort 0xFFFFFFFF))).getD 0
  placeN 0 32 (n false) ||| placeN 32 32 (n true)

/-- GAT_REFUSALS as it reads, coarsened. -/
def State.gatRefusals (s : State) : Word64 :=
  place 0 (s.coarse s.gate.cohortRefused) ||| place 16 (s.coarse s.gate.entropyRefused) ||| place 32 (s.coarse s.gate.saturated)

/-- GAT_REFUSALS_READ clears the counts that it returns. -/
def execGatRefusalsRead (half : Half) (s : State) : Host.Outcome State Fault Refusal :=
  .next (rcRead half State.gatRefusals (fun s => s.updGate (fun g => { g with cohortRefused := 0, entropyRefused := 0 }))
    (fun s => s.updGate (fun g => { g with saturated := 0 })) s)

end Sys2Proof.Machine
end

