-- ==== Sys2Proof/Machine/Vault.lean ====
section
/-! DEFINITION. The model vault: slots, wrapped models and optimiser steps (R267 to R273). -/

namespace Sys2Proof.Machine

open Sys2Proof

/-- The configured slot of a number. -/
def State.vaultSlot? (s : State) (i : Nat) : Option VaultSlot := unit s.gate.slots i

/-- Sets or erases a slot. -/
def State.setSlot (s : State) (i : Nat) (k : Option VaultSlot) : State :=
  s.updGate (fun g => { g with slots := g.slots.modify i (fun _ => k) })

/-- Values that a slot keeps for each element: W, and M and V as OPT needs them. -/
def vaultArrays (opt : Nat) : Nat := opt + 1

/-- Bytes of protected memory that a slot takes. -/
def vaultBytes (opt elems : Nat) : Nat := 4 * vaultArrays opt * elems

/-- Bytes of vault state in all slots but one. -/
def State.vaultTotal (s : State) (but : Nat) : Nat :=
  ((s.gate.slots.mapIdx (fun i k => if i = but then 0 else
    match k with | none => 0 | some k => vaultBytes k.opt k.elems))).sum

/-- A slot is erased with its allocation (R267). -/
def eraseSlot (i : Nat) (s : State) : State := dealloc (.vault i) (s.setSlot i none)

/-- Protected memory for a slot of this size, within 48 GiB in all (R267). -/
def placeSlot (i opt elems : Nat) (s : State) : Option State :=
  if s.vaultTotal i + vaultBytes opt elems > 48 * 2 ^ 30 then none
  else alloc (.vault i) (vaultBytes opt elems) (dealloc (.vault i) s)

/-- A binary64 field is finite. -/
def finite64 (n : Nat) : Bool := (Fp.decode f64 n).finite

/-- A binary64 field is in [0, 1). -/
def unitRange64 (n : Nat) : Bool :=
  let x := Fp.decode f64 n
  x.finite && Fp.le (.fin false 0 0) x && !Fp.le (.fin false 1 0) x

/-- A binary64 field is positive and finite. -/
def positive64 (n : Nat) : Bool :=
  let x := Fp.decode f64 n
  x.finite && !Fp.le x (.fin false 0 0)

/-- Values of a slot beyond a number of elements are dropped. -/
def cutValues (n : Nat) (l : List (Nat × Word32)) : List (Nat × Word32) := l.filter (fun e => e.1 < n)

/-- The slot that a block configures, with the state of `old`. -/
def configuredSlot (c : Cmd) (old : VaultSlot) : VaultSlot :=
  { old with job := c.job, opt := c.par 2 1, biasCorr := (c.par 3 1).testBit 0, average := (c.par 3 1).testBit 1,
             elems := c.par 4 4, modelId := c.parB 8 8, lr := BitVec.ofNat 64 (c.par 16 8), beta1 := BitVec.ofNat 64 (c.par 24 8),
             beta2 := BitVec.ofNat 64 (c.par 32 8), eps := BitVec.ofNat 64 (c.par 40 8), frac := c.par 48 1,
             w := cutValues (c.par 4 4) old.w, m := cutValues (c.par 4 4) old.m, v := cutValues (c.par 4 4) old.v }

/-- The state of a slot just created (R268). -/
def freshSlot (ownerEk : Bytes) : VaultSlot :=
  { job := 0, opt := 0, biasCorr := false, average := false, elems := 0, modelId := [], lr := 0, beta1 := 0, beta2 := 0, eps := 0,
    frac := 0, ownerEk := ownerEk, w := [], m := [], v := [], t := 0, p1 := fone, p2 := fone, lastTake := 0 }

/-- The checks of a block's fields from OPT to DECODE_FRAC, for every ACTION. -/
def vaultFields (c : Cmd) : List Check :=
  [(decide (c.par 2 1 ≤ 2), blockAt 2), (decide (c.par 3 1 < 4) && (c.par 2 1 == 2 || !(c.par 3 1).testBit 0), blockAt 3),
   (decide (1 ≤ c.par 4 4 ∧ c.par 4 4 ≤ 2 ^ 30), blockAt 4), (finite64 (c.par 16 8), blockAt 16), (unitRange64 (c.par 24 8), blockAt 24),
   (unitRange64 (c.par 32 8), blockAt 32), (positive64 (c.par 40 8), blockAt 40), (decide (c.par 48 1 ≤ 63), blockAt 48)]

/-- VAULT_CONFIGURE (R268). -/
def opVaultConfigure (_ : Nat) (c : Cmd) (s : State) : Verdict :=
  let slot := c.par 0 1
  let action := c.par 1 1
  checks ([resInline c 0 32, (c.body.length == 1248, 12), (decide (slot < 8), blockAt 0), (decide (action ≤ 2), blockAt 1)]
      ++ vaultFields c ++ [resBlock c 49 15]) <|
    if (s.job? c.job).isNone then notPermitted 1
    else match s.vaultSlot? slot with
      | none =>
        if action ≠ 0 then notPermitted 1
        else match placeSlot slot (c.par 2 1) (c.par 4 4) s with
          | none => badBlock 4
          | some s => ok 0 (s.setSlot slot (some (configuredSlot c (freshSlot (c.parB 64 1184)))))
      | some k =>
        if action = 0 ∨ k.job ≠ c.job then notPermitted 1
        else if action = 1 then ok 0 (eraseSlot slot s)
        else if k.opt ≠ c.par 2 1 then notPermitted 8
        else if k.elems = c.par 4 4 then ok 0 (s.setSlot slot (some (configuredSlot c k)))
        else match placeSlot slot k.opt (c.par 4 4) s with
          | none => badBlock 4
          | some s => ok 0 (s.setSlot slot (some (configuredSlot c k)))

/-- VAULT_CONFIGURE. -/
def execVaultConfigure (cid : Nat) (s : State) : Host.Outcome State Fault Refusal :=
  .next (runRow .vaultConfigure opVaultConfigure cid s)

/-! ## Wrapped models (R269) -/

/-- The values of an array of `n` binary32 values at an offset, without zeros. -/
def valuesAt (b : Bytes) (off n : Nat) : List (Nat × Word32) :=
  ((List.range n).map (fun i => (i, BitVec.ofNat 32 (leAt b (off + 4 * i) 4)))).filter (fun e => e.2 ≠ 0)

/-- The bytes of an array of `n` values. -/
def valueBytes (n : Nat) (l : List (Nat × Word32)) : Bytes :=
  ((List.range n).map (fun i => toLE 4 ((Table.get? l i).getD 0).toNat)).flatten

/-- Bytes of the body's plaintext. -/
def bodyLen (content opt elems : Nat) : Nat :=
  16 + (if content.testBit 0 then 4 * elems else 0) + (if content.testBit 1 then 4 * opt * elems else 0)

/-- Bytes of a whole wrapped model. -/
def modelLen (wrap content opt elems : Nat) : Nat := 64 + (if wrap = 1 then 0 else 1088) + bodyLen content opt elems + 16

/-- The key of a JOB or OWNER wrap. -/
def modelKey (ss ct modelId : Bytes) : Bytes := hkdf ss (sha256 ct) (ascii "LN7300-VAULT" ++ modelId)

/-- The IV of a SET wrap. -/
def setIv (member wctr : Nat) : Bytes := toLE 2 member ++ [0, 0] ++ toLE 8 wctr

/-- A wrapped model's header fields are valid (R269, check 1 of R270). -/
def modelHeaderOk (b : Bytes) : Bool :=
  let wrap := byteAt b 5
  let set := wrap == 1
  b.take 4 == ascii "LNVW" && byteAt b 4 == 1 && decide (1 ≤ wrap ∧ wrap ≤ 3) && (byteAt b 6).testBit 0 && decide (byteAt b 6 < 4)
  && decide (byteAt b 7 ≤ 2) && decide (1 ≤ leAt b 8 4 ∧ leAt b 8 4 ≤ 2 ^ 30) && (set || zeroAt b 12 2) && zeroAt b 14 2
  && (set || zeroAt b 24 16) && zeroAt b 56 8 && b.length == modelLen wrap (byteAt b 6) (byteAt b 7) (leAt b 8 4)

/-- The plaintext of a wrapped model's body, if its tag is right under a key that this device has. -/
def State.openModel (s : State) (k : VaultSlot) (b : Bytes) : Option Bytes :=
  if byteAt b 5 = 1 then
    let iv := setIv (leAt b 12 2) (leAt b 40 8)
    ((s.key? .wrap).map (fun _ => s.using .wrap) :: [(s.key? .prevBinding).map s.wrapKey]).findSome? (fun k =>
      k.bind (fun k => gcmOpen k iv (b.take 64) (b.drop 64)))
  else
    match s.key? (.jobDk k.job) with
    | none => none
    | some dk =>
      let ct := slice b 64 1088
      gcmOpen (modelKey (kemOpen dk ct) ct (slice b 48 8)) (zeros 12) (b.take 1152) (b.drop 1152)

/-- The slot's state as an opened body gives it. -/
def loadedSlot (k : VaultSlot) (b body : Bytes) : VaultSlot :=
  let moments := (byteAt b 6).testBit 1
  let n := k.elems
  let k := { k with w := valuesAt body 16 n }
  if moments then
    { k with m := if 1 ≤ k.opt then valuesAt body (16 + 4 * n) n else [], v := if k.opt = 2 then valuesAt body (16 + 8 * n) n else [],
             t := leAt b 16 8, p1 := BitVec.ofNat 64 (leAt body 0 8), p2 := BitVec.ofNat 64 (leAt body 8 8) }
  else { k with m := [], v := [], t := 0, p1 := fone, p2 := fone }

/-- The slot of a VAULT_LOAD or VAULT_EXPORT belongs to the job its slate names, if it names one. -/
def VaultSlot.isFor (k : VaultSlot) (c : Cmd) : Bool := c.job == 0xFF || c.job == k.job

/-- VAULT_LOAD (R270). -/
def opVaultLoad (_ : Nat) (c : Cmd) (s : State) : Verdict :=
  checks [resInline c 0 32, (decide (24 ≤ c.body.length), 12), (decide (c.par 0 1 < 8), blockAt 0), resBlock c 1 15] <|
    withScatter c 16 fun _ n =>
      if c.body.length ≠ 16 + n then .refuse .badParam 12 0
      else withInput c 16 fun b =>
        if !modelHeaderOk b then badBlock 16
        else match s.vaultSlot? (c.par 0 1) with
          | none => notPermitted 1
          | some k =>
            if !k.isFor c ∨ byteAt b 5 = 3 then notPermitted 1
            else if byteAt b 5 = 1 ∧ slice b 24 16 ≠ fitBytes 16 s.setId then notPermitted 9
            else if leAt b 8 4 ≠ k.elems ∨ byteAt b 7 ≠ k.opt then notPermitted 8
            else match s.openModel k b with
              | none => .refuse .authFail 0 0
              | some body => ok 0 (s.setSlot (c.par 0 1) (some (loadedSlot k b body)))

/-- VAULT_LOAD. -/
def execVaultLoad (cid : Nat) (s : State) : Host.Outcome State Fault Refusal := .next (runRow .vaultLoad opVaultLoad cid s)

/-! ## Steps (R271) -/

/-- W, M and V of one element, in binary64. -/
structure VaultElem where
  w : Word64
  m : Word64
  v : Word64
  deriving DecidableEq, Repr, Inhabited

/-- The value of an element released at a scale exponent (R271). -/
def vaultValue (g : Group) (scale : Int) (k : VaultSlot) (e : Elem) : Word64 :=
  if g.kind = 3 then fadd e.x e.y
  else if isFix g.format then fscaled e.a (-(g.frac + scale))
  else
    let q : Int := 2 ^ (8 * g.w)
    let r := e.a % q
    fscaled (if 2 * r ≥ q then r - q else r) (-(k.frac : Int))

/-- One element's step: the gradient, and the bias products after this step's update. -/
def stepElem (k : VaultSlot) (p1 p2 g : Word64) (e : VaultElem) : VaultElem :=
  match k.opt with
  | 0 => { e with w := fadd e.w (fmul k.lr g) }
  | 1 =>
    let m := fadd (fmul k.beta1 e.m) g
    { e with w := fadd e.w (fmul k.lr m), m := m }
  | _ =>
    let m := fadd (fmul k.beta1 e.m) (fmul (fsub fone k.beta1) g)
    let v := fadd (fmul k.beta2 e.v) (fmul (fsub fone k.beta2) (fmul g g))
    let mh := if k.biasCorr then fdiv m (fsub fone p1) else m
    let vh := if k.biasCorr then fdiv v (fsub fone p2) else v
    { w := fadd e.w (fdiv (fmul k.lr mh) (fadd (fsqrt vh) k.eps)), m := m, v := v }

/-- An array of values from those of each element, without zeros. -/
def packValues (l : List Word32) : List (Nat × Word32) := (l.mapIdx (fun i x => (i, x))).filter (fun e => e.2 ≠ 0)

/-- The slot after a step over the elements of a release; none where a value would not be finite (R271). -/
def vaultStepped (g : Group) (it : GateItem) (k : VaultSlot) : Option VaultSlot :=
  let src (i : Nat) : Elem := (Table.get? it.elems i).getD { a := 0, x := 0, y := 0 }
  let bias := k.opt == 2 && k.biasCorr
  let p1 := if bias then fmul k.p1 k.beta1 else k.p1
  let p2 := if bias then fmul k.p2 k.beta2 else k.p2
  let stored (l : List (Nat × Word32)) (i : Nat) : Word64 := f32to64 ((Table.get? l i).getD 0)
  let out : List (Word32 × Word32 × Word32) := (List.range k.elems).map (fun i =>
    let x := vaultValue g it.scale k (src i)
    let grad := if k.average then fdiv x (fint it.cohort) else x
    let r := stepElem k p1 p2 grad { w := stored k.w i, m := stored k.m i, v := stored k.v i }
    (f64to32 r.w, f64to32 r.m, f64to32 r.v))
  let fin (x : Word32) : Bool := (Fp.decode f32 x.toNat).finite
  if out.all (fun r => fin r.1 && fin r.2.1 && fin r.2.2) then
    some { k with w := packValues (out.map (·.1)), m := if 1 ≤ k.opt then packValues (out.map (·.2.1)) else [],
                  v := if k.opt = 2 then packValues (out.map (·.2.2)) else [], t := k.t + 1, p1 := p1, p2 := p2, lastTake := it.take }
  else none

/-- The item of a group that a VAULT_STEP steps with: released to its SLOT with its TAKE (R265). -/
def State.stepItem (s : State) (c : Cmd) : Option (Group × GateItem) :=
  match s.groupOf c.job c.group, Table.get? s.gate.items (itemKey c.group (c.inl 1 1 == 1)) with
  | some g, some it => if it.slot = some (c.inl 0 1) ∧ it.released ∧ it.take = c.inl 4 4 then some (g, it) else none
  | _, _ => none

/-- The checks of VAULT_STEP but the last, in the order of its table: the slot, the group and the item, or the refusal. A slot that has been
deleted since the release, or is another job's, is refused after the table's first row. -/
def State.stepTarget (s : State) (c : Cmd) : Sum (Status × Nat) (VaultSlot × Group × GateItem) :=
  match s.stepItem c with
  | none => .inl (.notPermitted, 2)
  | some (g, it) =>
    match s.vaultSlot? (c.inl 0 1) with
    | none => .inl (.notPermitted, 1)
    | some k =>
      if k.job ≠ c.job then .inl (.notPermitted, 1)
      else if k.elems ≠ g.count ∨ g.kind = 4 then .inl (.notPermitted, 8)
      else if c.inl 4 4 ≤ k.lastTake then .inl (.counterStale, 0)
      else .inr (k, g, it)

/-- VAULT_STEP: its checks; the step then runs in scratch. -/
def opVaultStep (cid : Nat) (c : Cmd) (s : State) : Verdict :=
  match c.work with
  | .stepping => .stalls
  | _ =>
    checks [(decide (c.inl 0 1 < 8), inlineAt 0), (decide (c.inl 1 1 ≤ 1), inlineAt 1), resInline c 2 2, resInline c 8 24] <|
      match s.stepTarget c with
      | .inl (st, d) => .refuse st d 0
      | .inr _ => .goes (setWork cid .stepping s)

/-- VAULT_STEP. -/
def execVaultStep (cid : Nat) (s : State) : Host.Outcome State Fault Refusal := .next (runRow .vaultStep opVaultStep cid s)

/-- The end of a step: the slot is replaced in one action, and the released elements are dropped (R271). -/
def opVaultStepDone (_ : Nat) (c : Cmd) (s : State) : Verdict :=
  match c.work with
  | .stepping =>
    match s.stepTarget c with
    | .inl (st, d) => .refuse st d 0
    | .inr (k, g, it) =>
      match vaultStepped g it k with
      | none => notPermitted 9
      | some k' =>
        let it' : GateItem := { it with elems := [], slot := none }
        ok 0 ((s.setSlot (c.inl 0 1) (some k')).updGate (fun gt =>
          { gt with items := Table.put gt.items (itemKey c.group (c.inl 1 1 == 1)) it' }))
  | _ => .stalls

/-- VAULT_STEP_DONE. -/
def execVaultStepDone (cid : Nat) (s : State) : Host.Outcome State Fault Refusal := .next (runRow .vaultStep opVaultStepDone cid s)

/-! ## Exports (R272) -/

/-- The plaintext of a slot's body. -/
def slotBody (k : VaultSlot) (content : Nat) : Bytes :=
  toLE 8 k.p1.toNat ++ toLE 8 k.p2.toNat ++ (if content.testBit 0 then valueBytes k.elems k.w else [])
  ++ (if content.testBit 1 then (if 1 ≤ k.opt then valueBytes k.elems k.m else []) ++ (if k.opt = 2 then valueBytes k.elems k.v else [])
      else [])

/-- The header of a slot's export. -/
def State.slotHeader (s : State) (k : VaultSlot) (wrap content : Nat) : Bytes :=
  let set := wrap == 1
  ascii "LNVW" ++ [1, BitVec.ofNat 8 wrap, BitVec.ofNat 8 content, BitVec.ofNat 8 k.opt] ++ toLE 4 k.elems
  ++ toLE 2 (if set then s.member else 0) ++ zeros 2 ++ toLE 8 k.t ++ (if set then fitBytes 16 s.setId else zeros 16)
  ++ toLE 8 s.gate.wctr.toNat ++ fitBytes 8 k.modelId ++ zeros 8

/-- The SET wrap of a slot under K_VW. -/
def State.wrapToSet (s : State) (k : VaultSlot) (content : Nat) : Bytes :=
  let h := s.slotHeader k 1 content
  h ++ gcmSeal (s.using .wrap) (setIv s.member s.gate.wctr.toNat) h (slotBody k content)

/-- The OWNER wrap of a slot from encapsulation randomness. -/
def State.wrapToOwner (s : State) (k : VaultSlot) (content : Nat) (rnd : Bytes) : Bytes :=
  let (ct, ss) := kemSeal k.ownerEk rnd
  let h := s.slotHeader k 3 content ++ ct
  h ++ gcmSeal (modelKey ss ct k.modelId) (zeros 12) h (slotBody k content)

/-- VAULT_EXPORT (R272). -/
def opVaultExport (cid : Nat) (c : Cmd) (s : State) : Verdict :=
  let slot := c.par 0 1
  let wrap := c.par 1 1
  let content := c.par 2 1
  checks [resInline c 0 32, (c.body.length == 32, 12), (decide (slot < 8), blockAt 0), (wrap == 1 || wrap == 3, blockAt 1),
      (decide (content < 4), blockAt 2), resBlock c 3 1, resBlock c 16 16] <|
    match s.vaultSlot? slot with
    | none => notPermitted 1
    | some k =>
      if !k.isFor c then notPermitted 1
      else
        let key := BitVec.ofNat 32 (c.par 4 4)
        let off := c.par 8 8
        match s.outRegion k.job key off (modelLen wrap content k.opt k.elems) with
        | .inl st => .refuse st 0 0
        | .inr r =>
          if r.space = .host ∧ !s.shuttleOpen then .stalls
          else if wrap = 1 then
            if (s.key? .wrap).isNone then notPermitted 1
            else ok 0 (regionWrite r off (s.wrapToSet k content) ((loadNamed .wrap s).updGate (fun g => { g with wctr := g.wctr + 1 })))
          else withRandom cid 2 32 (fun b s => ok 0 (regionWrite r off (s.wrapToOwner k content b) s)) s

/-- VAULT_EXPORT. -/
def execVaultExport (cid : Nat) (s : State) : Host.Outcome State Fault Refusal := .next (runRow .vaultExport opVaultExport cid s)

/-! ## Registers -/

/-- VLT_SLOT as it reads. -/
def State.vltSlot (s : State) (i : Nat) : Word64 :=
  match s.vaultSlot? i with
  | none => 0
  | some k => placeB 0 true ||| placeN 1 2 k.opt ||| placeN 3 4 k.job ||| placeN 8 31 k.elems

/-- VLT_PROGRESS as it reads. -/
def State.vltProgress (s : State) (i : Nat) : Word64 :=
  match s.vaultSlot? i with
  | none => 0
  | some k => placeN 0 32 (min k.t 0xFFFFFFFF) ||| placeN 32 32 k.lastTake

end Sys2Proof.Machine
end

