-- ==== Sys2Proof/Machine/Receive.lean ====
section
/-! DEFINITION. The receiving side of the transport: packets, reassembly, visibility, acknowledgements and handshakes (R117 to R142,
R390). -/

namespace Sys2Proof.Machine

open Sys2Proof

/-! ## Packets (R118 to R121) -/

/-- How a packet arrived: its path, a port 0 to 7 or 8 + a warp link, and on Ethernet the IP version, MAC and IP to answer to. -/
structure Arrival where
  path : Nat
  ipVer : Nat
  mac : BitVec 48
  ip : Bytes
  deriving DecidableEq, Repr, Inhabited

/-- A received transport header (R118). -/
structure Head where
  type : Nat
  flags : Nat
  dst : Nat
  src : Nat
  psn : Nat
  msgId : Word32
  rkey : Word32
  len : Nat
  off : Nat
  raddr : Nat
  trig : Nat
  /-- Data bytes in the packet. -/
  bytes : Nat
  deriving DecidableEq, Repr, Inhabited

/-- Reads the header of a packet. -/
def headOf (b : Bytes) : Head :=
  { type := byteAt b 1, flags := beAt b 2 2, dst := beAt b 4 2, src := beAt b 6 2, psn := beAt b 8 8,
    msgId := BitVec.ofNat 32 (beAt b 16 4), rkey := BitVec.ofNat 32 (beAt b 20 4), len := beAt b 24 8, off := beAt b 32 8,
    raddr := beAt b 40 8, trig := beAt b 48 2, bytes := beAt b 50 2 }

/-- TRIGGER. -/
def Head.trigger (h : Head) : Bool := h.flags.testBit 0

/-- R120: packet sizes, offsets and message lengths of a type. -/
def Head.sized (h : Head) : Bool :=
  match h.type with
  | 0x03 => h.bytes == 0 && h.off == 0 && decide (1 ≤ h.len ∧ h.len ≤ 2 ^ 33)
  | 0x05 => h.bytes == 8 && h.off == 0 && h.len == 8
  | 0x06 => h.bytes == 16 && h.off == 0 && h.len == 16
  | 0x07 => h.bytes == 8 && h.off == 0 && h.len == 8
  | 0x11 => h.bytes == 0
  | 0x23 => h.bytes == 0
  | _ =>
    decide (1 ≤ h.len ∧ h.len ≤ 2 ^ 33) && h.off % 4096 == 0 && decide (h.off + h.bytes ≤ h.len)
      && (h.bytes == 4096 || h.bytes == 8192 || (h.off + h.bytes == h.len && decide (1 ≤ h.bytes ∧ h.bytes ≤ 8192)))

/-- The packet is a transport packet by R118 to R120; otherwise it is MALFORMED. -/
def packetOk (b : Bytes) : Bool :=
  let h := headOf b
  decide (72 ≤ b.length) && byteAt b 0 == 1 && decide (h.flags < 8)
    && (if h.type = 0x20 ∨ h.type = 0x21 ∨ h.type = 0x22 then
          b.length == 72 && zeroAt b 8 8 && zeroAt b 17 1 && (h.type != 0x20 || zeroAt b 40 16) && (h.type != 0x22 || zeroAt b 20 4)
        else if h.type = 0x10 then b.length == 72 && zeroAt b 40 16
        else
          ([0x01, 0x02, 0x03, 0x04, 0x05, 0x06, 0x07, 0x11, 0x23] : List Nat).contains h.type && zeroAt b 52 4
            && decide (h.psn < 2 ^ 63) && b.length == 72 + h.bytes && (if h.trigger then decide (h.trig < 64) else h.trig == 0) && h.sized)

/-- The data of an authentic packet of a connection (R121, R390). -/
def Conn.openPacket (c : Conn) (b : Bytes) : Option Bytes :=
  let h := headOf b
  let n := b.length - 72
  let head := b.take 56
  let iv := c.iv false (h.type == 0x10) h.psn
  if c.link.isSome then gcmOpen (c.key false) iv head (b.drop 56)
  else if b.drop (b.length - 16) = gcmMac (c.key false) iv (b.take (b.length - 16)) [] then some (slice b 56 n)
  else none

/-- The connection takes packets of a type on a path. -/
def Conn.takes (c : Conn) (path type : Nat) : Bool :=
  (match c.link with | none => decide (path < 8) | some l => path == 8 + l)
  && (match c.phase with
    | .opened => true | .halfOpen => true | .connecting => false
    | .closing => type == 0x10 || type == 0x23)

/-! ## Sequence numbers (R129 to R131) -/

/-- Advances CUM_PSN over PSNs already received. -/
def advanceCum : Nat → Nat → List Nat → Nat × List Nat
  | 0, cum, l => (cum, l)
  | fuel + 1, cum, l => if l.contains cum then advanceCum fuel (cum + 1) (l.filter (· ≠ cum)) else (cum, l)

/-- A PSN is received: it counts in CUM_PSN, SACK, the units of R130 and the packets since the last ACK. -/
def Conn.receivePsn (c : Conn) (psn units : Nat) : Conn :=
  let (cum, l) := advanceCum (c.rxSet.length + 1) c.rxCum (c.rxSet ++ [psn])
  { c with rxCum := cum, rxSet := l, rxUnits := c.rxUnits + units, sinceAck := c.sinceAck + 1 }

/-- An earlier number than another, modulo 2^32. -/
def before32 (a b : Word32) : Bool := decide (2 ^ 31 ≤ (a - b).toNat)

/-- Reassembly contexts in use (R133). -/
def State.contexts (s : State) : Nat :=
  (s.trans.conns.map (fun e => (e.2.msgs.filter (fun m => !m.2.failed)).length)).sum

/-! ## Messages (R133 to R135) -/

/-- The entry of a message on a connection. -/
def Conn.msg? (c : Conn) (m : Word32) : Option RxMsg := Table.get? c.msgs m.toNat

/-- Sets a message's entry. -/
def setRx (n : Nat) (m : Word32) (k : RxMsg) (s : State) : State :=
  s.updConn n (fun c => { c with msgs := Table.put c.msgs m.toNat k })

/-- The entry that a first packet makes. -/
def Head.rx (h : Head) (path : Nat) : RxMsg :=
  { type := h.type, rkey := h.rkey, len := h.len, raddr := h.raddr, trigger := h.trigger, trigId := h.trig, units := [], data := [],
    failed := false, recv := none, path := path }

/-- Every unit of a message has arrived. -/
def RxMsg.complete (k : RxMsg) : Bool := if k.type ≤ 2 then decide (unitsOf k.len ≤ k.units.length) else !k.units.isEmpty

/-- CUM_MSG passes a message that has been refused (R129). -/
def passFailed (n : Nat) (s : State) : State :=
  match s.conn? n with
  | none => s
  | some c =>
    match c.msg? c.cumMsg with
    | none => s
    | some k =>
      if k.failed then
        s.updConn n (fun c => { c with msgs := Table.del c.msgs c.cumMsg.toNat, cumMsg := c.cumMsg + 1, sinceAck := max c.sinceAck 1 })
      else s

/-- CUM_MSG passes every refused message that none unsettled precedes. -/
def passAllFailed (n : Nat) (s : State) : State :=
  (List.range (((s.conn? n).map (fun c => c.msgs.length)).getD 0)).foldl (fun s _ => passFailed n s) s

/-- A message fails: its entry stays as failed until CUM_MSG passes it, a receive request it had taken ends, and a NAK is sent (R127,
R129, R133, R135). -/
def failRx (src : Option (Nat × Nat)) (n : Nat) (m : Word32) (k : RxMsg) (st : Status) (s : State) : State :=
  let s := match k.recv with
    | none => s
    | some w => recvEndAt src n w st.code 0 s
  passAllFailed n (sendNak n m st.code 0 (setRx n m { k with failed := true, units := [], data := [], recv := none } s))

/-- An access refused at its arrival: the message fails, and REMOTE_ACCESS_ERROR is posted with DIR 0 (R127). -/
def refuseRx (a : Arrival) (n job : Nat) (h : Head) (k : RxMsg) (st : Status) (s : State) : State :=
  remoteError (pathSource a.path) n job 0 h.type st.code h.rkey h.msgId h.raddr 0 (failRx (some (pathSource a.path)) n h.msgId k st s)

/-- The rights that a packet's access needs (R127). -/
def Head.need (h : Head) : BitVec 4 :=
  (match h.type with | 0x03 => rightR | 0x05 => rightA | 0x06 => rightA | _ => rightW) ||| (if h.trigger then rightT else 0)

/-- Where a message is placed: the region of its key, or for a SEND that of the receive request it takes. -/
def State.target (s : State) (c : Conn) (h : Head) (recv : Option WorkReq) : Sum Status (Nat × Region × Nat) :=
  match h.type, recv with
  | 0x02, none => .inl .noResource
  | 0x02, some w =>
    if w.len < h.len then .inl .outOfBounds
    else match s.access c.job w.lkey w.laddr w.len (rightW ||| (if h.trigger then rightT else 0)) false with
      | .inl st => .inl st
      | .inr (i, r) => .inr (i, r, w.laddr)
  | _, _ =>
    match s.access c.job h.rkey h.raddr h.len h.need (h.type = 0x05 || h.type = 0x06) with
    | .inl st => .inl st
    | .inr (i, r) => .inr (i, r, h.raddr)

/-- The units that a packet's data takes in the reassembly bitmap (R133). -/
def Head.span (h : Head) : List Nat := (List.range (unitsOf h.bytes)).map (fun i => h.off / 4096 + i)

/-- Places an accepted packet and marks its units; a packet whose units are marked is dropped, counted at its port (R133). Units of other
spaces than INGEST come back at once (R130). -/
def placePacket (a : Arrival) (n units : Nat) (h : Head) (k : RxMsg) (r : Region) (base : Nat) (data : Bytes) (s : State) : State :=
  if h.span.any (fun u => k.units.contains u) then drop a.path 2 s
  else
    let k := { k with units := k.units ++ h.span, path := a.path }
    if h.type = 0x03 then fallDue n units false (setRx n h.msgId k s)
    else if 0x05 ≤ h.type then fallDue n units false (setRx n h.msgId { k with data := [(0, data)] } s)
    else
      let s := setRx n h.msgId k (regionWrite r (base + h.off) data s)
      if r.space = .ingest then s.updConn n (fun c => { c with ingest := true }) else fallDue n units false s

/-- The value an atomic returned, if the last 64 results hold its message (R128). -/
def Conn.savedAtomic (c : Conn) (m : Word32) : Option Word64 := (c.atomics.find? (fun e => e.1 = m)).map (·.2)

/-- Sends an ATOMIC_RESP. -/
def sendAtomicResp (n : Nat) (m : Word32) (v : Word64) (s : State) : State := enqueue n (packetsOf 0x07 0 m 0 0 0 (toBE 8 v.toNat)) s

/-- A duplicate request of an atomic is answered with the saved response, and not applied again (R128). -/
def answerAgain (n : Nat) (c : Conn) (h : Head) (s : State) : State :=
  match c.savedAtomic h.msgId with
  | some v => if h.type = 0x05 ∨ h.type = 0x06 then sendAtomicResp n h.msgId v s else s
  | none => s

/-- A packet of a WRITE, SEND, READ_REQ or atomic, whose PSN has been received. -/
def requestIn (a : Arrival) (n units : Nat) (h : Head) (data : Bytes) (s : State) : State :=
  match s.conn? n with
  | none => s
  | some c =>
    let k? := c.msg? h.msgId
    if before32 h.msgId c.cumMsg ∧ k?.isNone then answerAgain n c h s
    else
      let k := k?.getD (h.rx a.path)
      if k.failed then s
      else if s.faults.outOfService then failRx (some (pathSource a.path)) n h.msgId k .notPermitted s
      else if k.type ≠ h.type ∨ k.rkey ≠ h.rkey ∨ k.len ≠ h.len ∨ k.raddr ≠ h.raddr ∨ k.trigger ≠ h.trigger ∨ k.trigId ≠ h.trig then
        failRx (some (pathSource a.path)) n h.msgId k .badParam (drop a.path 2 s)
      else
        let recv := if h.type = 0x02 then (match k.recv with | some w => some w | none => c.recvs.head?) else none
        let k : RxMsg := { k with recv := recv }
        let s := match recv with
          | none => s
          | some w => s.updConn n (fun c => { c with recvs := c.recvs.filter (fun x => x.id ≠ w.id) })
        match s.target c h recv with
        | .inl st => refuseRx a n c.job h k st s
        | .inr (_, r, base) =>
          if k?.isNone ∧ r.space = .ingest ∧ c.creditInit < unitsOf h.len then refuseRx a n c.job h k .noResource s
          else placePacket a n units h k r base data s

/-- A request of a window-mode connection reaches an INGEST region, a SEND through the receive request it takes: it is discarded with a
NAK that asks for a resend (R132, R158). -/
def State.windowIngest (s : State) (c : Conn) (h : Head) : Bool :=
  let recv := if h.type = 0x02 then (match (c.msg? h.msgId).bind (·.recv) with | some w => some w | none => c.recvs.head?) else none
  c.windowMode && ([0x01, 0x02, 0x03, 0x05, 0x06] : List Nat).contains h.type
    && (match s.target c h recv with | .inl _ => false | .inr (_, r, _) => r.space == .ingest)

/-! ## Responses (R128, R138) -/

/-- The started request that a response or a refusal answers. -/
def Conn.started? (c : Conn) (m : Word32) : Option WorkReq := c.wrs.find? (fun w => w.msgId = some m)

/-- The local region of a request. -/
def State.localRegion (s : State) (w : WorkReq) : Option Region := Table.get? s.trans.regions (w.lkey.toNat / 256)

/-- READ_RESP data is placed, and the READ completes with its last byte (R138); data placed before is dropped (R133). -/
def readRespIn (a : Arrival) (n : Nat) (h : Head) (data : Bytes) (s : State) : State :=
  match (s.conn? n).bind (·.started? h.msgId) with
  | none => s
  | some w =>
    if w.kind ≠ 2 ∨ h.len ≠ w.len then s
    else if h.span.any (fun u => w.units.contains u) then drop a.path 2 s
    else match s.localRegion w with
      | none => s
      | some r =>
        let s := regionWrite r (w.laddr + h.off) data s
        let w' := { w with units := w.units ++ h.span }
        let s := s.updConn n (fun c => { c with wrs := c.wrs.map (fun x => if x.id = w.id then w' else x) })
        if w'.units.length < unitsOf w.len then s else wrEndAt (some (pathSource a.path)) n w' 0 (BitVec.ofNat 64 w.len) s

/-- An atomic's prior value is placed, and its request completes (R128, R138). -/
def atomicRespIn (a : Arrival) (n : Nat) (h : Head) (data : Bytes) (s : State) : State :=
  match (s.conn? n).bind (·.started? h.msgId) with
  | none => s
  | some w =>
    if w.kind ≠ 3 ∧ w.kind ≠ 4 then s
    else match s.localRegion w with
      | none => s
      | some r => wrEndAt (some (pathSource a.path)) n w 0 (BitVec.ofNat 64 (beNat data)) (regionWrite r w.laddr (toLE 8 (beNat data)) s)

/-- A NAK: a resend is asked for in window mode, or the message is refused (R129, R132, R138, R160). -/
def nakIn (a : Arrival) (n : Nat) (b : Bytes) (s : State) : State :=
  match s.conn? n with
  | none => s
  | some c =>
    let m : Word32 := BitVec.ofNat 32 (beAt b 16 4)
    let st := beAt b 20 2
    if c.windowMode ∧ st = 0x0003 then
      if c.retries.contains m then s else s.updConn n (fun c => { c with retries := c.retries ++ [m] })
    else match c.started? m with
      | some w =>
        remoteError (pathSource a.path) n c.job 1 (wrType w.kind) st w.rkey m w.raddr (if w.kind = 4 then 0 else w.cookie)
          (wrEndAt (some (pathSource a.path)) n w st 0 s)
      | none =>
        match c.posted.find? (fun e => e.1 = m) with
        | some e =>
          remoteError (pathSource a.path) n c.job 1 0x01 st e.2.1 m e.2.2 0
            (s.updConn n (fun c => { c with posted := c.posted.filter (fun x => x.1 ≠ m) }))
        | none => s

/-- A DISCONNECT from the peer closes the connection, and CONN_ERROR is posted with cause 3 (R125). -/
def disconnectIn (a : Arrival) (n : Nat) (s : State) : State :=
  if s.opened n then closeConn n (connErrorAt (pathSource a.path) n 3 0 s) else s

/-! ## Acknowledgements (R129 to R131, R138) -/

/-- An ACK: PSNs, CUM_MSG and credit advance, and what waited is sent. -/
def ackIn (a : Arrival) (n : Nat) (h : Head) (b : Bytes) (s : State) : State :=
  match s.conn? n with
  | none => s
  | some c =>
    if (c.rxCtl.map (fun p => decide (h.psn % 2 ^ 63 ≤ p))).getD false then s
    else
      let cum := beAt b 16 8
      let sack := beAt b 24 8
      let cumMsg : Word32 := BitVec.ofNat 32 (beAt b 32 4)
      let limit : Word32 := BitVec.ofNat 32 (beAt b 36 4)
      let progress := c.unacked.any (fun p => decide (p.psn < cum))
      let s := s.updConn n (fun c => { c with
        phase := if c.phase = .halfOpen then .opened else c.phase
        rxCtl := some (h.psn % 2 ^ 63)
        unacked := (c.unacked.filter (fun p => cum ≤ p.psn)).map (fun p =>
          if cum < p.psn ∧ p.psn ≤ cum + 64 ∧ sack.testBit (p.psn - cum - 1) then { p with sacked := true } else p)
        expiries := if progress then 0 else c.expiries
        txLimit := if before32 c.txLimit limit then limit else c.txLimit
        posted := c.posted.filter (fun e => !before32 e.1 cumMsg) })
      let ended := c.wrs.filter (fun w => w.kind ≤ 1 && (match w.msgId with | none => false | some m => before32 m cumMsg))
      let s := ended.foldl (fun s w => wrEndAt (some (pathSource a.path)) n w 0 0 s) s
      match c.discPsn with
      | some p => if p < cum then freeConn n s else pump n s
      | none => pump n s

/-! ## Data-class packets -/

/-- A packet that counts beyond the granted limit (R130). -/
def overCredit (a : Arrival) (n : Nat) (s : State) : State :=
  let s := (drop a.path 3 s).updConn n (fun c => { c with violations := c.violations + 1 })
  connErrorAt (pathSource a.path) n 2 (((s.conn? n).map (·.violations)).getD 0) s

/-- An ACK is sent after 16 data packets, and at once where the sender asks (R129). -/
def ackDue (n : Nat) (now : Bool) (s : State) : State :=
  match s.conn? n with
  | none => s
  | some c => if (now && decide (c.sinceAck ≠ 0)) || decide (16 ≤ c.sinceAck) then sendAck n s else s

/-- A data-class packet that verified: duplicates are acknowledged again, packets beyond the window, the contexts or the credit are
discarded, and the rest take effect by their type (R129 to R133). -/
def dataIn (a : Arrival) (n : Nat) (h : Head) (b data : Bytes) (s : State) : State :=
  let s := s.updConn n (fun c => { c with phase := if c.phase = .halfOpen then .opened else c.phase })
  match s.conn? n with
  | none => s
  | some c =>
    let units := txUnits h.type h.bytes
    let request := ([0x01, 0x02, 0x03, 0x05, 0x06] : List Nat).contains h.type
    let fresh := request && (c.msg? h.msgId).isNone && !before32 h.msgId c.cumMsg
    if h.psn < c.rxCum ∨ c.rxSet.contains h.psn then answerAgain n c h (sendAck n s)
    else if c.rxCum + 4096 ≤ h.psn then s
    else if !c.windowMode ∧ c.granted < c.rxUnits + units then overCredit a n s
    else if fresh ∧ 131072 ≤ s.contexts then
      if c.windowMode then sendNak n h.msgId Status.noResource.code 200 s else s
    else if s.windowIngest c h then
      sendNak n h.msgId Status.noResource.code 200
        (remoteError (pathSource a.path) n c.job 0 h.type Status.noResource.code h.rkey h.msgId h.raddr 0 s)
    else
      let s := s.updConn n (fun c => c.receivePsn h.psn units)
      let s := match h.type with
        | 0x04 => readRespIn a n h data s
        | 0x07 => atomicRespIn a n h data s
        | 0x11 => nakIn a n b s
        | 0x23 => disconnectIn a n s
        | _ => requestIn a n units h data s
      creditMoved (ackDue n (h.flags.testBit 2 || h.type == 0x23) s)

/-! ## Visibility (R134, R136) -/

/-- An atomic is applied to memory: the prior value, and the memory after it (R128). -/
def applyAtomic (k : RxMsg) (old : Nat) : Nat :=
  let d := ((k.data.head?).map (·.2)).getD []
  if k.type = 0x05 then (old + beAt d 0 8) % 2 ^ 64 else if old = beAt d 0 8 then beAt d 8 8 else old

/-- A READ_REQ or an atomic executes (R127, R128); data that memory cannot return is refused with HOST_FAULT (R359). -/
def runRx (n : Nat) (m : Word32) (k : RxMsg) (i : Nat) (r : Region) (s : State) : State :=
  let addr := r.base + k.raddr
  if k.type = 0x03 then
    if r.space = .host then
      let s := holdRegion i true (s.updConn n (fun c => { c with answers := c.answers ++ [(m, k.rkey, k.len, [])] }))
      askHost (.answer n m.toNat) [{ addr := addr, len := k.len }] s
    else if poisoned s.mem addr k.len then sendNak n m Status.hostFault.code 0 s
    else enqueue n (packetsOf 0x04 0 m 0 0 0 (memReads s.mem addr k.len)) s
  else if poisoned s.mem addr 8 then sendNak n m Status.hostFault.code 0 s
  else
    let old := leNat (memReads s.mem addr 8)
    let v : Word64 := BitVec.ofNat 64 old
    let s := s.store addr (toLE 8 (applyAtomic k old))
    sendAtomicResp n m v (s.updConn n (fun c => { c with atomics := (c.atomics ++ [(m, v)]).drop (c.atomics.length + 1 - 64) }))

/-- The key under which a message is placed: its own, or that of the receive request it took. -/
def RxMsg.key (k : RxMsg) : Word32 := match k.recv with | some w => w.lkey | none => k.rkey

/-- The region offset of a message's byte 0. -/
def RxMsg.at (k : RxMsg) : Nat := match k.recv with | some w => w.laddr | none => k.raddr

/-- Every effect of a message's visibility but CUM_MSG (R134): a WRITE or SEND advances its trigger counter (R136), and one in a region
of space INGEST or COMBINE is handed on. -/
def visibleEffects (n : Nat) (m : Word32) (k : RxMsg) (s : State) : State :=
  match s.conn? n with
  | none => s
  | some c =>
    let s := if k.trigger ∧ k.type ≤ 2 then
        s.updJob c.job (fun j => { j with trigs := j.trigs.modify k.trigId (· + 1) })
      else s
    let i := k.key.toNat / 256
    match Table.get? s.trans.regions i with
    | none => s
    | some r =>
      if 2 < k.type then runRx n m k i r s
      else
        let s := match k.recv with
          | none => s
          | some w => recvEndAt (some (pathSource k.path)) n w 0 (BitVec.ofNat 64 k.len) s
        match r.space with
        | .ingest => envelopeVisible n m i k.at k.len k.path s
        | .combine => partialVisible { conn := n, connId := c.id, job := c.job, addr := r.base + k.at, len := k.len } s
        | .device => s
        | .host => s

/-- The message CUM_MSG becomes visible or is passed over, if it may. -/
def visibleNext (n : Nat) (s : State) : State :=
  match s.conn? n with
  | none => s
  | some c =>
    match c.msg? c.cumMsg with
    | none => s
    | some k =>
      if !k.failed ∧ !k.complete then s
      else
        let pass := s.updConn n (fun c => { c with msgs := Table.del c.msgs c.cumMsg.toNat, cumMsg := c.cumMsg + 1,
                                                   sinceAck := max c.sinceAck 1 })
        if k.failed then pass else visibleEffects n c.cumMsg k pass

/-- MESSAGE_VISIBLE: every complete message behind which nothing is unsettled becomes visible, in MSG_ID order (R134). -/
def messagesVisible (n : Nat) (s : State) : State :=
  match s.conn? n with
  | none => s
  | some c => (List.range c.msgs.length).foldl (fun s _ => visibleNext n s) s

/-- MESSAGE_VISIBLE. -/
def execMessageVisible (conn : Nat) (s : State) : Host.Outcome State Fault Refusal :=
  .next (if s.transportRuns then messagesVisible conn s else s)

/-- The receipt of an envelope whose reassembly timed out after its first unit arrived (R160); none where its region is revoked (R163). -/
def timeoutReceipt (n : Nat) (m : Word32) (c : Conn) (k : RxMsg) (s : State) : State :=
  match Table.get? s.trans.regions (k.key.toNat / 256) with
  | none => s
  | some r =>
    if r.space ≠ .ingest ∨ r.revoking ∨ !k.units.contains 0 then s
    else
      let p := memReads s.mem (r.base + k.at) 80
      sendReceipt (messageOf n c.id m (k.key.toNat / 256) k.at k.len s.time.ptime.toNat p) 1 Status.timeout.code 0 0 s

/-- REASSEMBLY_TIMER_EXPIRY: an incomplete message fails with TIMEOUT, and what waited behind it becomes visible (R135, R142). -/
def execReassemblyTimerExpiry (conn : Nat) (msgId : Word32) (s : State) : Host.Outcome State Fault Refusal :=
  .next (match s.conn? conn with
    | none => s
    | some c =>
      match c.msg? msgId with
      | none => s
      | some k =>
        if !s.transportRuns ∨ k.failed ∨ k.complete then s
        else
          let src := pathSource k.path
          let t := post .reassemblyTimeout src.1 src.2 (BitVec.ofNat 8 c.job) nobody
            (toLE 2 conn ++ zeros 2 ++ toLE 4 msgId.toNat ++ toLE 8 k.len ++ toLE 4 (unitsOf k.len - k.units.length)) s
          messagesVisible conn (failRx none conn msgId k .timeout (timeoutReceipt conn msgId c k t)))

/-! ## Handshakes (R122 to R124) -/

/-- Where a handshake answer goes: back on its link, or to the source of the frame on the port that received it (R123). -/
def answerOn (a : Arrival) (body : Bytes) (s : State) : State :=
  if 8 ≤ a.path then
    let l := a.path - 8
    linkPump l (s.updLink l (fun k => { k with queue := k.queue ++ [body] }))
  else wireOut a.path a.ipVer a.mac a.ip 0 body s

/-- A nonce from the engine's pool, or a free value where the pool is empty. -/
def nonceOr (engine : Nat) (s : State) : Bytes × State :=
  match takeNonce engine s with
  | some r => r
  | none =>
    let (x, s) := s.draw
    let (y, s) := s.draw
    (toLE 8 x.toNat ++ toLE 8 y.toNat, s)

/-- Sends CONNECT_REJECT. -/
def sendReject (a : Arrival) (key : Bytes) (h : Head) (j : Nat) (st : Status) (nonceI : Bytes) (s : State) : State :=
  let (nonce, s) := nonceOr a.path s
  answerOn a (handshake key 0x22 (h.flags &&& 2) h.src 0 (handshakeTail j st.code 0 nonceI nonce) nonce) s

/-- What accepts a CONNECT_REQ: a listener, or an active open of the job (R123): REASM_MS, WINDOW, CREDIT_INIT, PORT_MASK. -/
structure Acceptor where
  listener : Option Nat
  reasmMs : Nat
  window : Nat
  creditInit : Nat
  portMask : BitVec 8
  deriving DecidableEq, Repr, Inhabited

/-- The lowest listener that accepts, or an active open. -/
def State.acceptor (s : State) (a : Arrival) (j : Nat) (windowMode : Bool) : Option Acceptor :=
  let link : Option Nat := if a.path < 8 then none else some (a.path - 8)
  let onPath (l : Option Nat) (mask : BitVec 8) : Bool := l == link && (link.isSome || mask.getLsbD a.path)
  let ls := s.trans.listeners.filter (fun e => e.2.job == j && e.2.windowMode == windowMode && decide (e.2.accepted < e.2.max)
    && onPath e.2.link e.2.portMask)
  let cs := s.trans.conns.filter (fun e => e.2.phase == .connecting && e.2.job == j && e.2.windowMode == windowMode
    && onPath e.2.link e.2.portMask)
  match ls.head?, cs.head? with
  | some e, _ => some { listener := some e.1, reasmMs := e.2.reasmMs, window := e.2.window, creditInit := e.2.creditInit,
                        portMask := e.2.portMask }
  | none, some e => some { listener := none, reasmMs := e.2.reasmMs, window := e.2.window, creditInit := e.2.creditInit,
                           portMask := e.2.portMask }
  | none, none => none

/-- The connection that a CONNECT_REQ accepted makes (R121 to R123). -/
def acceptedConn (a : Arrival) (x : Acceptor) (secret : Bytes) (h : Head) (j n peerCredit : Nat) (nonceI nonceR : Bytes) (window : Bool) :
    Conn :=
  let c := Conn.fresh j window x.portMask x.reasmMs x.window x.creditInit (if a.path < 8 then none else some (a.path - 8))
  { c with phase := .halfOpen, initiator := false, peerConn := h.src, ipVer := a.ipVer, peerIp := a.ip, peerMac := a.mac, nonceI := nonceI,
           nonceR := nonceR, okm := connOkm secret nonceI nonceR j h.src n, txLimit := BitVec.ofNat 32 peerCredit, listener := x.listener }

/-- A CONNECT_REQ whose ICV verified, with no connection of its nonce yet: accepted half-open, or rejected (R123). -/
def acceptReq (a : Arrival) (h : Head) (b : Bytes) (j : Nat) (key secret : Bytes) (s : State) : State :=
  let nonceI := slice b 24 16
  let window := h.flags.testBit 1
  match s.acceptor a j window with
  | none =>
    let s := if s.trans.listeners.any (fun e => e.2.job == j) ∨ s.trans.conns.any (fun e => e.2.phase == .connecting && e.2.job == j)
      then s else drop a.path 1 s
    sendReject a key h j .notPermitted nonceI s
  | some x =>
    match Table.free? s.trans.conns 0 connLimit, takeNonce a.path s with
    | none, _ => sendReject a key h j .noResource nonceI s
    | _, none => sendReject a key h j .noResource nonceI s
    | some n, some (nonceR, s) =>
      let c := acceptedConn a x secret h j n (beAt b 20 4) nonceI nonceR window
      let acc := handshake key 0x21 (h.flags &&& 2) h.src n (handshakeTail j (beAt b 18 2) x.creditInit nonceI nonceR) nonceR
      let s := makeConn n { c with greeting := acc } s
      let ls := match x.listener with
        | none => s.trans.listeners
        | some l => Table.upd s.trans.listeners l (fun e => { e with accepted := e.accepted + 1 })
      answerOn a acc { s with trans := { s.trans with listeners := ls } }

/-- CONNECT_REQ (R123 steps 2 and 3). -/
def connectReqIn (a : Arrival) (h : Head) (b : Bytes) (s : State) : State :=
  let j := byteAt b 16
  match s.job? j with
  | none => drop a.path 1 s
  | some _ =>
    let secret := s.connSecret j (if a.path < 8 then none else some (a.path - 8))
    let key := hsKey secret j
    let nonceI := slice b 24 16
    if b.drop 56 ≠ gcmMac key (nonceI.take 12) (b.take 56) [] then drop a.path 0 s
    else if s.faults.outOfService then sendReject a key h j .notPermitted nonceI s
    else match s.trans.conns.find? (fun e => !e.2.initiator && e.2.job == j && e.2.nonceI == nonceI && e.2.peerConn == h.src) with
      | some e => if e.2.phase = .halfOpen then answerOn a e.2.greeting s else s
      | none => acceptReq a h b j key secret s

/-- The connecting connection that a handshake answer names, where its ICV and its echo of NONCE_I verify (R123 step 4); otherwise
the drop count it takes, if any. -/
def State.answers? (s : State) (a : Arrival) (h : Head) (b : Bytes) : Sum (Option Nat) (Conn × Bytes) :=
  match s.conn? h.dst with
  | none => .inl (some 1)
  | some c =>
    if c.phase ≠ .connecting ∨ !(match c.link with | none => decide (a.path < 8) | some l => a.path == 8 + l) then .inl (some 1)
    else match s.job? c.job with
      | none => .inl (some 1)
      | some _ =>
        let secret := s.connSecret c.job c.link
        if b.drop 56 ≠ gcmMac (hsKey secret c.job) (slice b 40 12) (b.take 56) [] then .inl (some 0)
        else if slice b 24 16 ≠ c.nonceI ∨ byteAt b 16 ≠ c.job then .inl none
        else .inr (c, secret)

/-- CONNECT_ACCEPT completes an active open (R123 step 4, R124). -/
def connectAcceptIn (a : Arrival) (h : Head) (b : Bytes) (s : State) : State :=
  match s.answers? a h b with
  | .inl d => (match d with | some k => drop a.path k s | none => s)
  | .inr (c, secret) =>
    let nonceR := slice b 40 16
    let s := s.updConn h.dst (fun c => { c with
      phase := .opened, cid := none, peerConn := h.src, nonceR := nonceR, okm := connOkm secret c.nonceI nonceR c.job h.dst h.src
      txLimit := BitVec.ofNat 32 (beAt b 20 4) })
    match c.cid with
    | none => s
    | some k => complete k .ok 0 h.dst s

/-- CONNECT_REJECT completes CONN_OPEN with the status that it carries (R124). -/
def connectRejectIn (a : Arrival) (h : Head) (b : Bytes) (s : State) : State :=
  match s.answers? a h b with
  | .inl d => (match d with | some k => drop a.path k s | none => s)
  | .inr (c, _) =>
    let s := connErrorAt (pathSource a.path) h.dst 1 0 s
    let s := { s with trans := { s.trans with conns := Table.del s.trans.conns h.dst } }
    match c.cid with
    | none => s
    | some k => completeCode k (beAt b 18 2) 0 0 s

/-! ## Arrival -/

/-- A transport packet arrives on a path. -/
def receive (a : Arrival) (b : Bytes) (s : State) : State :=
  let h := headOf b
  if !s.transportRuns then s
  else if !packetOk b then drop a.path 2 s
  else match h.type with
    | 0x20 => connectReqIn a h b s
    | 0x21 => connectAcceptIn a h b s
    | 0x22 => connectRejectIn a h b s
    | _ =>
      match s.conn? h.dst with
      | none => drop a.path 1 s
      | some c =>
        if !c.takes a.path h.type then drop a.path 1 s
        else match c.openPacket b with
          | none => drop a.path 0 s
          | some data => if h.type = 0x10 then ackIn a h.dst h b s else dataIn a h.dst h b data s

/-- A packet of a type arrives in a frame for this port: its MAC and IP are the port's, and the port is up (R115, R123). -/
def portReceive (type port : Nat) (p : Packet) (s : State) : State :=
  let k := s.port port
  if byteAt p.body 1 ≠ type ∨ !k.carries p.ipVer ∨ p.dstMac ≠ k.mac ∨ p.dstIp ≠ k.ip p.ipVer then s
  else receive { path := port, ipVer := p.ipVer, mac := p.srcMac, ip := p.srcIp } p.body s

/-- WRITE. -/
def execWrite (port : Nat) (packet : Packet) (s : State) : Host.Outcome State Fault Refusal := .next (portReceive 0x01 port packet s)
/-- SEND. -/
def execSend (port : Nat) (packet : Packet) (s : State) : Host.Outcome State Fault Refusal := .next (portReceive 0x02 port packet s)
/-- READ_REQ. -/
def execReadReq (port : Nat) (packet : Packet) (s : State) : Host.Outcome State Fault Refusal := .next (portReceive 0x03 port packet s)
/-- READ_RESP. -/
def execReadResp (port : Nat) (packet : Packet) (s : State) : Host.Outcome State Fault Refusal := .next (portReceive 0x04 port packet s)
/-- ATOMIC_ADD. -/
def execAtomicAdd (port : Nat) (packet : Packet) (s : State) : Host.Outcome State Fault Refusal := .next (portReceive 0x05 port packet s)
/-- COMPARE_SWAP. -/
def execCompareSwap (port : Nat) (packet : Packet) (s : State) : Host.Outcome State Fault Refusal := .next (portReceive 0x06 port packet s)
/-- ATOMIC_RESP. -/
def execAtomicResp (port : Nat) (packet : Packet) (s : State) : Host.Outcome State Fault Refusal := .next (portReceive 0x07 port packet s)
/-- ACK_RECEIVED. -/
def execAckReceived (port : Nat) (packet : Packet) (s : State) : Host.Outcome State Fault Refusal := .next (portReceive 0x10 port packet s)
/-- NAK_RECEIVED. -/
def execNakReceived (port : Nat) (packet : Packet) (s : State) : Host.Outcome State Fault Refusal := .next (portReceive 0x11 port packet s)
/-- CONNECT_REQ. -/
def execConnectReq (port : Nat) (packet : Packet) (s : State) : Host.Outcome State Fault Refusal := .next (portReceive 0x20 port packet s)
/-- CONNECT_ACCEPT. -/
def execConnectAccept (port : Nat) (packet : Packet) (s : State) : Host.Outcome State Fault Refusal :=
  .next (portReceive 0x21 port packet s)
/-- CONNECT_REJECT. -/
def execConnectReject (port : Nat) (packet : Packet) (s : State) : Host.Outcome State Fault Refusal :=
  .next (portReceive 0x22 port packet s)
/-- DISCONNECT. -/
def execDisconnect (port : Nat) (packet : Packet) (s : State) : Host.Outcome State Fault Refusal := .next (portReceive 0x23 port packet s)

end Sys2Proof.Machine
end

