-- ==== Sys2Proof/Machine/Warp.lean ====
section
/-! DEFINITION. Warp links: training, link frames, WARP_CONFIGURE, WARP_RETRAIN and the WRP_ registers (R384 to R397). -/

namespace Sys2Proof.Machine

open Sys2Proof

/-! ## Training (R385, R386, R396) -/

/-- Lanes in use of a width code. -/
def widthLanes (w : BitVec 2) : Nat := match w.toNat with | 1 => 4 | 2 => 6 | 3 => 8 | _ => 0

/-- Width code of a number of lanes. -/
def laneCode (n : Nat) : BitVec 2 := if n = 8 then 3 else if n = 6 then 2 else if n = 4 then 1 else 0

/-- Posts WARP_LINK. -/
def warpEvent (i cause : Nat) (s : State) : State :=
  let l := s.link i
  post .warpLink 3 i nobody nobody
    ([if l.up then 1 else 0, BitVec.ofNat 8 (widthLanes l.width)] ++ toLE 2 l.lanesGood.toNat ++ [BitVec.ofNat 8 cause, 0]
      ++ toLE 2 l.peerMember.toNat ++ toLE 8 s.unitStatus.toNat) s

/-- A link starts training: it goes down, and posts WARP_LINK if it was up. -/
def beginTraining (i cause : Nat) (restore : Bool) (s : State) : State :=
  let up := (s.link i).up
  let s := s.updLink i (fun l => { l with
    up := false, width := 0, lanes := [], training := some cause
    was := if cause = 0 then 0 else if l.up then widthLanes l.width else l.was
    lost := if cause = 1 then l.lost else none
    maxWidth := if cause = 0 ∨ restore then 8 else l.maxWidth
    retrains := if cause = 0 then l.retrains else satAdd l.retrains 1 })
  if up then warpEvent i cause s else s

/-- The width that training may reach with these lanes good (R385 step 3, R386). -/
def Link.reachable (l : Link) (good : Nat) : Option Nat :=
  ([8, 6, 4] : List Nat).find? (fun w => decide (w ≤ good ∧ w ≤ l.maxWidth) && (w == 8 || l.allowDegrade))

/-- A peer that R385 step 4 does not admit. -/
def State.wrongPeer (s : State) (l : Link) (p : WarpPeer) : Bool :=
  (l.requireSet && fitBytes 16 p.setId != fitBytes 16 s.setId) || (l.expectMember != 0xFFFF && l.expectMember.toNat != p.member)

/-- CAUSE of a link that comes up at `w` lanes. -/
def Link.upCause (l : Link) (w : Nat) : Nat :=
  match l.training with
  | some 1 => if w = l.was then 6 else 7
  | some 4 => if l.was < w ∧ l.was ≠ 0 then 8 else if w < l.was then 7 else 4
  | some c => if w < l.was then 7 else c
  | none => 0

/-- Commands that wait for a link to come up complete (R392). -/
def endRetrain (i : Nat) (st : Status) (s : State) : State :=
  (s.cmds.filter (fun e => e.2.work = .retraining i)).foldl (fun s e => complete e.1 st 0 (widthLanes (s.link i).width) s) s

/-- With fewer than 4 good lanes a link that lost a lane stays down, which DEGRADED reports once (R31, R386). -/
def stayDown (i : Nat) (s : State) : State :=
  match (s.link i).lost with
  | none => s
  | some lane => postDegraded 3 i 5 lane 0 0 (s.updLink i (fun l => { l with lost := none }))

/-- Training ends (R385 steps 3 to 5). -/
def trainingDone (i : Nat) (p : WarpPeer) (s : State) : State :=
  let l := s.link i
  if l.training.isNone ∨ !l.enable ∨ !l.inService ∨ s.side.testHold then s
  else
    let common := p.good &&& p.peerGood
    let seen (s : State) : State := s.updLink i (fun l => { l with
      lanesGood := p.good, peerMember := BitVec.ofNat 16 p.member, peerId := BitVec.ofNat 32 (leAt p.idHash 0 4) })
    match l.reachable (bitList 9 common.toNat).length with
    | none => stayDown i (s.updLink i (fun l => { l with lanesGood := p.good }))
    | some w =>
      if s.wrongPeer l p then warpEvent i 5 (seen s)
      else
        let s := (seen s).updLink i (fun l => { l with
          up := true, width := laneCode w, lanes := (bitList 9 common.toNat).take w, training := none, maxWidth := w, tries := 0,
          lost := none })
        let s := warpEvent i (l.upCause w) s
        let s := if w < l.was then postDegraded 3 i 5 (l.lost.getD (((bitList 9 (~~~common).toNat).head?).getD 8)) w 0 s else s
        linkPump i (endRetrain i .ok s)

/-- WARP_TRAINING_DONE. -/
def execWarpTrainingDone (link : Nat) (peer : WarpPeer) (s : State) : Host.Outcome State Fault Refusal :=
  .next (trainingDone link peer s)

/-- WARP_LANE_FAIL: a lane in use fails, and the link retrains with lane 8 in its place or at a lower width (R386). -/
def laneFail (i lane : Nat) (s : State) : State :=
  let l := s.link i
  let s := s.updLink i (fun l => { l with lanesGood := l.lanesGood &&& ~~~(1#9 <<< lane) })
  if !l.up ∨ !l.lanes.contains lane then s
  else
    let w := widthLanes l.width
    let spare := w == 8 && !l.lanes.contains 8 && l.lanesGood.getLsbD 8
    let s := s.updLink i (fun l => { l with lost := some lane, maxWidth := if spare then 8 else if w = 8 then 6 else 4 })
    let s := beginTraining i 1 false s
    let k := s.link i
    if (k.reachable (bitList 9 k.lanesGood.toNat).length).isNone then stayDown i s else s

/-- WARP_LANE_FAIL. -/
def execWarpLaneFail (link lane : Nat) (s : State) : Host.Outcome State Fault Refusal := .next (laneFail link lane s)

/-! ## The link layer (R387 to R389) -/

/-- A frame's length and LCRC are right; its reserved bytes are ignored (R7, R388). -/
def frameOk (f : Bytes) : Bool :=
  let n := f.length - 4
  decide (20 ≤ f.length) && beNat (f.drop n) == (crc32c (f.take n)).toNat && beAt f 2 2 + 20 == f.length
    && decide (beAt f 2 2 ≤ 8264) && (byteAt f 0 == 1 || beAt f 2 2 == 0)

/-- ACK_SEQ frees the replay buffer, and LCREDIT returns link credit (R388, R389). -/
def frameHeader (i : Nat) (f : Bytes) (s : State) : State :=
  let ack : Word32 := BitVec.ofNat 32 (beAt f 8 4)
  s.updLink i (fun l =>
    let keep := l.replayBuf.filter (fun e => !before32 e.1 ack)
    { l with replayBuf := keep, tries := if keep.length < l.replayBuf.length then 0 else l.tries
             credit := min 1024 (l.credit + beAt f 12 2) })

/-- Sends a NAK that names the next LSEQ expected. -/
def linkNak (i : Nat) (s : State) : State := sendFrame i 3 0 [] s

/-- Replays the frames from a number on; after 8 replays of one frame without progress the link retrains (R388). -/
def replayFrom (i : Nat) (first : Word32) (s : State) : State :=
  let l := s.link i
  let frames := l.replayBuf.filter (fun e => !before32 e.1 first)
  if frames.isEmpty then s
  else if 8 ≤ l.tries then beginTraining i 2 false (s.updLink i (fun l => { l with tries := 0 }))
  else
    frames.foldl (fun s e => sendFrame i 1 e.1 e.2 s)
      (s.updLink i (fun l => { l with tries := l.tries + 1, replays := satAdd l.replays frames.length }))

/-- A frame of a type arrives on a link. -/
def frameIn (type i : Nat) (f : Bytes) (s : State) : State :=
  if byteAt f 0 ≠ type ∨ !(s.link i).up ∨ s.side.testHold then s
  else if !frameOk f then linkNak i s
  else if type = 1 then
    if beAt f 4 4 ≠ (s.link i).expectLseq.toNat then linkNak i s
    else
      let s := (frameHeader i f s).updLink i (fun l => { l with
        expectLseq := l.expectLseq + 1, toReturn := l.toReturn + frameUnits (beAt f 2 2) })
      let s := receive { path := 8 + i, ipVer := 6, mac := 0, ip := zeros 16 } (slice f 16 (beAt f 2 2)) s
      linkPump i (sendFrame i 2 0 [] s)
  else
    let s := frameHeader i f s
    linkPump i (if type = 3 then replayFrom i (BitVec.ofNat 32 (beAt f 8 4)) s else s)

/-- LINK_FRAME_DATA. -/
def execLinkFrameData (link : Nat) (frame : Bytes) (s : State) : Host.Outcome State Fault Refusal := .next (frameIn 1 link frame s)
/-- LINK_FRAME_ACK. -/
def execLinkFrameAck (link : Nat) (frame : Bytes) (s : State) : Host.Outcome State Fault Refusal := .next (frameIn 2 link frame s)
/-- LINK_FRAME_NAK. -/
def execLinkFrameNak (link : Nat) (frame : Bytes) (s : State) : Host.Outcome State Fault Refusal := .next (frameIn 3 link frame s)

/-- WARP_REPLAY_TIMER: 10 µs without an advance in ACK_SEQ (R388). -/
def execWarpReplayTimer (link : Nat) (s : State) : Host.Outcome State Fault Refusal :=
  .next (match (s.link link).replayBuf with
    | [] => s
    | e :: _ => if (s.link link).up ∧ !s.side.testHold then replayFrom link e.1 s else s)

/-- WARP_CREDIT_STARVATION: DATA frames have waited for link credit for 1 ms (R389). -/
def execWarpCreditStarvation (link : Nat) (s : State) : Host.Outcome State Fault Refusal :=
  .next (let l := s.link link
    match l.queue with
    | [] => s
    | p :: _ =>
      if l.up ∧ l.credit < frameUnits p.length then
        beginTraining link 3 false (s.updLink link (fun l => { l with starved := satAdd l.starved 1 }))
      else s)

/-! ## WARP_CONFIGURE (R391) -/

/-- The settings of ACTION 0 take effect: ENABLE from 0 to 1 starts training, and from 1 to 0 takes the link down. -/
def configureLink (i : Nat) (flags member : Nat) (s : State) : State :=
  let old := s.link i
  let on := flags.testBit 0
  let s := s.updLink i (fun l => { l with
    allowDegrade := flags.testBit 1, requireSet := flags.testBit 2, expectMember := BitVec.ofNat 16 member })
  let waits := s.side.waitingEnables
  if on ∧ !old.enable then
    if s.side.tests.any (fun t => t.target == 1 && t.unit == i) then
      { s with side := { s.side with waitingEnables := if waits.contains (8 + i) then waits else waits ++ [8 + i] } }
    else beginTraining i 0 false (s.updLink i (fun l => { l with enable := true }))
  else if !on then
    let s := { s with side := { s.side with waitingEnables := waits.filter (· ≠ 8 + i) } }
    let s := s.updLink i (fun l => { l with
      enable := false, up := false, width := 0, lanesGood := 0, lanes := [], training := none, nextLseq := 0, expectLseq := 0,
      replayBuf := [], tries := 0, credit := 1024, toReturn := 0, queue := [] })
    if old.up then warpEvent i 0 s else s
  else s

/-- ACTION 1: a listener or an active open on a link. -/
def warpConnection (cid : Nat) (c : Cmd) (s : State) : Verdict :=
  match s.job? c.job with
  | none => notPermitted 1
  | some _ =>
    let i := c.inl 1 1
    if s.trust.set.isNone ∨ !(s.link i).up then notPermitted 3
    else
      let reasm := if c.inl 8 2 = 0 then 50 else c.inl 8 2
      let credit := if c.inl 4 4 = 0 then 256 else c.inl 4 4
      if c.inl 2 1 = 0 then
        match Table.free? s.trans.listeners 0 64 with
        | none => .refuse .noResource 0 0
        | some n =>
          let l : Listener := { job := c.job, link := some i, windowMode := false, portMask := 0, reasmMs := reasm, window := 0,
                                creditInit := credit, max := 65536, accepted := 0 }
          ok n { s with trans := { s.trans with listeners := Table.put s.trans.listeners n l } }
      else activeOpen cid (Conn.fresh c.job false 0 reasm 0 credit (some i)) s

/-- ACTION 2: an export route; banks whose EXPORT waits for one are written, and RESEND writes the named bank again. -/
def warpRoute (c : Cmd) (s : State) : Verdict :=
  if (s.job? c.job).isNone then notPermitted 1
  else match s.groupOf c.job c.group, s.conn? (c.inl 8 2) with
    | some g, some k =>
      let isB := c.inl 3 1 == 1
      let again := c.inl 2 1 == 1
      if k.phase ≠ .opened ∨ k.job ≠ c.job then notPermitted 2
      else if again ∧ (g.bank isB).mode ≠ .final ∧ (s.exported? c.group isB).isNone then notPermitted 4
      else
        let r : Route := { conn := c.inl 8 2, rkey := BitVec.ofNat 32 (c.inl 4 4), raddr := c.inl 16 8,
                           trigger := (c.inl 24 1).testBit 7, trigId := c.inl 24 1 % 64 }
        let kept := s.exported? c.group isB
        let due := s.exportDue c.group isB
        let s := { s with warp := { s.warp with routes := Table.put s.warp.routes c.group r } }
        let s := tryExport c.group true (tryExport c.group false s)
        if !again ∨ due then ok 0 s
        else match kept with
          | some l => ok 0 (sendTiles r l s)
          | none => ok 0 (writeExport c.group g isB r s)
    | _, _ => notPermitted 2

/-- The fields of each action. -/
def warpFields (c : Cmd) : List Check :=
  match c.inl 0 1 with
  | 0 => [(c.job == 0xFF, 8), (c.group == 0xFF, 9), (decide (c.inl 1 1 < 8), inlineAt 1), (decide (c.inl 2 1 < 8), inlineAt 2),
          resInline c 3 7, resInline c 12 20]
  | 1 => [(decide (c.job < 16), 8), (c.group == 0xFF, 9), (decide (c.inl 1 1 < 8), inlineAt 1), (decide (c.inl 2 1 < 2), inlineAt 2),
          resInline c 3 1, (decide (c.inl 4 4 ≤ 65536), inlineAt 4), (decide (c.inl 8 2 ≤ 1000), inlineAt 8), resInline c 10 22]
  | 2 => [(decide (c.job < 16), 8), (decide (c.group < 64), 9), resInline c 1 1, (decide (c.inl 2 1 < 2), inlineAt 2),
          (decide (c.inl 3 1 < 2), inlineAt 3), resInline c 10 6, (!(c.inl 24 1).testBit 6, inlineAt 24), resInline c 25 7]
  | _ => [(false, inlineAt 0)]

/-- WARP_CONFIGURE. -/
def opWarpConfigure (cid : Nat) (c : Cmd) (s : State) : Verdict :=
  match c.work with
  | .connecting _ => .stalls
  | _ =>
    checks (warpFields c) <|
      match c.inl 0 1 with
      | 0 => ok 0 (configureLink (c.inl 1 1) (c.inl 2 1) (c.inl 10 2) s)
      | 1 => warpConnection cid c s
      | _ => warpRoute c s

/-- WARP_CONFIGURE. -/
def execWarpConfigure (cid : Nat) (s : State) : Host.Outcome State Fault Refusal := .next (runRow .warpConfigure opWarpConfigure cid s)

/-! ## WARP_RETRAIN (R392) -/

/-- WARP_RETRAIN: the retrain starts, which is its commit point. -/
def opWarpRetrain (cid : Nat) (c : Cmd) (s : State) : Verdict :=
  let i := c.inl 0 1
  checks [(decide (i < 8), inlineAt 0), (decide (c.inl 1 1 < 2), inlineAt 1), resInline c 2 30] <|
    .goes ((fun s => if (s.link i).enable then beginTraining i 4 (c.inl 1 1 == 1) s else s) (commit cid (.retraining i) s))

/-- WARP_RETRAIN. -/
def execWarpRetrain (cid : Nat) (s : State) : Host.Outcome State Fault Refusal := .next (runRow .warpRetrain opWarpRetrain cid s)

/-- WARP_RETRAIN_TIMEOUT: 100 ms after a retrain started its link is still down (R392). -/
def execWarpRetrainTimeout (cid : Nat) (s : State) : Host.Outcome State Fault Refusal :=
  .next (match s.cmd? cid with
    | none => s
    | some c =>
      match c.work with
      | .retraining i => if (s.link i).up then s else complete cid .timeout 0 0 s
      | _ => s)

/-! ## Registers -/

/-- WRP_LINK_CTRL as it reads. -/
def Link.ctrl (l : Link) : Word64 :=
  placeB 0 l.enable ||| placeB 1 l.allowDegrade ||| placeB 2 l.requireSet ||| place 16 l.expectMember

/-- WRP_LINK_STATUS as it reads. -/
def Link.status (l : Link) : Word64 :=
  placeB 0 l.up ||| place 1 l.width ||| place 3 l.lanesGood ||| place 16 l.peerMember ||| place 32 l.peerId

/-- WRP_RETRY as it reads. -/
def Link.retry (l : Link) : Word64 := place 0 l.replays ||| place 32 l.retrains ||| place 48 l.starved

/-- WRP_RETRY_READ clears the counts that it returns. -/
def execWrpRetryRead (link : Nat) (half : Half) (s : State) : Host.Outcome State Fault Refusal :=
  .next (rcRead half (fun s => (s.link link).retry) (fun s => s.updLink link (fun l => { l with replays := 0 }))
    (fun s => s.updLink link (fun l => { l with retrains := 0, starved := 0 })) s)

/-- WRP_LANE_ERR as it reads. -/
def Link.laneErrors (l : Link) (i : Nat) : Word64 := place 0 (unit l.laneErr i).1 ||| place 32 (unit l.laneErr i).2

/-- WRP_LANE_ERR_READ clears the counts that it returns. -/
def execWrpLaneErrRead (link lane : Nat) (half : Half) (s : State) : Host.Outcome State Fault Refusal :=
  .next (rcRead half (fun s => (s.link link).laneErrors lane)
    (fun s => s.updLink link (fun l => { l with laneErr := l.laneErr.modify lane (fun e => (0, e.2)) }))
    (fun s => s.updLink link (fun l => { l with laneErr := l.laneErr.modify lane (fun e => (e.1, 0)) })) s)

end Sys2Proof.Machine
end

