-- ==== Sys2Proof/Machine/Units.lean ====
section
/-! DEFINITION. Units that leave service: retired cores and processors, lost stacks, lost owners of memory, and the device out of
service (R28, R31, R353, R354, R359). -/

namespace Sys2Proof.Machine

open Sys2Proof

/-- Changes the fault unit. -/
def State.updFaults (s : State) (f : Faults → Faults) : State := { s with faults := f s.faults }

/-- Changes the memory unit. -/
def State.updMem (s : State) (f : Memory → Memory) : State := { s with mem := f s.mem }

/-! ## Erasure of unreleased results (R31, R359) -/

/-- Discards a bank and its gate item in whatever state they are; what reads or waits for them ends with ABORTED (R359). -/
def discardBank (g : Nat) (isB : Bool) (s : State) : State :=
  match s.group? g with
  | none => s
  | some k =>
    let s := endDrains [(g, isB)] .aborted (abortCmds (fun _ c => c.readsBank g isB) s)
    let s := dropFlight g (fun q => (k.bank isB).takes q) s
    if (k.bank isB).mode = .zero then s else beginZeroing g isB s

/-- Erases every bank that has not been released, and what the released items still keep (R31). -/
def eraseUnreleased (s : State) : State :=
  let s := s.accum.jobs.foldl (fun s e => abortTakes e.1 s) s
  let s := s.accum.groups.foldl (fun s e => [false, true].foldl (fun s b =>
    let released : Bool := ((Table.get? s.gate.items (itemKey e.1 b)).map (·.released)).getD false
    if released then s else discardBank e.1 b s) s) s
  let s := s.masks.ledgers.foldl (fun s e => freeLedger e.1 s) s
  let strip (it : GateItem) : GateItem := { it with kept := [], elems := [], slot := none }
  { s with
    gate := { s.gate with items := Table.mapAll s.gate.items (fun _ it => strip it), polyItems := [] }
    accum := { s.accum with held := [] }
    warp := { s.warp with exported := [] } }

/-- Opcodes of the heddle (R241 to R246). -/
def Opcode.isPoly : Opcode → Bool
  | .polyParamsLoad | .polyTableBuild | .polyKeyLoad | .polyNtt | .polyAdd | .polyKeyswitch | .polyModred | .polyEncNoise
  | .polyDecShare | .polyToShares => true
  | _ => false

/-- Erases objects, keys, parameter sets and table slots; outstanding POLY commands end with ABORTED (R250). -/
def erasePoly (s : State) : State :=
  let s := abortCmds (fun _ c => c.op.isPoly) s
  let s := s.poly.objects.foldl (fun s e => dealloc (.object e.1) s) s
  s.updPoly (fun p => { p with
    objects := [], sets := []
    heddles := p.heddles.map (fun h => { h with slot0 := TableSlot.reset, slot1 := TableSlot.reset }) })

/-! ## Out of service (R31, R91) -/

/-- Opcodes that an out-of-service device accepts (R91). -/
def Opcode.whileOut : Opcode → Bool
  | .identify | .challenge | .attest | .setBudget | .cntRead | .traceRead | .debugRead | .tenantHandover | .fwStage | .fwActivate => true
  | _ => false

/-- The device goes out of service (R31). -/
def goOutOfService (s : State) : State :=
  if s.faults.outOfService then s
  else
    let s := s.updFaults (fun f => { f with outOfService := true })
    let s := post .outOfService 0 0 nobody nobody
      [BitVec.ofNat 8 s.activeCores.length, BitVec.ofNat 8 s.activeCps.length] s
    let s := abortCmds (fun _ c => !c.op.whileOut && c.phase != .committed) s
    recomputeBase (erasePoly (eraseUnreleased s))

/-- Too few cores or processors take the device out of service. -/
def checkMinimum (s : State) : State :=
  if s.activeCores.length < 24 ∨ s.activeCps.length < 2 then goOutOfService s else s

/-! ## Cores (R28, R403) -/

/-- The unused spare that replaces a core: its own field's, or the nearest field's, the lowest field winning a tie. -/
def State.spareFor (s : State) (c : Nat) : Option Nat :=
  s.spareCores.foldl (fun (m : Option Nat) n => match m with
    | none => some n
    | some p => if crossingsBetween (c / 9) (n / 9) < crossingsBetween (c / 9) (p / 9) then some n else some p) none

/-- The slices that lie on a core: group and slice. -/
def State.slicesOn (s : State) (c : Nat) : List (Nat × Nat) :=
  s.accum.groups.flatMap (fun e => ((List.range e.2.slices.length).filter (fun j => (unit e.2.slices j).core == c)).map (fun j => (e.1, j)))

/-- A heddle leaves service, and what its table slots held is gone (R249). -/
def dropHeddle (h : Nat) (s : State) : State :=
  s.updHeddle h (fun k => { k with inService := false, slot0 := TableSlot.reset, slot1 := TableSlot.reset })

/-- A heddle enters service and builds every version that some heddle in service holds READY (R249). -/
def joinHeddle (h : Nat) (s : State) : State :=
  let held := (s.heddlesIn.flatMap (fun e => [e.2.slot0, e.2.slot1].filterMap (fun k =>
    if k.state == .ready then some (k.set, k.ver) else none))).eraseDups
  s.updHeddle h (fun k => held.foldl (fun k v => k.place v.1 v.2 (namersOf s.cmds v.1 v.2)) { k with inService := true })

/-- Work items of running POLY commands move from a retired core to another heddle; one that lacks the version builds it first, and the items
wait as R223 states (R250). Which heddle takes them, and how many there are, is open: free values (log entry 115). -/
def moveItems (s : State) : State :=
  s.cmds.foldl (fun s e => match e.2.work with
    | .poly _ set ver _ _ =>
      let hs := s.heddlesIn
      if ver = 0 ∨ hs.isEmpty then s
      else
        let (v, s) := s.draw
        let h := (unit hs (v.toNat % hs.length)).1
        if ((unit s.poly.heddles h).serves? set ver).isSome then s
        else
          let (n, s) := s.draw
          countWaits (n.toNat % 65536) (s.updHeddle h (fun k => (k.place set ver (namersOf s.cmds set ver)).raise set ver))
    | _ => s) s

/-- A core is retired (R28, R403): a spare takes its place where one is unused, and its slices move. -/
def retireCore (c : Nat) (s : State) : State :=
  let role := (s.core c).role
  if role = .retired ∨ role = .off then s
  else
    let spare := if role = .active then s.spareFor c else none
    let s := s.updCore c (fun k => { k with role := .retired })
    let s := dropHeddle (2 * c + 1) (dropHeddle (2 * c) s)
    let s := match spare with
      | none => s
      | some n => joinHeddle (2 * n + 1) (joinHeddle (2 * n) (s.updCore n (fun k => { k with role := .active })))
    let s := if role = .active then moveItems s else s
    let s := postDegraded 0x01 c 0 c s.activeCores.length s.spareCores.length s
    let s := (s.slicesOn c).foldl (fun s e =>
      match spare with
      | some n => startMove e.1 e.2 n 0 s
      | none =>
        let cores := s.activeCores
        if cores.isEmpty then s
        else
          let (v, s) := s.draw
          startMove e.1 e.2 (unit cores (v.toNat % cores.length)) 0 s) s
    checkMinimum (recomputeBase s)

/-- A reed lane is lost: a spare takes its place, or the core is retired (R28). -/
def loseLane (c lane : Nat) (s : State) : State :=
  let k := s.core c
  if k.spareLanes = 0 then retireCore c s
  else
    let s := s.updCore c (fun k => { k with spareLanes := k.spareLanes - 1 })
    postDegraded 0x01 c 1 lane 16 (k.spareLanes - 1) s

/-- A heddle column is lost: a spare takes its place, or the core is retired (R28). -/
def loseColumn (h col : Nat) (s : State) : State :=
  let k := unit s.poly.heddles h
  if k.spareCols = 0 then retireCore (h / 2) s
  else
    let s := s.updHeddle h (fun k => { k with spareCols := k.spareCols - 1 })
    let other := unit s.poly.heddles (if h % 2 = 0 then h + 1 else h - 1)
    postDegraded 0x01 (h / 2) 2 (32 * (h % 2) + col) 64 (k.spareCols - 1 + other.spareCols) s

/-! ## Command processors (R28, R404) -/

/-- Changes a processor. -/
def State.updCp (s : State) (i : Nat) (f : Cp → Cp) : State := s.updFaults (fun x => { x with cps := x.cps.modify i f })

/-- A processor is retired. -/
def retireCp (i : Nat) (s : State) : State :=
  let s := s.updCp i (fun k => { k with role := .retired, recovering := false })
  let spares := (List.range 5).filter (fun n => (unit s.faults.cps n).role == .spare)
  checkMinimum (postDegraded 0x05 i 3 i s.activeCps.length spares.length s)

/-! ## Memory that is lost (R353, R354, R359) -/

/-- The owner of a lost piece of protected memory loses what it held: the OWNER of R359 and the take that is aborted. -/
def ownerCode : Owner → Nat
  | .bank _ _ | .ledger _ | .maskSum _ _ | .gateBank _ _ => 4
  | .object _ | .gateObject _ => 6
  | .scratch _ _ => 7
  | .session _ => 8
  | .vault _ => 9

/-- The take that the loss of an owner aborts. -/
def State.takeOfOwner (s : State) : Owner → Nat
  | .bank g b => ((s.group? g).map (fun k => (k.bank b).take)).getD 0
  | .gateBank g b => ((s.group? g).map (fun k => (k.bank b).take)).getD 0
  | .ledger l | .maskSum l _ => ((Table.get? s.masks.ledgers l).map (·.take)).getD 0
  | _ => 0

/-- What R359 does to an owner. -/
def loseOwner (o : Owner) (s : State) : State :=
  match o with
  | .bank g b | .gateBank g b =>
    match s.group? g with
    | none => s
    | some k => discardBank g b (abortTakesIf k.job (fun t => t == (k.bank b).take && ((k.bank b).mode == .filling
        || (k.bank b).mode == .draining || (k.bank b).mode == .final)) s)
  | .ledger l | .maskSum l _ =>
    match Table.get? s.masks.ledgers l with
    | none => s
    | some k =>
      let j := l / 2
      let s := abortTakesIf j (fun t => t == k.take) s
      let s := abortCmds (fun _ c => c.job == j && (match c.work with | .unmasking _ t => t == k.take | _ => false)) s
      let s := (s.jobGroups j).foldl (fun s e => [false, true].foldl (fun s b =>
        if (e.2.bank b).mode == .final && (e.2.bank b).take == k.take && !k.removed.contains (e.1, b) then discardBank e.1 b s else s) s) s
      freeLedger l s
  | .object i =>
    let s := match Table.get? s.poly.objects i with
      | none => s
      | some x => abortCmds (fun n _ => x.users.contains n) s
    freeObject i s
  | .gateObject i =>
    let s := abortCmds (fun _ c => (match c.work with | .seeds _ _ => c.polyItem && objId c.job (c.inl 24 2) == i | _ => false)) s
    { s with gate := { s.gate with polyItems := Table.del s.gate.polyItems i } }
  | .session i => { s with ingest := { s.ingest with sessions := Table.del s.ingest.sessions i } }
  | .vault i => eraseSlot i s
  | .scratch _ _ => s

/-- A region has a byte in a stack. -/
def Region.inStack (r : Region) (b : Nat) : Bool :=
  r.space != .host && meets r.base r.len (b * 0x1000000000) 0x1000000000

/-- A stack goes out of service (R354): its regions are revoked and its protected allocations are lost. -/
def stackOut (b : Nat) (s : State) : State :=
  if !(s.stack b).inService then s
  else
    let s := s.updStack b (fun k => { k with inService := false, map := [], move := none, waiting := [] })
    let s := postDegraded 0x04 b 13 b s.liveStacks.length 0 s
    let s := { s with trans := { s.trans with regions := Table.mapAll s.trans.regions (fun _ r =>
      if r.inStack b then { r with revoking := true } else r) } }
    let lost := s.mem.allocs.filter (fun a => a.stack == b)
    let s := lost.foldl (fun s a => loseOwner a.owner s) s
    let s := s.updMem (fun m => { m with
      allocs := m.allocs.filter (fun a => a.stack != b)
      cells := m.cells.filter (fun c => (stackOf c.1).1 != b)
      poison := m.poison.filter (fun l => (stackOf (l * 64)).1 != b) })
    creditMoved (recomputeBase s)

end Sys2Proof.Machine
end

