-- ==== Sys2Proof/Machine/Memory.lean ====
section
/-! DEFINITION. Bobbin memory and SRAM: the error-correcting codes, patrol scrub, channel sparing and reshaping, and the staging window
(R347 to R363). -/

namespace Sys2Proof.Machine

open Sys2Proof

/-! ## The field GF(2^8) and the two codes (R356) -/

/-- One doubling step in GF(2^8) with the polynomial 0x11D. -/
def gfDouble (a : Nat) : Nat := if a < 128 then 2 * a else (2 * a) ^^^ 0x11D

/-- A product in GF(2^8): the bits of `b`, lowest first. -/
def gfMulBits : Nat → Nat → Nat → Nat
  | 0, _, _ => 0
  | n + 1, a, b => (if b % 2 = 1 then a else 0) ^^^ gfMulBits n (gfDouble a) (b / 2)

/-- A product in GF(2^8). -/
def gfMul (a b : Nat) : Nat := gfMulBits 8 a b

/-- A power in GF(2^8). -/
def gfPow (a : Nat) : Nat → Nat
  | 0 => 1
  | n + 1 => gfMul a (gfPow a n)

/-- The fourth power in GF(2^8). -/
def gfFourth (a : Nat) : Nat :=
  let b := gfMul a a
  gfMul b b

/-- The inverse of a non-zero element: a^254, through a^3, a^15, a^63 and a^252. -/
def gfInv (a : Nat) : Nat :=
  let a2 := gfMul a a
  let a3 := gfMul a2 a
  let a15 := gfMul (gfFourth a3) a3
  let a63 := gfMul (gfFourth a15) a3
  gfMul (gfFourth a63) a2

/-- The value of a polynomial, coefficients from x^0 up. -/
def gfEval (p : List Nat) (x : Nat) : Nat := p.foldr (fun c acc => c ^^^ gfMul acc x) 0

/-- A code: positions in a codeword, check symbols. -/
structure Code where
  symbols : Nat
  check : Nat
  deriving DecidableEq, Repr, Inhabited

/-- RS(72,64), of a bobbin line. -/
def lineCode : Code := { symbols := 72, check := 8 }

/-- RS(36,32), of an SRAM row's codewords. -/
def rowCode : Code := { symbols := 36, check := 4 }

/-- α^n for the power that a position stands for: symbol i is the coefficient of x^(n − 1 − i). -/
def Code.locator (k : Code) (i : Nat) : Nat := gfPow 2 (k.symbols - 1 - i)

/-- The errors of a codeword: differences that are not zero, at positions it has. -/
def Code.real (k : Code) (errs : List (Nat × Byte)) : List (Nat × Nat) :=
  (List.range k.symbols).filterMap (fun i =>
    let v := ((errs.filter (fun e => e.1 == i)).foldl (fun (a : Byte) e => a ^^^ e.2) 0).toNat
    if v = 0 then none else some (i, v))

/-- S_0 upwards: the received word at α^k. The codes are linear, so the errors alone give them (R356 note 3). -/
def Code.syndromes (k : Code) (errs : List (Nat × Nat)) : List Nat :=
  (List.range k.check).map (fun j => errs.foldl (fun a e => a ^^^ gfMul e.2 (gfPow (k.locator e.1) j)) 0)

/-- One polynomial plus a multiple of another shifted up by `m`. -/
def gfAddShift (c b : List Nat) (f m : Nat) : List Nat :=
  (List.range (max c.length (b.length + m))).map (fun i => c.getD i 0 ^^^ gfMul f (if i < m then 0 else b.getD (i - m) 0))

/-- The shortest error locator of the syndromes: it, and its length. -/
def locatorLoop (syn : List Nat) : Nat → Nat → List Nat → List Nat → Nat → Nat → Nat → List Nat × Nat
  | 0, _, c, _, l, _, _ => (c, l)
  | fuel + 1, n, c, b, l, m, d0 =>
    let d := (List.range (l + 1)).foldl (fun a i => a ^^^ gfMul (c.getD i 0) (if i ≤ n then syn.getD (n - i) 0 else 0)) 0
    if d = 0 then locatorLoop syn fuel (n + 1) c b l (m + 1) d0
    else
      let c' := gfAddShift c b (gfMul d (gfInv d0)) m
      if 2 * l ≤ n then locatorLoop syn fuel (n + 1) c' c (n + 1 - l) 1 d
      else locatorLoop syn fuel (n + 1) c' b l (m + 1) d0

/-- What the decoder finds: no error, corrections by position, or an uncorrectable codeword (R356 note 2). -/
inductive Decoded where
  | clean
  | corrected (fix : List (Nat × Nat))
  | uncorrectable
  deriving DecidableEq, Repr, Inhabited

/-- Decodes a codeword with these errors: an error locator of degree within the limit whose roots all lie in the codeword. -/
def Code.decode (k : Code) (errs : List (Nat × Nat)) : Decoded :=
  let syn := k.syndromes errs
  if syn.all (· == 0) then .clean
  else
    let (c, l) := locatorLoop syn k.check 0 [1] [1] 0 1 1
    let found := (List.range k.symbols).filter (fun i => gfEval c (gfInv (k.locator i)) == 0)
    if k.check < 2 * l ∨ found.length ≠ l then .uncorrectable
    else
      let omega := (List.range k.check).map (fun n =>
        (List.range (n + 1)).foldl (fun a i => a ^^^ gfMul (c.getD i 0) (syn.getD (n - i) 0)) 0)
      let slope := (List.range c.length).map (fun i => if i % 2 = 0 then c.getD (i + 1) 0 else 0)
      .corrected (found.map (fun i =>
        let x := k.locator i
        let y := gfInv x
        (i, gfMul x (gfMul (gfEval omega y) (gfInv (gfEval slope y))))))

/-- The data bytes that stay wrong after the decoder's corrections. -/
def residue (errs fix : List (Nat × Nat)) : List Nat :=
  (List.range 64).filter (fun i =>
    let at_ (l : List (Nat × Nat)) : Nat := ((l.find? (fun e => e.1 == i)).map (·.2)).getD 0
    at_ errs != at_ fix)

/-! ## Channels (R349, R353) -/

/-- The physical channel of a unit in a map. -/
def channelIn (map : List Nat) (u : Nat) : Nat := map.getD (u % map.length) 0xFF

/-- The physical channel of a line of a stack (R349): while a reshape runs, a unit at or above the progress pointer uses the new map. -/
def Stack.channelOf (k : Stack) (off : Nat) : Nat :=
  match k.move with
  | some (.reshape slot pointer) => if pointer ≤ off / 256 then channelIn (k.map.eraseIdx slot) (off / 256) else channelIn k.map (off / 256)
  | _ => channelIn k.map (off / 256)

/-- Moves the protected allocations at or above the new top into free protected memory; one that fits nowhere is lost (R353). -/
def clearTop (b : Nat) (s : State) : State :=
  let top := (s.stack b).channels * 0x60000000
  let above := s.mem.allocs.filter (fun a => a.stack == b && decide (top < a.off + a.len))
  let s := s.updMem (fun m => { m with allocs := m.allocs.filter (fun a => !above.contains a) })
  above.foldl (fun s a => match alloc a.owner a.len s with
    | some s => s
    | none => loseOwner a.owner s) s

/-- A channel is retired (R353): a spare takes its slot, or the stack reshapes, or it goes out of service (R354). -/
def retireChannel (b ch : Nat) (s : State) : State :=
  let k := s.stack b
  match k.map.findIdx? (· == ch) with
  | none =>
    s.updStack b (fun k => if k.spares.contains ch then
      { k with spares := k.spares.filter (· != ch), retired := k.retired ||| (1#34 <<< ch) } else k)
  | some slot =>
    if !k.inService ∨ k.retired.getLsbD ch then s
    else if k.move.isSome then s.updStack b (fun k => if k.waiting.contains ch then k else { k with waiting := k.waiting ++ [ch] })
    else
      let s := s.updStack b (fun k => { k with retired := k.retired ||| (1#34 <<< ch), recent := k.recent.filter (fun e => e.2 != ch) })
      match k.spares with
      | sp :: rest =>
        let s := s.updStack b (fun k => { k with spares := rest, move := some (.copy slot sp 0) })
        let s := postDegraded 0x04 b 4 ch k.map.length rest.length s
        creditMoved (recomputeBase s)
      | [] =>
        if k.map.length ≤ 16 then stackOut b s
        else
          let s := s.updStack b (fun k => { k with move := some (.reshape slot (k.map.length * 0x600000)) })
          let s := postDegraded 0x04 b 4 ch (k.map.length - 1) 0 s
          creditMoved (recomputeBase (clearTop b s))

/-- The retirements that waited for a move to end. -/
def nextRetirement (b : Nat) (s : State) : State :=
  match (s.stack b).waiting with
  | [] => s
  | ch :: rest => retireChannel b ch (s.updStack b (fun k => { k with waiting := rest }))

/-- Lines that scrub has rewritten are forgotten for a channel that leaves service. -/
def forgetLines (b ch : Nat) (s : State) : State :=
  s.updStack b (fun k =>
    let gone (l : Nat) : Bool := k.channelOf (stackOf (l * 64)).2 == ch
    { k with scrubbed := k.scrubbed.filter (fun l => !gone l), repeated := k.repeated.filter (fun l => !gone l) })

/-- SPARE_COPY_DONE: SLOT_MAP names the spare (R353). -/
def execSpareCopyDone (stack : Nat) (s : State) : Host.Outcome State Fault Refusal :=
  .next (match (s.stack stack).move with
    | some (.copy slot target _) =>
      let s := forgetLines stack (unit (s.stack stack).map slot) s
      let s := s.updStack stack (fun k => { k with map := k.map.set slot target, move := none })
      creditMoved (recomputeBase (nextRetirement stack s))
    | _ => s)

/-- RESHAPE_DONE: the re-lay onto c − 1 channels ends, and the map loses the retired slot (R353). -/
def execReshapeDone (stack : Nat) (s : State) : Host.Outcome State Fault Refusal :=
  .next (match (s.stack stack).move with
    | some (.reshape slot _) =>
      let s := forgetLines stack (unit (s.stack stack).map slot) s
      let s := s.updStack stack (fun k => { k with map := k.map.eraseIdx slot, move := none })
      creditMoved (recomputeBase (nextRetirement stack s))
    | _ => s)

/-! ## Errors (R357, R359, R361) -/

/-- Posts ECC_CORRECTED or ECC_UNCORRECTABLE. -/
def postEcc (bad : Bool) (cls inst memory unitNo symbols : Nat) (prot : Bool) (owner addr : Nat) (syn : List Nat) (take : Nat)
    (s : State) : State :=
  post (if bad then .eccUncorrectable else .eccCorrected) cls inst nobody nobody
    ([BitVec.ofNat 8 memory, BitVec.ofNat 8 unitNo, BitVec.ofNat 8 symbols, if prot then 1 else 0, BitVec.ofNat 8 owner, 0, 0, 0]
      ++ toLE 8 addr ++ fitBytes 8 (syn.map (BitVec.ofNat 8)) ++ toLE 4 take) s

/-- Free bytes, and the state that has drawn them. -/
def drawBytes : Nat → State → Bytes × State
  | 0, s => ([], s)
  | n + 1, s =>
    let (v, s) := s.draw
    let (b, s) := drawBytes n s
    (v.setWidth 8 :: b, s)

/-- A wrong byte of an encrypted line changes the 16-byte block that holds it into unrelated bytes (R347). -/
def scrambleBlocks (addr : Nat) (wrong : List Nat) (s : State) : State :=
  ((wrong.map (· / 16)).eraseDups).foldl (fun s b =>
    let (bs, s) := drawBytes 16 s
    s.updMem (fun m => memWriteBytes m (addr + 16 * b) bs)) s

/-- The address that the registers and events give of a line: rounded down to 1 MiB in protected memory (R357). -/
def reportedAddr (addr : Nat) : Nat := if protectedAddr addr then addr / 0x100000 * 0x100000 else addr

/-- The syndrome they give. -/
def reportedSyndrome (addr : Nat) (syn : List Nat) : List Nat := if protectedAddr addr then List.replicate 8 0 else syn

/-- Counts a corrected line: the registers, the event, and what retires its channel (R353, R357). -/
def lineCorrected (addr symbols : Nat) (syn : List Nat) (s : State) : State :=
  let (b, off) := stackOf addr
  let k := s.stack b
  let ch := k.channelOf off
  let line := lineOf addr
  let again := k.scrubbed.contains line
  let s := s.updStack b (fun k => { k with
    corrected := satAdd k.corrected 1,
    lastAddr := BitVec.ofNat 48 (reportedAddr addr), lastChannel := BitVec.ofNat 6 ch, lastSymbols := BitVec.ofNat 3 symbols,
    lastSyndrome := BitVec.ofNat 64 (leNat ((reportedSyndrome addr syn).map (BitVec.ofNat 8))),
    recent := (s.time.ptime.toNat, ch) :: k.recent.filter (fun e => s.within10s e.1),
    scrubbed := if again then k.scrubbed else k.scrubbed ++ [line],
    repeated := if again && !k.repeated.contains line then k.repeated ++ [line] else k.repeated })
  let s := postEcc false 0x04 b 0 ch symbols (protectedAddr addr) 0 (reportedAddr addr) (reportedSyndrome addr syn) 0 s
  let k := s.stack b
  if (k.recent.filter (fun e => e.2 == ch)).length > 4096
    ∨ (k.repeated.filter (fun l => k.channelOf (stackOf (l * 64)).2 == ch)).length ≥ 16 then retireChannel b ch s else s

/-- What the unprotected line at an address holds (R359): 1 envelope bytes, 2 a partial tile, 3 another region, 0 none. -/
def State.lineOwner (s : State) (addr : Nat) : Nat :=
  let here := s.trans.regions.filter (fun e => e.2.space != .host && meets e.2.base e.2.len addr 64)
  if here.any (fun e => e.2.space == .ingest) then 1
  else if here.any (fun e => e.2.space == .combine) then 2
  else if here.isEmpty then 0 else 3

/-- The allocation that holds a protected line. -/
def State.allocAt (s : State) (addr : Nat) : Option Alloc :=
  let (b, off) := stackOf addr
  s.mem.allocs.find? (fun a => a.stack == b && meets a.off a.len off 64)

/-- An uncorrectable line (R359): it is marked as poisoned, and its owner loses what it held. -/
def lineLost (addr : Nat) (syn : List Nat) (s : State) : State :=
  let (b, off) := stackOf addr
  let ch := (s.stack b).channelOf off
  let s := s.updStack b (fun k => { k with uncorrectable := satAdd k.uncorrectable 1 })
  let s := s.updMem (fun m => { m with poison := m.poison ++ [lineOf addr] })
  let owner : Option Owner := (s.allocAt addr).map (·.owner)
  let (code, take) := match protectedAddr addr, owner with
    | true, some o => (ownerCode o, s.takeOfOwner o)
    | true, none => (7, 0)
    | false, _ => (s.lineOwner addr, 0)
  let s := postEcc true 0x04 b 0 ch 0 (protectedAddr addr) code (reportedAddr addr) (reportedSyndrome addr syn)
    (if code = 4 then take else 0) s
  match protectedAddr addr, owner with
  | true, some o => loseOwner o s
  | _, _ => s

/-- Patrol scrub reads a line (R358). -/
def scrubLine (l : LineErrors) (s : State) : State :=
  let addr := l.addr / 64 * 64
  let errs := lineCode.real l.errors
  if !s.presentMem addr 64 ∨ s.mem.poison.contains (lineOf addr) then s
  else
    let damage (wrong : List Nat) (s : State) : State := if protectedAddr addr then s else scrambleBlocks addr wrong s
    match lineCode.decode errs with
    | .clean => damage (residue errs []) s
    | .corrected fix => lineCorrected addr fix.length (lineCode.syndromes errs) (damage (residue errs fix) s)
    | .uncorrectable => lineLost addr (lineCode.syndromes errs) s

/-- The group and tile that a segment of a message carries. -/
def State.tileOfSegment (s : State) (k : Message) (seg : Nat) : Option (Nat × Nat) :=
  ((s.job? k.job).bind (·.graph)).bind (fun g => s.segTile g seg)

/-- An uncommitted segment is opened again from its region bytes, and its q_t is formed anew (R163, R177). -/
def reopenSegment (m seg : Nat) (s : State) : State :=
  s.updMsg m (fun k => { k with
    verified := k.verified.filter (· != seg)
    stage := if k.stage = .verified then .opening else k.stage
    clipQ := k.clipQ.filter (fun q => s.tileOfSegment k seg != some (q.1, q.2.1))
    tiles := k.tiles.map (fun t => if t.segment = seg then { t with data := [], slot := some .reserved } else t) })

/-- An uncorrectable SRAM codeword (R359): the OWNER, the take, and the state without what it held. -/
def sramOwner (u : SramUse) (s : State) : Nat × Nat × State :=
  match u with
  | .splice m seg =>
    match s.msg? m with
    | none => (7, 0, s)
    | some k => if k.stage = .committed then (4, k.take, abortTakesIf k.job (fun t => t == k.take) s) else (5, 0, reopenSegment m seg s)
  | .bank g b => (4, s.takeOfOwner (.bank g b), loseOwner (.bank g b) s)
  | .ledger l => (4, s.takeOfOwner (.ledger l), loseOwner (.ledger l) s)
  | .table h one =>
    (10, 0, s.updHeddle h (fun x => x.upd one (fun k => match k.state, k.next with
      | .empty, _ => k
      | .retiring, some (set, ver) => k.begin set ver (namersOf s.cmds set ver)
      | _, _ => k.rebuild)))
  | .scratch => (7, 0, s)

/-- What a codeword of an SRAM bank holds (R355): banks 0 to 15 are the splice, 16 to 39 the bank store, and 40 to 47 the table slots of the
core's two heddles, two banks each. A codeword said to hold anything else holds nothing that is lost. -/
def rowUse (r : RowErrors) : SramUse :=
  if 40 ≤ r.bank then .table (2 * r.core + (r.bank - 40) / 4) (decide (2 ≤ (r.bank - 40) % 4))
  else match r.holds with
    | .splice m seg => if r.bank < 16 then .splice m seg else .scratch
    | .bank g b => if r.bank < 16 then .scratch else .bank g b
    | .ledger l => if r.bank < 16 then .scratch else .ledger l
    | _ => .scratch

/-- Patrol scrub reads an SRAM codeword (R357 to R359). -/
def scrubRow (r : RowErrors) (s : State) : State :=
  if 36 ≤ r.core ∨ 48 ≤ r.bank ∨ (s.core r.core).role = .off then s
  else
    match rowCode.decode (rowCode.real r.errors) with
    | .clean => s
    | .corrected fix =>
      let row := (r.core, r.bank, r.row)
      let again := s.mem.rowsScrubbed.contains row
      let s := s.updMem (fun m => { m with
        sramCorrected := satAdd m.sramCorrected 1, sramLastCore := BitVec.ofNat 6 r.core, sramLastBank := BitVec.ofNat 6 r.bank,
        rowsScrubbed := (if again then m.rowsScrubbed else m.rowsScrubbed ++ [row]),
        rowsRepeated := (if again && !m.rowsRepeated.contains row then m.rowsRepeated ++ [row] else m.rowsRepeated) })
      let s := postEcc false 0x01 r.core 1 r.bank fix.length true 0 0 [] 0 s
      if (s.mem.rowsRepeated.filter (fun x => x.1 == r.core && x.2.1 == r.bank)).length ≥ 8 then retireCore r.core s else s
    | .uncorrectable =>
      let s := s.updMem (fun m => { m with sramUncorrectable := satAdd m.sramUncorrectable 1 })
      let (code, take, _) := sramOwner (rowUse r) s
      (sramOwner (rowUse r) (postEcc true 0x01 r.core 1 r.bank 0 true code 0 [] (if code = 4 then take else 0) s)).2.2

/-- SCRUB_PASS: patrol scrub has read every line and row once (R358). The period set since the pass began governs the next one. -/
def execScrubPass (findings : ScrubFindings) (s : State) : Host.Outcome State Fault Refusal :=
  .next (
    let s := findings.lines.foldl (fun s l => scrubLine l s) s
    let s := findings.rows.foldl (fun s r => scrubRow r s) s
    let s := findings.late.foldl (fun s b => s.updStack b (fun k => { k with latePasses := satAdd k.latePasses 1 })) s
    s.updMem (fun m => { m with bobbinHours := m.nextBobbinHours, sramSeconds := m.nextSramSeconds }))

/-- MEMORY_REFRESH: every channel is refreshed, at the interval that its stack's sensor calls for; contents do not change (R350). -/
def execMemoryRefresh (s : State) : Host.Outcome State Fault Refusal :=
  .next ((List.range 8).foldl (fun s b =>
    s.updStack b (fun k => { k with hotRefresh := k.inService && decide (unit s.power.bobbinTemps b > 340) })) s)

/-- SCRUB_CONFIGURE (R358). -/
def opScrubConfigure (_ : Nat) (c : Cmd) (s : State) : Verdict :=
  let target := c.inl 0 1
  let p := c.inl 4 4
  checks [(decide (target ≤ 1), inlineAt 0), resInline c 1 3, (decide (1 ≤ p ∧ p ≤ (if target = 0 then 168 else 1000)), inlineAt 4),
      resInline c 8 24] <|
    ok 0 (s.updMem (fun m =>
      if target = 0 then { m with nextBobbinHours := BitVec.ofNat 16 p } else { m with nextSramSeconds := BitVec.ofNat 16 p }))

/-- SCRUB_CONFIGURE. -/
def execScrubConfigure (cid : Nat) (s : State) : Host.Outcome State Fault Refusal := .next (runRow .scrubConfigure opScrubConfigure cid s)

/-! ## The staging window (R360) -/

/-- Bytes of a staging entry. -/
def stagingBytes : Nat := 0x8000000

/-- STAGING_MAP (R360). -/
def opStagingMap (_ : Nat) (c : Cmd) (s : State) : Verdict :=
  let a := c.inl 8 8
  checks [(decide (c.inl 0 1 < 8), inlineAt 0), (decide (c.inl 1 1 ≤ 1), inlineAt 1), resInline c 2 6,
      (decide (a % stagingBytes = 0) && s.unprotected a stagingBytes, inlineAt 8), resInline c 16 16] <|
    let entry : Option Nat := if c.inl 1 1 = 1 then some (a / stagingBytes) else none
    ok 0 (s.updMem (fun m => { m with staging := m.staging.set (c.inl 0 1) entry }))

/-- STAGING_MAP. -/
def execStagingMap (cid : Nat) (s : State) : Host.Outcome State Fault Refusal := .next (runRow .stagingMap opStagingMap cid s)

/-- A BAR4 read: zeros from an unmapped entry, poisoned zeros from a poisoned line, and free bytes where the stack has left
service. -/
def stagingLoad (off n : Nat) (s : State) : State :=
  match (s.mem.staging.getD (off / stagingBytes) none) with
  | none => emit (.stagingData (zeros n) false) (s.updMem (fun m => { m with stagingMiss := satAdd m.stagingMiss 1 }))
  | some e =>
    let a := e * stagingBytes + off % stagingBytes
    if !s.unprotected a n then
      let (b, s) := drawBytes n s
      emit (.stagingData b false) s
    else if poisoned s.mem a n then emit (.stagingData (zeros n) true) s
    else emit (.stagingData (memReads s.mem a n) false) s

/-- A BAR4 write: discarded at an unmapped entry, or when it arrives poisoned (R376). -/
def stagingStore (off : Nat) (data : Bytes) (bad : Bool) (s : State) : State :=
  if bad then s
  else match (s.mem.staging.getD (off / stagingBytes) none) with
    | none => s.updMem (fun m => { m with stagingMiss := satAdd m.stagingMiss 1 })
    | some e =>
      let a := e * stagingBytes + off % stagingBytes
      if s.unprotected a data.length then s.store a data else s

/-- STAGING_ACCESS (R360). -/
def execStagingAccess (offset : Nat) (access : StagingAccess) (s : State) : Host.Outcome State Fault Refusal :=
  .next (atBar (match access with
    | .load n => stagingLoad offset n
    | .store data bad => stagingStore offset data bad) s)

/-! ## Registers -/

/-- MEM_STACK_STATUS as it reads. -/
def Stack.status (k : Stack) : Word64 :=
  placeB 0 k.inService ||| placeN 1 6 (if k.inService then k.channels else 0) ||| placeN 7 2 k.spares.length
  ||| placeB 9 (match k.move with | some (.copy _ _ _) => true | _ => false)
  ||| placeB 10 (match k.move with | some (.reshape _ _) => true | _ => false)
  ||| placeB 11 k.hotRefresh ||| placeN 32 16 (if k.inService then k.channels * 1536 else 0)

/-- MEM_SLOT_MAP i as it reads. -/
def Stack.slotMap (k : Stack) (i : Nat) : Word64 :=
  (List.range 8).foldl (fun v j => v ||| placeN (8 * j) 8 (k.map.getD (8 * i + j) 0xFF)) 0

/-- MEM_MOVE as it reads. -/
def Stack.moveReg (k : Stack) : Word64 :=
  match k.move with
  | some (.copy _ t rows) => placeN 0 32 rows ||| placeN 32 6 t
  | some (.reshape _ p) => placeN 0 32 p ||| placeN 32 6 0x3F
  | none => placeN 32 6 0x3F

/-- MEM_ECC_COUNT as it reads. -/
def State.eccCount (s : State) (b : Nat) : Word64 :=
  let k := s.stack b
  place 0 (s.coarse k.corrected) ||| place 32 (s.coarse k.uncorrectable) ||| place 48 (s.coarse k.latePasses)

/-- MEM_ECC_COUNT_READ clears the halves it returns. -/
def execMemEccCountRead (stack : Nat) (half : Half) (s : State) : Host.Outcome State Fault Refusal :=
  .next (rcRead half (fun s => s.eccCount stack) (fun s => s.updStack stack (fun k => { k with corrected := 0 }))
    (fun s => s.updStack stack (fun k => { k with uncorrectable := 0, latePasses := 0 })) s)

/-- MEM_ECC_LAST as it reads, its first word. -/
def Stack.eccLast (k : Stack) : Word64 := place 0 k.lastAddr ||| place 48 k.lastChannel ||| place 54 k.lastSymbols

/-- MEM_SRAM_ECC as it reads. -/
def State.sramEcc (s : State) : Word64 :=
  place 0 (s.coarse s.mem.sramCorrected) ||| place 32 (s.coarse s.mem.sramUncorrectable) ||| place 48 s.mem.sramLastCore
  ||| place 54 s.mem.sramLastBank

/-- MEM_SRAM_ECC_READ clears the halves it returns. -/
def execMemSramEccRead (half : Half) (s : State) : Host.Outcome State Fault Refusal :=
  .next (rcRead half State.sramEcc (fun s => s.updMem (fun m => { m with sramCorrected := 0 }))
    (fun s => s.updMem (fun m => { m with sramUncorrectable := 0 })) s)

/-- MEM_SCRUB as it reads. -/
def State.memScrub (s : State) : Word64 := place 0 s.mem.bobbinHours ||| place 16 s.mem.sramSeconds

/-- MEM_STAGING k as it reads. -/
def State.memStaging (s : State) (k : Nat) : Word64 :=
  match s.mem.staging.getD k none with
  | none => 0
  | some e => 1 ||| placeN 27 21 e

/-- MEM_STAGING_MISS_READ clears MISS. -/
def execMemStagingMissRead (half : Half) (s : State) : Host.Outcome State Fault Refusal :=
  .next (rcRead half (fun s => place 0 (s.coarse s.mem.stagingMiss)) (fun s => s.updMem (fun m => { m with stagingMiss := 0 })) id s)

end Sys2Proof.Machine
end

