-- ==== Sys2Proof/Machine/Faults.lean ====
section
/-! DEFINITION. Faults: detection, the levels of recovery, escalation, retirement, command processors and warm restarts (R398 to
R411). -/

namespace Sys2Proof.Machine

open Sys2Proof

/-! ## Units (R14, R399, R410) -/

/-- Units of each kind of R410. -/
def unitRange : Nat → Nat
  | 0 | 3 | 4 | 5 => 36 | 1 | 2 => 72 | 6 | 7 | 10 => 8 | 8 => 32 | 9 => 3 | 11 => 256 | 12 => 18 | 13 => 5 | 14 => 1 | 15 => 4
  | _ => 0

/-- The core that holds a unit. -/
def coreOfUnit (kind unitNo : Nat) : Option Nat :=
  match kind with
  | 0 | 3 | 4 | 5 => some unitNo
  | 1 | 2 => some (unitNo / 2)
  | _ => none

/-- The field that contains a unit (R14, R399). -/
def fieldOfUnit (kind unitNo : Nat) : Nat :=
  match kind with
  | 0 | 3 | 4 | 5 => unitNo / 9
  | 1 | 2 => unitNo / 18
  | 6 | 7 | 10 => unitNo / 2
  | 8 => 1
  | 11 => (match unitNo / 64 with | 1 => 2 | 3 => 1 | _ => 0)
  | 12 => if unitNo = 17 then 3 else 0
  | 13 => unitNo % 4
  | 14 => 2
  | 15 => unitNo
  | _ => 0

/-- The source class and instance of a unit's faults (R103, R410). -/
def sourceOfUnit (kind unitNo : Nat) : Nat × Nat :=
  match kind with
  | 0 | 3 | 4 | 5 => (0x01, unitNo)
  | 1 | 2 => (0x01, unitNo / 2)
  | 6 => (0x02, unitNo)
  | 7 => (0x03, unitNo)
  | 8 => (0x09, 0)
  | 9 => (0x0A, 0)
  | 10 => (0x04, unitNo)
  | 11 => (0x0B, unitNo / 64)
  | 12 => if unitNo = 16 then (0x06, 0) else if unitNo = 17 then (0x08, 4) else (0, 0)
  | 13 => (0x05, unitNo)
  | 14 => (0x0F, 0)
  | _ => (0, 0)

/-- The site of a whole unit. -/
def wholeUnit (kind unitNo : Nat) : FaultSite := { kind := kind, unit := unitNo, part := none, upper := false }

/-- The number of a site's counter in SPL_ENGINE_FAULTS. -/
def engineIndex (kind unitNo : Nat) : Nat :=
  match kind with
  | 0 => 0 | 1 => 1 + unitNo % 2 | 2 => 3 + unitNo % 2 | 3 => 5 | 4 => 6 | _ => 7

/-- Counts a fault in SPL_ENGINE_FAULTS of a core. -/
def countEngine (c i : Nat) (s : State) : State :=
  s.updCore c (fun k => { k with engineFaults := k.engineFaults.modify i (fun n => satAdd n 1) })

/-! ## Counting (R402) -/

/-- Faults counted against a unit in the last 10 s; injected ones too, or not. -/
def State.faultsOf (s : State) (site : FaultSite) (injected : Bool) : Nat :=
  (s.faults.marks.filter (fun m => m.site == site && s.within10s m.time && (injected || !m.injected))).length

/-- Counts one fault against a unit. -/
def markFault (site : FaultSite) (injected : Bool) (s : State) : State :=
  s.updFaults (fun f => { f with marks := f.marks.filter (fun m => s.within10s m.time) ++
    [{ site := site, time := s.time.ptime.toNat, injected := injected }] })

/-- FLT_LAST. -/
def noteFault (site : FaultSite) (level detector : Nat) (s : State) : State :=
  s.updFaults (fun f => { f with
    lastKind := BitVec.ofNat 5 site.kind, lastLevel := BitVec.ofNat 3 level, lastDetector := BitVec.ofNat 4 detector
    lastUnit := BitVec.ofNat 16 site.unit, lastUs := BitVec.ofNat 32 (s.time.ptime.toNat / 1000) })

/-- The trace record of a detection (R419). -/
def traceFault (site : FaultSite) (detector : Nat) (s : State) : State :=
  let (cls, inst) := sourceOfUnit site.kind site.unit
  addTrace 5 nobody nobody (256 * cls + inst) (fieldOf cls inst)
    ([BitVec.ofNat 8 site.kind, 0] ++ toLE 2 site.unit ++ [BitVec.ofNat 8 detector]) s

/-! ## Retirement (R28, R402) -/

/-- Changes one direction of a crossing. -/
def updCrossing (i : Nat) (f : CrossingDir → CrossingDir) (s : State) : State :=
  s.updFaults (fun x => { x with crossings := x.crossings.modify i f })

/-- The direction that a crossing channel's site names. -/
def siteDir (site : FaultSite) : Nat := 2 * (site.unit / 64) + (if site.upper then 1 else 0)

/-- Channels of a crossing in service, both directions together. -/
def State.crossingChannels (s : State) (k : Nat) : Nat :=
  (bitList 64 (unit s.faults.crossings (2 * k)).inService.toNat).length
  + (bitList 64 (unit s.faults.crossings (2 * k + 1)).inService.toNat).length

/-- A LINK_TEST runs on a crossing channel: crossing and direction, channel (R438). -/
def State.underTest (s : State) (dir ch : Nat) : Bool :=
  s.side.tests.any (fun t => t.target == 3 && 2 * t.unit + t.lanes / 64 == dir && t.lanes % 64 == ch)

/-- A crossing channel is retired. -/
def retireCrossing (site : FaultSite) (s : State) : State :=
  let ch := site.unit % 64
  let x := unit s.faults.crossings (siteDir site)
  if x.retired.getLsbD ch || (!x.inService.getLsbD ch && !s.underTest (siteDir site) ch) then s
  else
    let bit := 1#64 <<< ch
    let s := updCrossing (siteDir site) (fun x => { x with inService := x.inService &&& ~~~bit, retired := x.retired ||| bit }) s
    postDegraded 0x0B (site.unit / 64) 8 ch (s.crossingChannels (site.unit / 64)) 0 s

/-- Spare wires used of a channel. -/
def CrossingDir.used (x : CrossingDir) (ch : Nat) : Nat := (Table.get? x.wires ch).getD 0

/-- Spare wires not yet used, over the channels in service of one direction (R28, R107). -/
def CrossingDir.spareWires (x : CrossingDir) : Nat := ((bitList 64 x.inService.toNat).map (fun ch => 2 - x.used ch)).sum

/-- A crossing wire is lost: a spare takes its place, or the channel is retired (R28). -/
def loseWire (site : FaultSite) (wire : Nat) (s : State) : State :=
  let ch := site.unit % 64
  let k := site.unit / 64
  let n := (unit s.faults.crossings (siteDir site)).used ch
  if 2 ≤ n then retireCrossing site s
  else
    let s := updCrossing (siteDir site) (fun x => { x with wires := Table.put x.wires ch (n + 1) }) s
    postDegraded 0x0B k 7 (32 * ch + wire) (32 * s.crossingChannels k)
      ((unit s.faults.crossings (2 * k)).spareWires + (unit s.faults.crossings (2 * k + 1)).spareWires) s

/-- A port engine is retired: the port goes down (R402). -/
def retirePort (i : Nat) (s : State) : State :=
  if !(s.port i).inService then s
  else
    let s := s.updPort i (fun p => { p with inService := false, linkUp := false, width := 0, lanesGood := 0 })
    let (v, s) := s.draw
    let s := portEvent i (v.toNat % 256) s
    postDegraded 0x02 i 11 i ((List.range 8).filter (fun n => (s.port n).inService)).length 0 s

/-- A warp engine is retired: the link goes down (R402). -/
def retireLink (i : Nat) (s : State) : State :=
  if !(s.link i).inService then s
  else
    let s := s.updLink i (fun l => { l with inService := false, up := false, width := 0, lanesGood := 0, lanes := [], training := none })
    let (v, s) := s.draw
    let s := warpEvent i (v.toNat % 256) s
    postDegraded 0x03 i 12 i ((List.range 8).filter (fun n => (s.link n).inService)).length 0 s

/-- A hash unit leaves its pool. -/
def retireHash (i : Nat) (s : State) : State :=
  if s.faults.hash.getLsbD i = false then s
  else
    let s := s.updFaults (fun f => { f with hash := f.hash &&& ~~~(1#32 <<< i) })
    postDegraded 0x09 0 9 i (bitList 32 s.faults.hash.toNat).length 0 s

/-- A shuttle engine leaves its pool. -/
def retireShuttle (i : Nat) (s : State) : State :=
  if s.faults.shuttle.getLsbD i = false then s
  else
    let s := s.updFaults (fun f => { f with shuttle := f.shuttle &&& ~~~(1#3 <<< i) })
    postDegraded 0x0A 0 10 i (bitList 3 s.faults.shuttle.toNat).length 0 s

/-- Retires a unit by R402's table. -/
def retireSite (site : FaultSite) (s : State) : State :=
  match site.kind, site.part with
  | 0, some lane => loseLane site.unit lane s
  | 1, some col => loseColumn site.unit col s
  | 11, some wire => loseWire site wire s
  | 6, _ => retirePort site.unit s
  | 7, _ => retireLink site.unit s
  | 8, _ => retireHash site.unit s
  | 9, _ => retireShuttle site.unit s
  | 10, _ => stackOut site.unit s
  | 11, none => retireCrossing site s
  | 13, _ => retireCp site.unit s
  | k, _ => match coreOfUnit k site.unit with
    | some c => retireCore c s
    | none => s

/-- Three faults, injected ones left out, retire a unit; a wire that the wire test names is replaced at once (R398, R402). -/
def State.mustRetire (s : State) (site : FaultSite) : Bool :=
  match site.kind with
  | 12 | 14 | 15 => false
  | 11 => site.part.isSome || decide (3 ≤ s.faultsOf site false)
  | _ => decide (3 ≤ s.faultsOf site false)

/-! ## Warm restarts (R405) -/

/-- A warm restart falls due. -/
def wantWarm (w : WarmRestart) (s : State) : State :=
  if s.faults.warm.isSome then s else s.updFaults (fun f => { f with warm := some w })

/-- A warm restart that no fault caused: the record's cause is free. -/
def wantWarmFor (activate : Option Nat) (s : State) : State :=
  let (v, s) := s.draw
  wantWarm { activate := activate, selfTest := [], causeType := v.toNat % 65536, causeSource := v.toNat / 65536 % 65536,
             since := s.time.ptime.toNat, started := false, last := false } s

/-- A message as it stood when it became visible; what has fallen due stays so. -/
def Message.afresh (m : Message) : Message :=
  { m with stage := if m.kem then .handshake else .keyed, large := false, kSess := [], kMsg := [], verified := [], tiles := [], clipQ := [] }

/-- Visible uncommitted envelopes are checked again by R146, and opened again from their region bytes (R163). -/
def reopenAll (s : State) : State :=
  let waiting := s.ingest.msgs.filter (fun e => e.2.stage != .committed)
  let s := { s with ingest := { s.ingest with hsQueue := [], keyOrder := [] } }
  waiting.foldl (fun s e =>
    let s := s.updMsg e.1 Message.afresh
    match Table.get? s.trans.regions e.2.region with
    | none => dropMsg e.1 s
    | some r => checkEnvelope e.1 8 e.2.afresh r s) s

/-- The jobs that are open. -/
def State.openJobs (s : State) : List Nat := s.accum.jobs.map (·.1)

/-- Committed tiles that the engines of some cores hold, issued and not written everywhere, are replayed from their marks (R399, R406):
how many, and the state after it. -/
def replay (on : Nat → Bool) (s : State) : Nat × State :=
  let p (_ : Nat) (t : SpliceTile) : Bool := t.issued && !s.spent t && on t.core
  (((List.range 36).map (s.tilesOn p)).sum, s.openJobs.foldl (fun s j => advance j s) (rewindTiles p s))

/-- The cores whose tiles a recovery replays: that of an engine that handles tiles, a core itself, and those of a field. -/
def Recovery.replays (r : Recovery) (core : Nat) : Bool :=
  match r.kind with
  | 0 | 3 | 4 | 5 => core == r.unit
  | 15 => core / 9 == r.unit
  | _ => false

/-- Every READY table is built again (R274). -/
def rebuildTables (s : State) : State :=
  let again (k : TableSlot) : TableSlot := if k.state = .ready ∨ k.state = .building then k.rebuild else k
  s.updPoly (fun p => { p with heddles := p.heddles.map (fun h => { h with slot0 := again h.slot0, slot1 := again h.slot1 }) })

/-- A command ends with a warm restart: it has no journalled commit point, or it is a test (R405, R443). -/
def Cmd.endsAtRestart (c : Cmd) : Bool := c.phase != .committed || c.op == .linkTest || c.op == .selfTest

/-- A LINK_TEST ends: its crossing channel carries traffic again unless it has been retired, and enables that waited take effect
(R438, R442). -/
def endTest (t : LinkTest) (s : State) : State :=
  let s := { s with side := { s.side with tests := s.side.tests.filter (· != t) } }
  let s := if t.target = 3 then
      updCrossing (2 * t.unit + t.lanes / 64) (fun x =>
        if x.retired.getLsbD (t.lanes % 64) then x else { x with inService := x.inService ||| (1#64 <<< (t.lanes % 64)) }) s
    else s
  let key := if t.target = 1 then 8 + t.unit else t.unit
  if t.target ≤ 1 ∧ s.side.waitingEnables.contains key then
    let s := { s with side := { s.side with waitingEnables := s.side.waitingEnables.filter (· != key) } }
    if t.target = 0 then s.updPort t.unit (fun p => { p with enable := true })
    else beginTraining t.unit 0 false (s.updLink t.unit (fun l => { l with enable := true }))
  else s

/-- The reset of a hash unit, alone or with the device, clears its key register (R280); the key path delivers the next key before its use.
The other units' registers hold the keys of what they go on with: the key path delivers those again in the same step (log entry 118). -/
def clearMacKey (s : State) : State := { s with trust := { s.trust with macKey := [] } }

/-- Steps 1 to 4 of a warm restart (R405). -/
def beginWarm (s : State) : State :=
  match s.faults.warm with
  | none => s
  | some w =>
    if w.started then s
    else
      let n := (s.cmds.filter (fun e => e.2.endsAtRestart)).length
      let s := post .warmRestart 0 0 nobody nobody (toLE 2 w.causeType ++ toLE 2 w.causeSource ++ toLE 4 n) s
      let s := abortCmds (fun _ c => c.endsAtRestart) (s.side.tests.foldl (fun s t => endTest t s) s)
      let times := s.faults.restarts.filter (fun t => s.within10s t) ++ [s.time.ptime.toNat]
      let w := { w with started := true, last := decide (3 ≤ times.length) }
      let s := s.updFaults (fun f => { f with
        warm := some w, restarts := times, warmRestarts := satAdd f.warmRestarts 1, recoveries := [], armed := []
        cps := f.cps.map (fun k => { k with recovering := false }) })
      let s := rebuildTables (replay (fun _ => true) (reopenAll (unseed .warmRestart (clearMacKey s)))).2
      let s := s.updPower (fun p => { p with debtUj := 0, fields := p.fields.map (fun f =>
        { f with mv := if s.trust.handover.isSome || f.temp < 100 then 750 else p.vBase.toNat
                 settle := s.trust.handover.isSome || decide (f.temp < 100) }) })
      let s := { s with side := { s.side with selfTest := none } }
      if w.last then goOutOfService s else s

/-- DEVICE_WARM_RESTART: the restart that is due begins (R405). -/
def execDeviceWarmRestart (s : State) : Host.Outcome State Fault Refusal := .next (beginWarm s)

/-! ## Recovery and escalation (R399 to R401) -/

/-- A recovery that contains a unit. -/
def Recovery.covers (r : Recovery) (site : FaultSite) : Bool :=
  match r.level with
  | 1 => r.kind == site.kind && r.unit == site.unit
  | 2 => coreOfUnit site.kind site.unit == some r.unit
  | 3 => site.kind != 13 && fieldOfUnit site.kind site.unit == r.unit
  | _ => r.kind == site.kind && r.unit == site.unit

/-- The recovery that covers a unit. -/
def State.recoveryOf (s : State) (site : FaultSite) : Option Recovery := s.faults.recoveries.find? (·.covers site)

/-- Starts a recovery; those that it contains are absorbed, with the retirements they carry (R401). -/
def startRecovery (r : Recovery) (s : State) : State :=
  let inside (x : Recovery) : Bool := decide (x.level < r.level) && r.covers (wholeUnit x.kind x.unit)
  let taken := (s.faults.recoveries.filter inside).flatMap (·.retire)
  s.updFaults (fun f => { f with recoveries := f.recoveries.filter (fun x => !inside x) ++
    [{ r with retire := (r.retire ++ taken).eraseDups }] })

/-- Posts FAULT_ESCALATED (R410). -/
def postEscalated (from_ to_ detector : Nat) (site : FaultSite) (fieldNo cause : Nat) (s : State) : State :=
  let (cls, inst) := sourceOfUnit site.kind site.unit
  post .faultEscalated cls inst nobody nobody
    ([BitVec.ofNat 8 from_, BitVec.ofNat 8 to_, BitVec.ofNat 8 detector, BitVec.ofNat 8 site.kind] ++ toLE 2 site.unit
      ++ [BitVec.ofNat 8 fieldNo, BitVec.ofNat 8 cause]) s

/-- An escalation to a device warm restart. -/
def escalateToDevice (from_ detector : Nat) (site : FaultSite) (cause : Nat) (tests : List FaultSite) (s : State) : State :=
  let (cls, inst) := sourceOfUnit site.kind site.unit
  wantWarm { activate := none, selfTest := tests, causeType := EventType.faultEscalated.code, causeSource := 256 * cls + inst,
             since := s.time.ptime.toNat, started := false, last := false }
    (postEscalated from_ 4 detector site 0xFF cause s)

/-- A second fault raises a recovery one level (R401). A chip-level block lies in no core, so its engine recovery rises to its field. -/
def escalate (r : Recovery) (site : FaultSite) (detector : Nat) (injected : Bool) (s : State) : State :=
  let s := s.updFaults (fun f => { f with recoveries := f.recoveries.filter (· != r) })
  let cause := if detector = 10 then 1 else 0
  match r.level, coreOfUnit r.kind r.unit with
  | 1, some c =>
    let core := wholeUnit 5 c
    let s := countEngine c 7 (markFault core injected s)
    let s := postEscalated 1 2 detector site (c / 9) cause s
    startRecovery { r with kind := 5, unit := c, level := 2, retire := if s.mustRetire core then core :: r.retire else r.retire } s
  | 3, _ => escalateToDevice 3 detector site cause [] s
  | l, _ =>
    let f := fieldOfUnit r.kind r.unit
    let s := markFault (wholeUnit 15 f) injected s
    if 3 ≤ s.faultsOf (wholeUnit 15 f) true then escalateToDevice l detector site 2 [r.origin, site, wholeUnit 15 f] s
    else startRecovery { r with kind := 15, unit := f, level := 3 } (postEscalated l 3 detector site f cause s)

/-! ## Command processors (R404) -/

/-- The next active processor after a failed one, wrapping from CP3 to CP0. -/
def State.peerOf (s : State) (i : Nat) : Option Nat :=
  ((List.range 5).map (fun n => (i + 1 + n) % 5)).find? (fun n => n != i && (unit s.faults.cps n).role == .active
    && !(unit s.faults.cps n).recovering)

/-- A processor has faulted: a peer takes over its fields while its work restarts, or a second fault restarts the device. -/
def cpFault (detector i : Nat) (injected : Bool) (s : State) : State :=
  let k := unit s.faults.cps i
  let site := wholeUnit 13 i
  if k.role ≠ .active then s
  else
    let s := traceFault site detector (noteFault site 5 detector (markFault site injected s))
    if k.recovering then
      escalateToDevice 5 detector site 0 [] (s.updFaults (fun f => { f with recoveries := f.recoveries.filter (fun r => !(r.kind == 13 && r.unit == i)) }))
    else
      let s := s.updCp i (fun k => { k with recovering := true, faults := k.faults.filter (fun t => s.within10s t) ++ [s.time.ptime.toNat] })
      let r : Recovery := { kind := 13, unit := i, level := 5, detector := detector, since := s.time.ptime.toNat, origin := site,
                            retire := [] }
      let s := s.updFaults (fun f => { f with recoveries := f.recoveries ++ [r] })
      match s.peerOf i with
      | none => s
      | some p =>
        (s.updCp p (fun x => { x with fields := x.fields ||| k.fields })).updFaults (fun f => { f with cpTakeovers := satAdd f.cpTakeovers 1 })

/-! ## Detection (R398) -/

/-- A unit that can fault: it exists, and a core's units only while the core is active. -/
def State.running (s : State) (site : FaultSite) : Bool :=
  decide (site.unit < unitRange site.kind) && s.power.railsOn
    && (match coreOfUnit site.kind site.unit with | some c => (s.core c).role == .active | none => true)

/-- A fault of a unit (R398 to R402). -/
def unitFault (detector : Nat) (site : FaultSite) (injected : Bool) (s : State) : State :=
  let s := traceFault site detector (markFault site injected s)
  let s := match coreOfUnit site.kind site.unit with
    | some c => countEngine c (engineIndex site.kind site.unit) s
    | none => s
  let s := match s.recoveryOf site with
    | some r =>
      let r' := if s.mustRetire site && !r.retire.contains site then { r with retire := r.retire ++ [site] } else r
      escalate r' site detector injected
        (s.updFaults (fun f => { f with recoveries := f.recoveries.map (fun x => if x = r then r' else x) }))
    | none =>
      startRecovery { kind := site.kind, unit := site.unit, level := if site.kind = 5 then 2 else 1, detector := detector,
                      since := s.time.ptime.toNat, origin := site, retire := if s.mustRetire site then [site] else [] } s
  let level := match s.recoveryOf site with | some r => r.level | none => 4
  noteFault site level detector s

/-- A detector reports a fault (R398). Faults of units are absorbed by a warm restart; no detector watches a field itself, whose only
fault is its recovery's handler timeout; an injected fault is one that was asked for (FLT_INJECT). -/
def detect (detector : Nat) (site : FaultSite) (s : State) : State :=
  let injected := detector == 11
  if s.faults.warm.isSome ∨ !s.running site ∨ (injected ∧ !s.faults.armed.contains (site.kind, site.unit))
    ∨ (site.kind = 15 ∧ detector ≠ 10) then s
  else
    let s := if injected then s.updFaults (fun f => { f with armed := f.armed.erase (site.kind, site.unit) }) else s
    if site.kind = 13 then cpFault detector site.unit injected s else unitFault detector site injected s

/-- FAULT_DETECTED (R398). -/
def execFaultDetected (detector : Nat) (site : FaultSite) (s : State) : Host.Outcome State Fault Refusal :=
  .next (if detector ≤ 11 ∧ detector ≠ 10 then detect detector site s else s)

/-- HANDSHAKE_WATCHDOG: detector 0, a fault of the stage's engine (R398). -/
def execHandshakeWatchdog (site : FaultSite) (s : State) : Host.Outcome State Fault Refusal :=
  .next (if site.kind = 5 ∨ site.kind = 13 ∨ site.kind = 15 then s else detect 0 { site with part := none } s)

/-- CORE_TILE_TIMEOUT: detector 7, a fault of the core (R398). -/
def execCoreTileTimeout (core : Nat) (s : State) : Host.Outcome State Fault Refusal := .next (detect 7 (wholeUnit 5 core) s)

/-- HANDLER_TIMEOUT: detector 10, a fault of the unit being recovered; the restart's own handler takes the device out of service
(R399, R401). -/
def execHandlerTimeout (site : Option FaultSite) (s : State) : Host.Outcome State Fault Refusal :=
  .next (match site with
    | none => match s.faults.warm with
      | some w => if w.started then goOutOfService (s.updFaults (fun f => { f with warm := none })) else s
      | none => s
    | some x =>
      if s.faults.recoveries.any (fun r => r.level != 5 && r.kind == x.kind && r.unit == x.unit) then detect 10 (wholeUnit x.kind x.unit) s
      else s)

/-- CP_HEARTBEAT_MISS: detector 8 (R404). -/
def execCpHeartbeatMiss (processor : Nat) (s : State) : Host.Outcome State Fault Refusal := .next (detect 8 (wholeUnit 13 processor) s)

/-- CP_WATCHDOG: detector 9 (R404). -/
def execCpWatchdog (processor : Nat) (s : State) : Host.Outcome State Fault Refusal := .next (detect 9 (wholeUnit 13 processor) s)

/-! ## The end of a recovery (R399, R402, R410) -/

/-- Counts a recovery in FLT_COUNTS. -/
def countRecovery (level : Nat) (s : State) : State :=
  s.updFaults (fun f => match level with
    | 1 => { f with engines := satAdd f.engines 1 }
    | 2 => { f with coreRecoveries := satAdd f.coreRecoveries 1 }
    | 3 => { f with fieldRecoveries := satAdd f.fieldRecoveries 1 }
    | _ => f)

/-- Posts FAULT_RECOVERED; REPLAYED is coarsened (R410, R421). -/
def postRecovered (r : Recovery) (count : Nat) (retired : Bool) (replayed : Nat) (s : State) : State :=
  let (cls, inst) := sourceOfUnit r.origin.kind r.origin.unit
  let us := min ((s.time.ptime.toNat - r.since) / 1000) 0xFFFFFFFF
  let shown := s.coarseN replayed
  postFor .faultRecovered cls inst nobody nobody
    ([BitVec.ofNat 8 r.level, BitVec.ofNat 8 r.detector, BitVec.ofNat 8 r.kind, 0] ++ toLE 2 r.unit
      ++ [BitVec.ofNat 8 (min count 255), if retired then 1 else 0] ++ toLE 4 us ++ toLE 4 shown) (shown != replayed) none s

/-- The recovery of a unit completes: it has passed its reset check, and what it held is applied again: its tiles from their marks, and a
number of work items and steps (R399). -/
def recoveryDone (r : Recovery) (steps : Nat) (s : State) : State :=
  let s := countRecovery r.level (s.updFaults (fun f => { f with recoveries := f.recoveries.filter (· != r) }))
  let (tiles, s) := replay r.replays (if r.kind = 8 then clearMacKey s else s)
  let s := if r.level = 3 then { s with time := { s.time with mirrors := s.time.mirrors.set r.unit s.time.ptime } } else s
  let s := postRecovered r (s.faultsOf (wholeUnit r.kind r.unit) true) (!r.retire.isEmpty) (tiles + steps) s
  r.retire.foldl (fun s x => retireSite x s) s

/-- RECOVERY_DONE (R399). -/
def execRecoveryDone (site : FaultSite) (items steps : Nat) (s : State) : Host.Outcome State Fault Refusal :=
  .next (match s.faults.recoveries.find? (fun r => r.level != 5 && r.kind == site.kind && r.unit == site.unit) with
    | none => s
    | some r => recoveryDone r (items + steps) s)

/-- A processor schedules the fields of a failed one, which its peers give back. -/
def handFields (to_ : Nat) (fields : BitVec 4) (s : State) : State :=
  s.updFaults (fun f => { f with cps := f.cps.mapIdx (fun n k =>
    if n = to_ then { k with fields := fields } else { k with fields := k.fields &&& ~~~fields }) })

/-- CP_RESTART_DONE: the failed processor's work runs on the spare, and the processor has run its self-test (R404). -/
def execCpRestartDone (processor : Nat) (passed : Bool) (s : State) : Host.Outcome State Fault Refusal :=
  .next (match s.faults.recoveries.find? (fun r => r.kind == 13 && r.unit == processor) with
    | none => s
    | some r =>
      let k := unit s.faults.cps processor
      let good := passed && decide (s.faultsOf (wholeUnit 13 processor) false < 3)
      let s := s.updFaults (fun f => { f with recoveries := f.recoveries.filter (· != r) })
      let s := s.updCp processor (fun k => { k with recovering := false })
      let spare := (List.range 5).find? (fun n => (unit s.faults.cps n).role == .spare)
      let s := match spare, good with
        | some n, _ => (handFields n k.fields ((s.updCp n (fun x => { x with role := .active })).updCp processor
            (fun x => { x with role := .spare }))).updFaults (fun f => { f with cpRestarts := satAdd f.cpRestarts 1 })
        | none, true => handFields processor k.fields s
        | none, false => s.updCp processor (fun x => { x with fields := 0 })
      let s := postRecovered r (s.faultsOf (wholeUnit 13 processor) true) (!good) 0 s
      if good then s else retireCp processor s)

/-! ## Table builds (R222, R249) -/

/-- TABLE_LIMB_BUILT: a limb's entries are finished twice; unequal results are a fault of the heddle (detector 6), and the limb is repeated. -/
def execTableLimbBuilt (heddle : Nat) (one agree : Bool) (s : State) : Host.Outcome State Fault Refusal :=
  .next (
    let h := unit s.poly.heddles heddle
    let k := h.slot one
    if k.state ≠ .building ∨ !h.inService then s
    else if !agree then detect 6 (wholeUnit 1 heddle) s
    else
      match Table.get? s.poly.sets k.set with
      | none => s
      | some p =>
        let limb := twiddles (unit p.primes k.built) (unit ((Table.get? p.versions k.ver).getD []) k.built)
        let s := s.updHeddle heddle (fun h => h.upd one (fun k => { k with built := k.built + 1, entries := k.entries ++ [limb] }))
        if k.built + 1 < p.limbs + p.special then s
        else
          let order := s.poly.builds
          (s.updPoly (fun p => { p with builds := p.builds + 1 })).updHeddle heddle (fun h => h.upd one (fun k =>
            { k with state := .ready, order := order })))

/-! ## Injection (FLT_INJECT) -/

/-- Kinds that FLT_INJECT allows. -/
def injectable (kind : Nat) : Bool := decide (kind ≤ 9) || kind == 11 || kind == 14

/-- A unit that has been retired, or is a spare. -/
def State.idleUnit (s : State) (kind unitNo : Nat) : Bool :=
  match kind with
  | 6 => !(s.port unitNo).inService
  | 7 => !(s.link unitNo).inService
  | 8 => !s.faults.hash.getLsbD unitNo
  | 9 => !s.faults.shuttle.getLsbD unitNo
  | 11 => [0, 1].all (fun d => !(unit s.faults.crossings (2 * (unitNo / 64) + d)).inService.getLsbD (unitNo % 64))
  | k => match coreOfUnit k unitNo with
    | some c => (s.core c).role != .active
    | none => false

/-- A write of FLT_INJECT. -/
def writeInject (v : Word64) (s : State) : State :=
  let kind := (field v 0 5).toNat
  let unitNo := (field v 8 16).toNat
  let soon : Bool := match s.faults.lastInject with
    | some t => decide (s.time.ptime.toNat < t + 100000000)
    | none => false
  if v.getLsbD 24 = false then s
  else if !injectable kind ∨ unitRange kind ≤ unitNo ∨ soon ∨ (s.recoveryOf (wholeUnit kind unitNo)).isSome ∨ s.idleUnit kind unitNo then
    s.updFaults (fun f => { f with injectRefused := true })
  else s.updFaults (fun f => { f with lastInject := some s.time.ptime.toNat, armed := f.armed ++ [(kind, unitNo)] })

/-- FAULT_INJECT: a write of FLT_INJECT with GO. -/
def execFaultInject (value : Word32) (s : State) : Host.Outcome State Fault Refusal :=
  .next (atBar (writeInject (value.setWidth 64 ||| (1#64 <<< 24))) s)

/-! ## Registers -/

/-- FLT_STATUS as it reads. -/
def State.fltStatus (s : State) : Word64 :=
  placeN 0 4 (bitsOf 4 (fun f => s.faults.recoveries.any (fun r => r.level == 3 && r.unit == f)))
  ||| placeB 4 s.faults.warm.isSome ||| placeN 5 5 (bitsOf 5 (fun i => (unit s.faults.cps i).recovering))
  ||| placeB 10 s.faults.injectRefused ||| place 16 s.faults.warmRestarts

/-- FLT_CORE_RECOVERING as it reads. -/
def State.fltCores (s : State) : Word64 :=
  placeN 0 36 (bitsOf 36 (fun c => s.faults.recoveries.any (fun r => r.level == 2 && r.unit == c)))

/-- FLT_COUNTS as it reads. -/
def State.fltCounts (s : State) : Word64 :=
  place 0 (s.coarse s.faults.engines) ||| place 16 (s.coarse s.faults.coreRecoveries) ||| place 32 (s.coarse s.faults.fieldRecoveries)
  ||| place 48 (s.coarse s.faults.migrations)

/-- FLT_COUNTS_READ clears the halves it returns. -/
def execFltCountsRead (half : Half) (s : State) : Host.Outcome State Fault Refusal :=
  .next (rcRead half State.fltCounts (fun s => s.updFaults (fun f => { f with engines := 0, coreRecoveries := 0 }))
    (fun s => s.updFaults (fun f => { f with fieldRecoveries := 0, migrations := 0 })) s)

/-- FLT_CP as it reads. -/
def State.fltCp (s : State) : Word64 := place 0 (s.coarse s.faults.cpRestarts) ||| place 16 (s.coarse s.faults.cpTakeovers)

/-- FLT_CP_READ. -/
def execFltCpRead (half : Half) (s : State) : Host.Outcome State Fault Refusal :=
  .next (rcRead half State.fltCp (fun s => s.updFaults (fun f => { f with cpRestarts := 0, cpTakeovers := 0 })) id s)

/-- FLT_LAST as it reads. -/
def State.fltLast (s : State) : Word64 :=
  place 0 s.faults.lastKind ||| place 5 s.faults.lastLevel ||| place 8 s.faults.lastDetector ||| place 16 s.faults.lastUnit
  ||| place 32 s.faults.lastUs

/-- SPL_CORE as it reads. -/
def State.splCore (s : State) (c : Nat) : Word64 :=
  let k := s.core c
  let recovering := s.faults.recoveries.any (fun r => (r.level == 2 && r.unit == c) || (r.level == 3 && r.unit == c / 9))
  placeN 0 2 (match k.role with
    | .active => if recovering then 3 else 0
    | .spare => 1
    | .retired => 2
    | .off => 0)
  ||| placeN 2 2 (min 2 (s.faultsOf (wholeUnit 5 c) true)) ||| placeN 16 16 (s.slicesOn c).length

/-- Splice slots of a core in one state. -/
def State.slotsIn (s : State) (c : Nat) (m : SlotMode) : Nat :=
  (s.ingest.msgs.map (fun e => (e.2.tiles.filter (fun t => t.core == c && t.slot == some m)).length)).sum

/-- SPL_SLOTS as it reads. -/
def State.splSlots (s : State) (c : Nat) : Word64 :=
  placeN 0 8 (s.coarseN (s.slotsFree c)) ||| placeN 8 8 (s.coarseN (s.slotsIn c .reserved)) ||| placeN 16 8 (s.coarseN (s.slotsIn c .opened))
  ||| placeN 24 8 (s.coarseN (s.slotsIn c .committed))

/-- SPL_ENGINE_FAULTS as it reads. -/
def State.splEngineFaults (s : State) (c : Nat) : Word64 :=
  (List.range 8).foldl (fun v i => v ||| place (8 * i) (s.coarse (unit (s.core c).engineFaults i))) 0

/-- Clears some of a core's engine fault counts. -/
def clearEngines (c : Nat) (p : Nat → Bool) (s : State) : State :=
  s.updCore c (fun k => { k with engineFaults := k.engineFaults.mapIdx (fun i n => if p i then 0 else n) })

/-- SPL_ENGINE_FAULTS_READ clears the halves it returns. -/
def execSplEngineFaultsRead (core : Nat) (half : Half) (s : State) : Host.Outcome State Fault Refusal :=
  .next (rcRead half (fun s => s.splEngineFaults core) (clearEngines core (fun i => decide (i < 4)))
    (clearEngines core (fun i => decide (4 ≤ i))) s)

/-- SPL_REPLAYS as it reads. -/
def State.splReplays (s : State) (c : Nat) : Word64 := place 0 (s.coarse (s.core c).tiles) ||| place 32 (s.coarse (s.core c).rewinds)

/-- SPL_REPLAYS_READ clears the halves it returns. -/
def execSplReplaysRead (core : Nat) (half : Half) (s : State) : Host.Outcome State Fault Refusal :=
  .next (rcRead half (fun s => s.splReplays core) (fun s => s.updCore core (fun k => { k with tiles := 0 }))
    (fun s => s.updCore core (fun k => { k with rewinds := 0 })) s)

end Sys2Proof.Machine
end

