-- ==== Sys2Proof/Machine/Trust.lean ====
section
/-! DEFINITION. Vilmin: attestation, tenants and model owners, key messages, and firmware (R275 to R300). -/

namespace Sys2Proof.Machine

open Sys2Proof

/-- Changes Vilmin's stores. -/
def State.updTrust (s : State) (f : Trust → Trust) : State := { s with trust := f s.trust }

/-! ## Firmware images (R281, R282) -/

/-- Bytes of an image before its body. -/
def imageHead : Nat := 29920

/-- The fields of an image are well formed (R283 check 1). Its reserved bytes are ignored (R7). -/
def imageShape (m : Bytes) : Bool :=
  slice m 0 4 == ascii "LNFW" && leAt m 4 2 == 1 && decide (leAt m 12 4 ≤ 1024)
    && decide (1 ≤ leAt m 16 8 ∧ leAt m 16 8 ≤ 67108864 ∧ m.length = imageHead + leAt m 16 8)

/-- The key is the fused one, the signature verifies and the body has its hash (R283 check 2). -/
def imageSigned (f : Fuses) (m : Bytes) : Bool :=
  sha256 (slice m 64 64) == f.fwKeyHash
    && slhVerify (slice m 64 64) (ascii "LN7300-FW") (m.take 128) (slice m 128 29792)
    && sha256 (m.drop imageHead) == slice m 32 32

/-- ORDER_MASK includes the device's ORDER_CODE (R281): code 1 is LN7300-A1, code 2 LN7300-E1. -/
def imageOrdered (f : Fuses) (m : Bytes) : Bool := (byteAt m 24).testBit (f.orderCode - 1)

/-- FW_SVN of an image. -/
def imageSvnOf (m : Bytes) : Nat := leAt m 12 4

/-- An image is valid on a device with these fuses (R281): its fields are well formed, and the five conditions hold. -/
def imageValid (f : Fuses) (m : Bytes) : Bool := imageShape m && imageSigned f m && imageOrdered f m && decide (f.svn ≤ imageSvnOf m)

/-- The identity certificate names this device's identity key and the fused manufacturing key (R286). -/
def certValid (f : Fuses) (idPk cert : Bytes) : Bool := slice cert 24 32 == idPk && slice cert 56 32 == f.mfgKeyHash

/-- The image that the boot record names (R282). -/
def Flash.activeImage (f : Flash) : Bytes := if f.active then f.slotB else f.slotA

/-- An image enters the inactive slot, which is marked STAGED (R283). -/
def Flash.stage (f : Flash) (m : Bytes) : Flash :=
  if f.active then { f with slotA := m, staged := true } else { f with slotB := m, staged := true }

/-- FW_STAGE (R283). -/
def opFwStage (_ : Nat) (c : Cmd) (s : State) : Verdict :=
  checks [resInline c 0 32] <|
    withInput c 0 (fun m =>
      if !imageShape m then badBlock 0
      else if !imageSigned s.trust.fuses m then .refuse .sigInvalid 0 0
      else if !imageOrdered s.trust.fuses m then notPermitted 1
      else if imageSvnOf m < s.trust.fuses.svn then .refuse .counterStale 0 0
      else ok (leAt m 8 4) (s.updTrust (fun t => { t with flash := t.flash.stage m })))

/-- FW_STAGE. -/
def execFwStage (cid : Nat) (s : State) : Host.Outcome State Fault Refusal := .next (runRow .fwStage opFwStage cid s)

/-- FW_ACTIVATE: the staged slot becomes active and a device warm restart falls due (R284). -/
def opFwActivate (cid : Nat) (c : Cmd) (s : State) : Verdict :=
  checks [resInline c 0 32] <|
    if !s.trust.flash.staged then notPermitted 1
    else if s.trust.tenant.isSome || s.trust.handover.isSome then notPermitted 2
    else
      let s := s.updTrust (fun t => { t with flash := { t.flash with active := !t.flash.active, staged := false } })
      .goes (wantWarmFor (some cid) (commit cid .none s))

/-- FW_ACTIVATE. -/
def execFwActivate (cid : Nat) (s : State) : Host.Outcome State Fault Refusal :=
  .next (runRow .fwActivate opFwActivate cid s)

/-! ## Attestation (R277, R287 to R289) -/

/-- Logical fuse bytes 0x0100 to 0x01FF, measured by CONFIG_MEAS (R277). -/
def Fuses.measured (f : Fuses) : Bytes := slice f.logical 0x100 0x100

/-- The FW_SVN thermometer is raised to a value: fuses are only ever blown (R277, R284). -/
def Fuses.raise (n : Nat) (f : Fuses) : Fuses :=
  let up (b : Bytes) : Bytes := b.take 0x200 ++ List.zipWith (· ||| ·) (b.drop 0x200) (thermometer n)
  { one := up f.one, two := up f.two, three := up f.three }

/-- One entry of a statement: a job's key, current or staged (R288). -/
def attestEntry (j : Nat) (isStaged : Bool) (serial : Nat) (ek : Bytes) : Bytes :=
  [BitVec.ofNat 8 j, if isStaged then 1 else 0, 0, 0] ++ toLE 4 serial ++ zeros 8 ++ fitBytes 1184 ek

/-- The entries of a statement, in job order, a staged pair after its job's entry (R288). -/
def attestEntries (s : State) : List Bytes :=
  (s.accum.jobs.map (fun e =>
    attestEntry e.1 false e.2.ekSerial.toNat e.2.ek
      :: (match e.2.staged with | none => [] | some ek => [attestEntry e.1 true e.2.ekSerial.toNat ek]))).flatten

/-- A statement without its signature (R288). -/
def attestBody (s : State) (nonce : Bytes) (aflags : Nat) : Bytes :=
  let t := s.trust
  let entries := attestEntries s
  ascii "LNAT" ++ toLE 2 1 ++ [BitVec.ofNat 8 t.fuses.orderCode, BitVec.ofNat 8 s.stateCode] ++ toLE 8 s.time.ptime.toNat
    ++ fitBytes 32 nonce ++ fitBytes 32 s.identityHash ++ fitBytes 16 s.setId
    ++ toLE 4 (if t.romMode then 0 else t.fwVersion.toNat) ++ toLE 4 t.fuses.svn
    ++ [BitVec.ofNat 8 entries.length, if t.tenant.isSome then 1 else 0, BitVec.ofNat 8 aflags, if t.certOk then 1 else 0]
    ++ toLE 4 t.kgen.toNat ++ fitBytes 16 s.bootId ++ sha256 (Config.romImage t.fuses.stepping)
    ++ (if t.romMode then zeros 32 else sha256 (t.flash.activeImage.take 128)) ++ sha256 t.fuses.measured
    ++ (match t.tenant with | none => zeros 32 | some x => sha256 x.policy)
    ++ (match t.tenant with | none => zeros 16 | some x => fitBytes 16 x.id)
    ++ fitBytes 16 t.fuses.serial ++ fitBytes 1184 (t.enrol.getD []) ++ entries.flatten

/-- The identity signature of a statement: deterministic, with its context (R275, R285). -/
def identitySign (s : State) (m : Bytes) : Bytes := slhSign s.idSeed (ascii "LN7300-ATTEST") m

/-- ATTEST (R287, R288). -/
def opAttest (_ : Nat) (c : Cmd) (s : State) : Verdict :=
  checks ([resInline c 0 32, (c.body.length == 64, 12)] ++ outChecks c.block 32 64 ++
      ([(decide (c.par 48 1 < 2), blockAt 48), resBlock c 49 15] : List Check)) <|
    let m := attestBody s (c.parB 0 32) (c.par 48 1)
    let whole := m ++ identitySign s m ++ (if c.par 48 1 = 1 then fitBytes 29952 s.trust.flash.cert else [])
    writeOut (outAt c.block 32 true) (blockAt 40) whole (ok whole.length) s

/-- ATTEST. -/
def execAttest (cid : Nat) (s : State) : Host.Outcome State Fault Refusal := .next (runRow .attest opAttest cid s)

/-- The pairing secret of a ROLE: 1 the tenant's, 2 the model owner's (R289, R291). -/
def State.pairing? (s : State) (role : Nat) : Option KeyName :=
  if role = 1 then (if s.trust.tenant.isSome then some .pairT else none) else if s.trust.owner.isSome then some .pairM else none

/-- CHALLENGE (R289). -/
def opChallenge (_ : Nat) (c : Cmd) (s : State) : Verdict :=
  checks ([resInline c 0 32, (c.body.length == 64, 12), (c.par 0 1 == 1 || c.par 0 1 == 2, blockAt 0), resBlock c 1 7]
      ++ outChecks c.block 40 64 ++ [resBlock c 56 8]) <|
    match s.pairing? (c.par 0 1) with
    | none => notPermitted 1
    | some n =>
      let head := toLE 8 s.time.ptime.toNat ++ [BitVec.ofNat 8 s.stateCode, if s.trust.tenant.isSome then 1 else 0] ++ zeros 6
      let mac := s.mac n (ascii "LN7300-CHAL" ++ s.identityHash ++ c.parB 8 32 ++ head)
      writeOut (outAt c.block 40 false) (blockAt 48) (head ++ mac) (ok 48) (deliverMac n s)

/-- CHALLENGE. -/
def execChallenge (cid : Nat) (s : State) : Host.Outcome State Fault Refusal := .next (runRow .challenge opChallenge cid s)

/-! ## Opening a tenant (R292, R293) -/

/-- The checks of a tenant policy whose byte 0 stands at byte `at_` of a string, with DETAIL `base` for that string's byte 0 (R293). -/
def policyChecks (b : Bytes) (at_ base : Nat) : List Check :=
  let res (off len : Nat) : Check := match nonZero? b (at_ + off) len with
    | none => (true, 0)
    | some o => (false, base + o)
  [(byteAt b at_ == 1, base + at_), (byteAt b (at_ + 1) < 16, base + at_ + 1), (byteAt b (at_ + 2) ≤ 16, base + at_ + 2),
   res 3 5, res 16 48]

/-- The enrolment pair, or what a command that needs it completes with (R292 check 3). -/
def withEnrol (s : State) (k : Bytes × Bytes → Verdict) : Verdict :=
  match s.trust.enrol, s.key? .enrolDk with
  | some ek, some dk => k (ek, dk)
  | _, _ => .refuse (if s.rng.mode = .failed ∨ s.rng.mode = .retesting then .entropyFail else .noEntropy) 0 0

/-- BK is replaced with its K_VW, and the key it replaced is kept (R291). -/
def replaceBk (bk : Bytes) (gen : Word32) (s : State) : State :=
  let s := match s.key? .binding with
    | none => dropKeys (· == .prevBinding) s
    | some old => installKey .prevBinding old s
  (installBinding bk s).updTrust (fun t => { t with kgen := gen })

/-- TENANT_OPEN takes effect: the tenant, its keys and policy, and perhaps the model owner (R292). -/
def openTenant (id trs openHash policy : Bytes) (owner : Bool) (s : State) : State :=
  let t : Tenant := { id := id, openHash := openHash, policy := policy, counter := 0, uctr := 0 }
  let s := s.updTrust (fun x => { x with
    tenant := some t, owner := if owner then some { ownHash := openHash, counter := 0 } else none
    kgen := 0, staged := none, set := none, enrol := none })
  let s := dropKeys (fun n => n == .enrolDk || n == .prevBinding || n == .stagedSet) s
  let s := installBinding (s.standaloneBk trs) (installTenantKeys trs openHash s)
  let s := loadNamed .update (if owner then installOwnerKeys trs openHash s else s)
  wantEnrol (post .tenantChanged 0x06 0 nobody nobody ([0, 0, 0, 0] ++ toLE 4 0 ++ fitBytes 16 id ++ slice policy 8 8) s)

/-- TENANT_OPEN (R292). -/
def opTenantOpen (_ : Nat) (c : Cmd) (s : State) : Verdict :=
  checks [resInline c 0 32, (c.body.length == 1288, 12), (c.par 0 1 == 1, blockAt 0), resBlock c 1 7] <|
    if s.trust.tenant.isSome || s.trust.handover.isSome then notPermitted 1
    else withEnrol s (fun p =>
      if c.parB 1112 32 ≠ sha256 p.1 then .refuse .keyInvalid 0 0
      else
        let ct := c.parB 24 1088
        let key := hkdf (kemOpen p.2 ct) (sha256 ct) (ascii "LN7300-TOPEN" ++ s.identityHash)
        match gcmOpen key (zeros 12) (c.block.take 1144) (c.parB 1144 144) with
        | none => .refuse .authFail 0 0
        | some m =>
          let base := blockAt 1144
          let res := match nonZero? m 33 31 with | none => (true, 0) | some o => (false, base + o)
          checks (([(decide (byteAt m 32 < 2), base + 32), res] : List Check) ++ policyChecks m 64 base) <|
            ok 0 (openTenant (c.parB 8 16) (m.take 32) (sha256 p.1) (slice m 64 64) (byteAt m 32 == 1) s))

/-- TENANT_OPEN. -/
def execTenantOpen (cid : Nat) (s : State) : Host.Outcome State Fault Refusal := .next (runRow .tenantOpen opTenantOpen cid s)

/-- TENANT_POLICY_SET (R293). -/
def opTenantPolicySet (_ : Nat) (c : Cmd) (s : State) : Verdict :=
  checks ([resInline c 0 32, (c.body.length == 64, 12)] ++ policyChecks c.body 0 64) <|
    ok 0 (s.updTrust (fun t => { t with tenant := t.tenant.map (fun x => { x with policy := c.body }) }))

/-- TENANT_POLICY_SET. -/
def execTenantPolicySet (cid : Nat) (s : State) : Host.Outcome State Fault Refusal :=
  .next (runRow .tenantPolicySet opTenantPolicySet cid s)

/-! ## Key messages (R294, R296 to R300) -/

/-- The checks of R296 on a message whose identity hash, counter and MAC stand at these offsets; it goes on with the tenant in a
state that has accepted UCTR. -/
def withKeyMessage (c : Cmd) (idAt uctrAt macAt : Nat) (s : State) (k : Tenant → State → Verdict) : Verdict :=
  match s.trust.tenant with
  | none => notPermitted 1
  | some t =>
    if c.parB idAt 32 ≠ s.identityHash then notPermitted 2
    else if c.parB macAt 32 ≠ s.mac .update (c.block.take macAt) then .refuse .authFail 0 0
    else if c.par uctrAt 8 ≤ t.uctr then .refuse .counterStale 0 0
    else
      let t := { t with uctr := c.par uctrAt 8 }
      k t (deliverMac .update (s.updTrust (fun x => { x with tenant := some t })))

/-- A refusal that keeps the state, so that an accepted UCTR stands (R296). -/
def refuseKeeping (st : Status) (detail : Nat) (s : State) : Verdict :=
  .done st detail 0 (if st = .authFail then countKeyRefused s else s)

/-- A verdict that keeps the state whatever it is. -/
def keeping (s : State) (v : Verdict) : Verdict :=
  match v with
  | .refuse st d r => .done st d r s
  | .waits => .done .busyDeferred 0 0 s
  | .stalls => .goes s
  | .done st d r a => .done st d r a
  | .goes a => .goes a

/-- A sealed field of a key message under K_DLV (R296): IV tag and UCTR, AAD every byte before it. -/
def openField (c : Cmd) (t : Tenant) (tag : String) (off : Nat) (s : State) : Option Bytes :=
  gcmOpen (s.using .delivery) (ascii tag ++ toLE 8 t.uctr) (c.block.take off) (c.parB off 48)

/-- No vault slot is configured. -/
def State.vaultFree (s : State) : Bool := s.gate.slots.all (·.isNone)

/-- OWNER_ENROL (R294). -/
def opOwnerEnrol (_ : Nat) (c : Cmd) (s : State) : Verdict :=
  checks [resInline c 0 32, (c.body.length == 1248, 12), (c.par 0 1 == 1, blockAt 0), resBlock c 1 7] <|
    withKeyMessage c 8 40 1216 s (fun _ s =>
      if !s.vaultFree then refuseKeeping .notPermitted 5 s
      else keeping s <| withEnrol s (fun p =>
        if c.parB 48 32 ≠ sha256 p.1 then .refuse .keyInvalid 0 0
        else
          let ct := c.parB 80 1088
          let key := hkdf (kemOpen p.2 ct) (sha256 ct) (ascii "LN7300-OWNER" ++ s.identityHash)
          match gcmOpen key (zeros 12) (c.block.take 80) (c.parB 1168 48) with
          | none => refuseKeeping .authFail 0 s
          | some mrs =>
            let s := s.updTrust (fun x => { x with owner := some { ownHash := sha256 p.1, counter := 0 }, enrol := none })
            let s := installOwnerKeys mrs (sha256 p.1) (dropKeys (· == .enrolDk) s)
            ok 0 (wantEnrol (postKeyChanged 7 0xFF 0 s))))

/-- OWNER_ENROL. -/
def execOwnerEnrol (cid : Nat) (s : State) : Host.Outcome State Fault Refusal := .next (runRow .ownerEnrol opOwnerEnrol cid s)

/-- A new pair of a job is held as staged (R295, R297). -/
def stageJobPair (j : Nat) (seed : Bytes) (s : State) : State :=
  let s := installKey (.stagedDk j) (kemPair seed).2 (s.updJob j (fun jb => { jb with staged := some (kemPair seed).1 }))
  postKeyChanged 5 j (((s.job? j).map (·.ekSerial.toNat)).getD 0) s

/-- The job pair's random bytes, then the pair (R297). -/
def updatePair (cid j : Nat) (s : State) : Verdict :=
  if (s.job? j).isNone then notPermitted 1 else withRandom cid 2 64 (fun seed s => ok 0 (stageJobPair j seed s)) s

/-- KEY_UPDATE (R297). -/
def opKeyUpdate (cid : Nat) (c : Cmd) (s : State) : Verdict :=
  if c.phase = .working then updatePair cid (c.par 2 1) s
  else
    checks [resInline c 0 32, (c.body.length == 128, 12), (c.par 0 1 == 1, blockAt 0), (c.par 1 1 == 1 || c.par 1 1 == 2, blockAt 1),
        (if c.par 1 1 = 2 then decide (c.par 2 1 < 16) else c.par 2 1 == 0xFF, blockAt 2), resBlock c 3 5,
        (if c.par 1 1 = 2 then resBlock c 48 48 else (true, 0)), c.jobIs (c.par 2 1)] <|
      withKeyMessage c 8 40 96 s (fun t s =>
        if c.par 1 1 = 2 then keeping s (updatePair cid (c.par 2 1) s)
        else if s.trust.set.isSome then refuseKeeping .notPermitted 3 s
        else match openField c t "KUPD" 48 s with
          | none => refuseKeeping .authFail 0 s
          | some bk => ok 0 (postKeyChanged 0 0xFF 0 (replaceBk bk (s.trust.kgen + 1) s)))

/-- KEY_UPDATE. -/
def execKeyUpdate (cid : Nat) (s : State) : Host.Outcome State Fault Refusal := .next (runRow .keyUpdate opKeyUpdate cid s)

/-- DEVSET_ENROL (R298). -/
def opDevsetEnrol (_ : Nat) (c : Cmd) (s : State) : Verdict :=
  checks [resInline c 0 32, (c.body.length == 176, 12), (c.par 0 1 == 1, blockAt 0), (c.par 1 1 < 2, blockAt 1),
      (c.par 2 2 < c.par 4 2, blockAt 2), (2 ≤ c.par 4 2 ∧ c.par 4 2 ≤ 512, blockAt 4), resBlock c 6 2,
      (!c.parZero 8 16, blockAt 8), (if c.par 1 1 = 1 then resBlock c 64 48 else (true, 0))] <|
    withKeyMessage c 24 56 144 s (fun t s =>
      if c.par 1 1 = 0 then
        if s.trust.set.isSome then refuseKeeping .notPermitted 3 s
        else if !s.vaultFree then refuseKeeping .notPermitted 5 s
        else match openField c t "DSET" 64 s with
          | none => refuseKeeping .authFail 0 s
          | some bk =>
            let d : DeviceSet := { id := c.parB 8 16, member := c.par 2 2, members := c.par 4 2, hash := c.parB 112 32 }
            let s := replaceBk bk 1 (s.updTrust (fun x => { x with set := some d, staged := none }))
            ok 0 (postKeyChanged 3 0xFF 0 (dropKeys (· == .stagedSet) s))
      else if s.trust.set.map (·.id) ≠ some (c.parB 8 16) then refuseKeeping .notPermitted 4 s
      else if !s.vaultFree then refuseKeeping .notPermitted 5 s
      else
        let s := replaceBk (s.standaloneBk (s.using .tenantRoot)) 0 (s.updTrust (fun x => { x with set := none }))
        ok 0 (postKeyChanged 4 0xFF 0 s))

/-- DEVSET_ENROL. -/
def execDevsetEnrol (cid : Nat) (s : State) : Host.Outcome State Fault Refusal :=
  .next (runRow .devsetEnrol opDevsetEnrol cid s)

/-- The possession proof of a member under a set key (R299). -/
def possession (key set : Bytes) (member : Nat) (idHash : Bytes) (gen : Nat) : Bytes :=
  hmac key (ascii "LN7300-POSS" ++ set ++ toLE 2 member ++ idHash ++ toLE 4 gen)

/-- KEY_STAGE (R299). -/
def opKeyStage (_ : Nat) (c : Cmd) (s : State) : Verdict :=
  checks ([resInline c 0 32, (c.body.length == 160, 12), (c.par 0 1 == 1, blockAt 0), resBlock c 1 7]
      ++ outChecks c.block 144 64) <|
    if (outAt c.block 144 true).len < 32 then .refuse .badParam (blockAt 152) 32
    else if !s.shuttleOpen then .stalls
    else withKeyMessage c 24 56 112 s (fun t s =>
      match s.trust.set with
      | none => refuseKeeping .notPermitted 3 s
      | some d =>
        if d.id ≠ c.parB 8 16 then refuseKeeping .notPermitted 4 s
        else match openField c t "KSTG" 64 s with
          | none => refuseKeeping .authFail 0 s
          | some key =>
            let gen := s.trust.kgen + 1
            let proof := possession key d.id d.member s.identityHash gen.toNat
            keeping s <| writeOut (outAt c.block 144 true) (blockAt 152) proof (fun s =>
              ok 0 (postKeyChanged 1 0xFF 0 (installKey .stagedSet key (s.updTrust (fun x => { x with staged := some gen }))))) s)

/-- KEY_STAGE. -/
def execKeyStage (cid : Nat) (s : State) : Host.Outcome State Fault Refusal := .next (runRow .keyStage opKeyStage cid s)

/-- The entries of a KEY_COMMIT name the members of the set, this device in its place (R300 check 2). -/
def membersMatch (c : Cmd) (d : DeviceSet) (idHash : Bytes) : Bool :=
  c.block.length == 112 + 64 * d.members && d.id == c.parB 8 16
    && sha256 ((List.range d.members).map (fun m => c.parB (112 + 64 * m) 32)).flatten == d.hash
    && c.parB (112 + 64 * d.member) 32 == idHash

/-- The first member whose proof fails (R300 check 3). -/
def badProof? (c : Cmd) (d : DeviceSet) (key : Bytes) (gen : Nat) : Option Nat :=
  (List.range d.members).find? (fun m =>
    c.parB (144 + 64 * m) 32 != possession key d.id m (c.parB (112 + 64 * m) 32) gen)

/-- KEY_COMMIT (R300). -/
def opKeyCommit (_ : Nat) (c : Cmd) (s : State) : Verdict :=
  checks [resInline c 0 32, (240 ≤ c.body.length ∧ c.body.length ≤ 32880 ∧ (c.body.length - 112) % 64 = 0, 12),
      (c.par 0 1 == 1, blockAt 0), resBlock c 1 7, resBlock c 68 12] <|
    withKeyMessage c 24 56 80 s (fun _ s =>
      match s.trust.staged, s.trust.set with
      | some gen, some d =>
        if gen.toNat ≠ c.par 64 4 then refuseKeeping .notPermitted 6 s
        else if !membersMatch c d s.identityHash then refuseKeeping .notPermitted 4 s
        else
          let key := s.using .stagedSet
          match badProof? c d key gen.toNat with
          | some m => refuseKeeping .authFail m s
          | none =>
            ok 0 (postKeyChanged 2 0xFF 0 (dropKeys (· == .stagedSet) ((replaceBk key gen s).updTrust (fun x => { x with staged := none }))))
      | some gen, none => refuseKeeping .notPermitted (if gen.toNat ≠ c.par 64 4 then 6 else 4) s
      | none, _ => refuseKeeping .notPermitted 6 s)

/-- KEY_COMMIT. -/
def execKeyCommit (cid : Nat) (s : State) : Host.Outcome State Fault Refusal := .next (runRow .keyCommit opKeyCommit cid s)

/-! ## Registers and the mask stream (R279, the SEC_ page) -/

/-- SEC_STATUS as it reads. -/
def State.secStatus (s : State) : Word64 :=
  placeB 0 s.trust.tenant.isSome ||| placeB 1 s.trust.owner.isSome ||| placeB 2 s.trust.set.isSome
  ||| placeB 3 s.trust.enrol.isSome ||| placeB 4 (s.side.qualified.getLsbD 0) ||| placeB 5 s.trust.romMode
  ||| placeB 6 s.trust.handover.isSome ||| placeB 7 s.trust.staged.isSome
  ||| placeN 16 16 (bitsOf 16 (fun j => (s.job? j).isSome))

/-- SEC_FW as it reads. -/
def State.secFw (s : State) : Word64 :=
  place 0 s.trust.fwVersion ||| placeN 32 11 s.trust.fuses.svn ||| place 43 s.trust.imageSvn
  ||| placeB 54 s.trust.flash.active ||| placeB 55 s.trust.flash.staged

/-- SEC_ID_HASH `i` as it reads. -/
def State.secIdHash (s : State) (i : Nat) : Word64 := BitVec.ofNat 64 (leAt s.identityHash (8 * i) 8)

/-- SEC_KEY_STATE as it reads. -/
def State.secKeyState (s : State) : Word64 :=
  place 0 s.trust.kgen ||| placeN 32 16 s.member ||| placeN 48 16 ((s.trust.set.map (·.members)).getD 0)

/-- SEC_COUNTS as it reads. -/
def State.secCounts (s : State) : Word64 :=
  place 0 s.trust.zeroizes ||| place 16 s.trust.handovers ||| place 32 s.trust.keyRefused

/-- SEC_COUNTS_READ clears KEY_REFUSED. -/
def execSecCountsRead (half : Half) (s : State) : Host.Outcome State Fault Refusal :=
  .next (rcRead half State.secCounts id (fun s => s.updTrust (fun t => { t with keyRefused := 0 })) s)

/-- WORKING_KEY_REMASK: both shares take a fresh mask, once the mask stream is keyed (R279). -/
def execWorkingKeyRemask (s : State) : Host.Outcome State Fault Refusal := .next (if s.rng.bootSeeded then remask s else s)

end Sys2Proof.Machine
end

