-- ==== Sys2Proof/Machine/Tenancy.lean ====
section
/-! DEFINITION. Jobs that open and close, and the erasure of a tenant: handover and zeroization (R55, R140, R295, R301, R302). -/

namespace Sys2Proof.Machine

open Sys2Proof

/-! ## JOB_OPEN (R150, R295) -/

/-- The ingest section's fields (R150). -/
def ingestChecks (c : Cmd) : List Check :=
  [(decide (c.par 8 4 ≤ 16777216), blockAt 8), (decide (c.par 20 4 ≤ 16777216), blockAt 20), (decide (c.par 24 1 < 4), blockAt 24),
   resBlock c 25 15]

/-- A value of the ingest section, or its default for zero. -/
def orDefault (n d : Nat) : Nat := if n = 0 then d else n

/-- Session entries of the open jobs. -/
def State.sessionTotal (s : State) : Nat := (s.accum.jobs.map (fun e => e.2.sessions)).sum

/-- The job that JOB_OPEN's block describes, with its encapsulation key. -/
def newJob (c : Cmd) (ek : Bytes) : Job :=
  { graph := none, mode := none, lastTake := none, filling := none, tokens := [], trigs := List.replicate 64 0
    sessions := c.par 8 4, lifeS := orDefault (c.par 12 4) 86400, sessionMsgs := orDefault (c.par 16 4) 0xFFFFFFFF
    tokensMax := orDefault (c.par 20 4) 16777216, kinds := BitVec.ofNat 2 (c.par 24 1), prg := 0, thresh := 0
    ek := ek, ekSerial := 1, staged := none, pctr := 0, rctr := 0 }

/-- A command closes the job and has not completed. -/
def State.closingJob (s : State) (j : Nat) : Bool := s.cmds.any (fun e => e.2.work == .closing j)

/-- JOB_OPEN takes effect: the job, and its keys in the store (R291, R295). -/
def openJob (c : Cmd) (j : Nat) (jsec : Bytes) (pair : Bytes × Bytes) (s : State) : State :=
  let s := installKey (.jobDk j) pair.2 (installJobKeys j jsec s)
  { s with accum := { s.accum with jobs := Table.put s.accum.jobs j (newJob c pair.1) } }

/-- JOB_OPEN (R295). -/
def opJobOpen (cid : Nat) (c : Cmd) (s : State) : Verdict :=
  let j := c.par 0 1
  checks ([resInline c 0 32, (c.body.length == 96, 12), (decide (j < 16), blockAt 0), c.jobIs j, resBlock c 1 7] ++ ingestChecks c
      ++ [resBlock c 40 8]) <|
    if (s.job? j).isSome || s.closingJob j then notPermitted 1
    else if s.sessionTotal + c.par 8 4 > 16777216 then .refuse .noResource 0 0
    else match s.trust.tenant with
      | none => notPermitted 0
      | some _ =>
        match gcmOpen (s.using .delivery) (ascii "JSEC" ++ toLE 8 c.counter) (c.block.take 48) (c.parB 48 48) with
        | none => .refuse .authFail 0 0
        | some jsec => withRandom cid 2 64 (fun seed s => ok 0 (openJob c j jsec (kemPair seed) (loadNamed .delivery s))) s

/-- JOB_OPEN. -/
def execJobOpen (cid : Nat) (s : State) : Host.Outcome State Fault Refusal := .next (runRow .jobOpen opJobOpen cid s)

/-! ## JOB_CLOSE (R55, R140) -/

/-- Every group of the job may close. -/
def State.mayCloseJob (s : State) (j : Nat) (jb : Job) : Bool :=
  jb.filling.isNone && (s.jobGroups j).all (fun e => s.mayClose e.1 e.2)

/-- Objects and keys of a job are erased; POLY commands of the job that use them end. -/
def eraseJobObjects (j : Nat) (s : State) : State :=
  let mine := s.poly.objects.filter (fun e => e.1 / 4096 = j)
  let s := abortCmds (fun _ c => c.op.isPoly && c.job == j) s
  let s := mine.foldl (fun s e => dealloc (.gateObject e.1) (dealloc (.object e.1) s)) s
  { s with
    poly := { s.poly with objects := s.poly.objects.filter (fun e => e.1 / 4096 ≠ j) }
    gate := { s.gate with polyItems := s.gate.polyItems.filter (fun e => e.1 / 4096 ≠ j) } }

/-- A job closes: its groups, connections, listeners, sessions, objects, vault slots and keys go, and its regions revoke. -/
def closeJob (j : Nat) (s : State) : State :=
  let s := dropHeld j (fun _ => true) s
  let s := (s.jobGroups j).foldl (fun s e => closeGroup e.1 e.2 s) s
  let s := (s.ingest.msgs.filter (fun e => e.2.job = j)).foldl (fun s e => dropMsg e.1 s) s
  let s := (s.trans.conns.filter (fun e => e.2.job = j)).foldl (fun s e => closeConn e.1 s) s
  let s := eraseJobObjects j s
  let s := (s.masks.ledgers.filter (fun e => e.1 / 2 = j)).foldl (fun s e => freeLedger e.1 s) s
  let s := (List.range 8).foldl (fun s i => if (s.vaultSlot? i).any (fun k => k.job == j) then eraseSlot i s else s) s
  let s := dropKeys (fun n => n.ofJob j) s
  { s with
    trans := { s.trans with listeners := s.trans.listeners.filter (fun e => e.2.job ≠ j),
                            regions := Table.mapAll s.trans.regions (fun _ r => if r.job = j then { r with revoking := true } else r) }
    ingest := { s.ingest with sessions := s.ingest.sessions.filter (fun e => e.2.job ≠ j) }
    gate := { s.gate with defaults := Table.del s.gate.defaults j }
    accum := { s.accum with jobs := Table.del s.accum.jobs j, claimed := s.accum.claimed.filter (fun x => x.1 ≠ j) } }

/-- Some region of a job has not been freed. -/
def State.regionsLeft (s : State) (j : Nat) : Bool := s.trans.regions.any (fun e => e.2.job == j)

/-- JOB_CLOSE (R55, R140). -/
def opJobClose (cid : Nat) (c : Cmd) (s : State) : Verdict :=
  checks [resInline c 0 32] <|
    match s.job? c.job with
    | none => notPermitted 0
    | some jb =>
      if !s.mayCloseJob c.job jb then notPermitted 0
      else
        let s := closeJob c.job s
        if s.regionsLeft c.job then .goes (commit cid (.closing c.job) s) else ok 0 s

/-- JOB_CLOSE. -/
def execJobClose (cid : Nat) (s : State) : Host.Outcome State Fault Refusal := .next (runRow .jobClose opJobClose cid s)

/-- JOB_CLOSE commands whose job has no region left complete. -/
def finishClosing (s : State) : State :=
  (s.cmds.filter (fun e => match e.2.work with | .closing j => !s.regionsLeft j | _ => false)).foldl
    (fun s e => complete e.1 .ok 0 0 s) s

/-- REGION_FREED: nothing is in flight in a revoking region; it is freed, and what waits for it completes (R140). -/
def execRegionFreed (index : Nat) (s : State) : Host.Outcome State Fault Refusal := .next (finishClosing (regionFreed index s))

/-! ## The transport's end (R142) -/

/-- Every connection and listener closes with no packet sent, every work request is discarded and every region revokes (R142). -/
def closeTransport (s : State) : State :=
  let s := s.trans.conns.foldl (fun s e => connError e.1 4 0 s) s
  let s := { s with
    trans := { s.trans with conns := [], listeners := [],
                            regions := Table.mapAll s.trans.regions (fun _ r => { r with revoking := true, inFlight := 0 }) }
    ingest := { s.ingest with owed := [] }
    pcie := { s.pcie with buffer := s.pcie.buffer.filter (fun e => match e.1 with | .command _ => true | _ => false),
                          asks := s.pcie.asks.filter (fun e => match e.1 with | .command _ => true | _ => false) } }
  finishClosing (s.trans.regions.foldl (fun s e => regionFreed e.1 s) s)

/-! ## The erasure of a tenant (R97, R301 steps 1 to 6) -/

/-- The old tenant's commands (R97): those that name a job, carry a trailer, or have an opcode of a tenant's or a model owner's role, and
those that install a tenant or a key; a counter read is one only with a trailer. -/
def Cmd.oldTenant (c : Cmd) (s : State) : Bool :=
  c.auth || (s.names c c.block).1.isSome || (c.op.tenantRole && c.op != .cntRead) || c.op.keyMessage || c.op == .tenantOpen

/-- Rate-limit windows close, and the summaries that are due are posted first (R114). -/
def closeWindows (s : State) : State :=
  let ws := s.reel.windows.filter (fun w => w.count ≠ 0)
  let s := ws.foldl (fun s w => enterQueue { w.last with summary := true, suppressed := w.count } s) s
  { s with reel := { s.reel with windows := [] } }

/-- Transport, ingest, COMBINE, mask, heddle, gate, Vilmin and generator fields that a read clears (R301 step 6). -/
def clearEngineCounts (s : State) : State :=
  { s with
    trans := { s.trans with ports := s.trans.ports.map (fun p =>
      { p with icvFail := 0, noConn := 0, malformed := 0, creditViolation := 0 }) }
    ingest := { s.ingest with hsRetry := 0, late := 0, maxUs := 0 }
    accum := { s.accum with dropCheck := 0, dropLate := 0 }
    masks := { s.masks with done := 0 }
    poly := { s.poly with keyMismatch := 0, noiseExhausted := 0, tableWaits := 0 }
    gate := { s.gate with cohortRefused := 0, entropyRefused := 0, saturated := 0 }
    trust := { s.trust with keyRefused := 0 }
    rng := { s.rng with reseeds := 0, generates := 0 }
    reel := { s.reel with lost := 0, suppressed := 0 } }

/-- Power, memory, shuttle, warp, fault, collector and sideband fields that a read clears (R301 step 6). -/
def clearUnitCounts (s : State) : State :=
  { s with
    power := { s.power with c1Windows := 0, c2Windows := 0, thermalWindows := 0 }
    mem := { s.mem with
      bobbins := s.mem.bobbins.map (fun k => { k with corrected := 0, uncorrectable := 0, latePasses := 0 })
      sramCorrected := 0, sramUncorrectable := 0, stagingMiss := 0 }
    pcie := { s.pcie with barErrCount := 0, bytesRead := 0, bytesWritten := 0, preempts := 0, maxWaitNs := 0 }
    warp := { s.warp with links := s.warp.links.map (fun l =>
      { l with replays := 0, retrains := 0, starved := 0, laneErr := List.replicate 9 (0, 0) }) }
    faults := { s.faults with engines := 0, coreRecoveries := 0, fieldRecoveries := 0, migrations := 0, cpRestarts := 0,
                              cpTakeovers := 0,
                              cores := s.faults.cores.map (fun c =>
                                { c with engineFaults := List.replicate 8 0, tiles := 0, rewinds := 0 }) }
    counters := { s.counters with missed := 0, dropped := 0, denied := 0 }
    side := { s.side with counts := List.replicate 5 (0, 0) } }

/-- Slot values, sample counters, the trace buffer and dailies go; programming and trace settings stay (R301 step 6, R425). -/
def clearCollector (s : State) : State :=
  { s with counters := { s.counters with
      slots := s.counters.slots.map (fun k => { k with value := 0, ovf := false, left := 0, due := 0 })
      dailies := false, log2 := 4, periodMs := 10, base := 0, tail := 0, head := 0, phase := true, missedRec := 0, dseq := 0
      snapshot := none, trace := [], samples := 0 } }

/-- HCOUNT rises and every memory encryption key is replaced, at one point in each base die's request order (R290, R301 step 3, R351). -/
def replaceMemoryKeys (s : State) : State := rotateKeys (deliverMemoryKeys (s.updTrust (fun t => { t with hcount := t.hcount + 1 })))

/-- Groups, ledgers, gate, vault, sessions, allocations and routes of the old tenant are erased (R301 steps 4 and 5). -/
def eraseStores (s : State) : State :=
  { s with
    ingest := { s.ingest with msgs := [], hsQueue := [], keyOrder := [], sessions := [], owed := [] }
    accum := { s.accum with jobs := [], groups := [], held := [], claimed := [] }
    masks := { s.masks with ledgers := [] }
    gate := { s.gate with policies := [], defaults := [], items := [], polyItems := [], slots := List.replicate 8 none }
    mem := { s.mem with allocs := [] }
    warp := { s.warp with routes := [], exported := [] } }

/-- Vilmin's store is emptied of the tenant's keys, its set, its owner and its policy (R291, R301 step 5); the enrolment pair stands. -/
def eraseKeys (s : State) : State :=
  (dropKeys (· != .enrolDk) s).updTrust (fun t => { t with tenant := none, owner := none, kgen := 0, staged := none, set := none, macKey := [] })

/-- Nonce pools are emptied, and ask for new nonces (R320). -/
def emptyPools (s : State) : State :=
  refillPools (s.updRng (fun g => { g with pools := List.replicate 16 [], requests := g.requests.filter (fun q => !q.forPool) }))

/-- Steps 1 to 6 of R301. -/
def eraseTenant (s : State) : State :=
  let s := abortCmds (fun _ c => c.oldTenant s) s
  let s := closeWindows s
  let s := erasePoly (eraseUnreleased s)
  let s := eraseStores (closeTransport { s with ingest := { s.ingest with msgs := [] } })
  let s := eraseKeys (replaceMemoryKeys s)
  clearCollector (clearUnitCounts (clearEngineCounts (emptyPools s)))

/-- TENANT_HANDOVER: it waits for one that runs, commits at acceptance and erases the tenant; a reseed is due and the settle starts (R88, R301,
R314). -/
def opTenantHandover (cid : Nat) (c : Cmd) (s : State) : Verdict :=
  checks [resInline c 0 32] <|
    if s.trust.handover.isSome then .waits
    else
      let s := (eraseTenant (commit cid .none s)).updRng (fun g => { g with reseedDue := g.reseedDue || g.mode == .ready })
      .goes ((s.updTrust (fun t => { t with handover := some { cid := cid, settleStart := s.ms } })).updPower (·.beginSettle))

/-- TENANT_HANDOVER. -/
def execTenantHandover (cid : Nat) (s : State) : Host.Outcome State Fault Refusal :=
  .next (runRow .tenantHandover opTenantHandover cid s)

/-- Serves waiting requests in their order until a consumer's request has been served (R318); `fuel` bounds the generate requests. -/
def serveUntil (who : Consumer) : Nat → State → State
  | 0, s => s
  | fuel + 1, s => if s.rng.requests.any (fun q => q.consumer = who) then serveUntil who fuel (generate s) else s

/-- Bytes that waiting requests lack: at least as many as generate requests that serve them. -/
def Rng.lacking (g : Rng) : Nat := (g.requests.map (·.left)).sum

/-- A new enrolment pair, if the DRBG can supply one: its 64 bytes are served in their turn (R291, R301 step 8, R318). -/
def newEnrol (s : State) : State :=
  if s.rng.mode ≠ .ready then s
  else
    let s := wantEnrol s
    serveUntil .enrol s.rng.lacking s

/-- The settle has lasted long enough to end: 1 s once it has converged, 10 s otherwise (R301 step 7). -/
def Handover.mayEnd (h : Handover) (settled : Bool) (now : Nat) : Bool := decide (h.settleStart + (if settled then 1000 else 10000) ≤ now)

/-- HANDOVER_SETTLE_END, which has its effect where the fields' temperatures bear out what it comes for: the reseed that the handover has
made due runs, the pair is generated, TENANT_CHANGED is posted and the command completes (R301 steps 7 and 8, R314, R323). -/
def settleEnd (settled : Bool) (fresh0 fresh1 : Bytes) (s : State) : State :=
  match s.trust.handover with
  | none => s
  | some h =>
    if settled ≠ s.power.converged ∨ !h.mayEnd settled s.ms then s
    else
      let s := if s.rng.mode = .ready ∧ s.reseedDue then reseedOp fresh0 fresh1 s else s
      let s := newEnrol s
      let s := s.updTrust (fun t => { t with handover := none, handovers := satAdd t.handovers 1 })
      let s := forCommand h.cid (post .tenantChanged 0x06 0 nobody nobody
        ([1, if settled then 1 else 0, 0, 0] ++ toLE 4 (s.ms - h.settleStart))) (s.updPower (·.endSettle))
      complete h.cid .ok 0 0 (creditMoved s)

/-- HANDOVER_SETTLE_END. -/
def execHandoverSettleEnd (settled : Bool) (fresh0 fresh1 : Bytes) (s : State) : Host.Outcome State Fault Refusal :=
  .next (settleEnd settled fresh0 fresh1 s)

/-! ## Zeroization (R302, R308, R323) -/

/-- A qualified ZEROIZE_N assertion: requests for random bytes end, uncommitted envelopes are refused, the tenant and the enrolment
pair are erased, and ZEROIZED is posted (R302). -/
def zeroize (s : State) : State :=
  let had := s.trust.tenant.isSome
  let s := failRequests .zeroized s
  let aborted := (s.cmds.filter (fun e => e.2.oldTenant s)).length
  let s := s.uncommitted.foldl (fun s i => refuseMsg i 1 .zeroized 0 s) s
  let s := eraseTenant s
  let s := dropKeys (· == .enrolDk) (s.updTrust (fun t => { t with enrol := none, zeroizes := satAdd t.zeroizes 1 }))
  let s := if s.rng.bootSeeded then unseed .zeroization s else s
  let s := if had then post .tenantChanged 0x06 0 nobody nobody ([2, 0, 0, 0] ++ toLE 4 0) s else s
  post .zeroized 0x0D 0 nobody nobody
    (toLE 4 s.trust.zeroizes.toNat ++ [if had then 1 else 0, 0, 0, 0] ++ toLE 4 aborted) s

end Sys2Proof.Machine
end

