-- ==== Sys2Proof/Machine/Pcie.lean ====
section
/-! DEFINITION. The PCI Express function: configuration space, power states, refused accesses, interrupts and the DMA_ page (R364
to R382). -/

namespace Sys2Proof.Machine

open Sys2Proof

/-- Changes the function. -/
def State.updPcie (s : State) (f : Pcie → Pcie) : State := { s with pcie := f s.pcie }

/-! ## Configuration space (R365, R366) -/

/-- What was last written to a configuration double word. -/
def Pcie.lastWritten (p : Pcie) (off : Nat) : Word32 := (Table.get? p.config off).getD 0

/-- Bits of a double word that this model fixes, over what PCI Express leaves there. -/
def overlay (known value free : Word32) : Word32 := (value &&& known) ||| (free &&& ~~~known)

/-- A number at bit `lo` of a double word. -/
def dw (lo v : Nat) : Word32 := BitVec.ofNat 32 (v * 2 ^ lo)

/-- A flag at bit `i` of a double word. -/
def dwB (i : Nat) (b : Bool) : Word32 := if b then 1#32 <<< i else 0

/-- Size of BAR 0, 2 and 4 (R369). -/
def barSize (k : Nat) : Nat := match k with | 0 => 67108864 | 1 => 16777216 | _ => 1073741824

/-- A base address register as it reads: 64-bit, BAR4 prefetchable. -/
def Pcie.barReg (p : Pcie) (k : Nat) : Word64 :=
  (unit p.bars k &&& ~~~(BitVec.ofNat 64 (barSize k - 1))) ||| (if k = 2 then 0xC else 0x4)

/-- Structures of the capability lists: offset, ID, version, next offset (R366; log entry 41). -/
def extCaps : List (Nat × Nat × Nat × Nat) :=
  [(0x100, 0x0001, 2, 0x180), (0x180, 0x0003, 1, 0x190), (0x190, 0x0019, 1, 0x200), (0x200, 0x0025, 1, 0x210),
   (0x210, 0x0026, 1, 0x250), (0x250, 0x002A, 1, 0x290), (0x290, 0x0027, 1, 0)]

/-- A configuration double word as it reads (R364 to R366): the options of R364 stand at the places that PCI Express gives them
(log entry 41). -/
def State.configDword (s : State) (off : Nat) : Word32 :=
  let p := s.pcie
  let f := s.trust.fuses
  let free := Config.configReg off (p.lastWritten off)
  match off with
  | 0x00 => dw 16 (if f.orderCode = 1 then 0x7300 else 0x7301) ||| 0x1F63
  | 0x04 => overlay 0x00100006 (dwB 1 p.memSpace ||| dwB 2 p.busMaster ||| 0x00100000) free
  | 0x08 => 0x12000000 ||| dw 0 (f.stepping % 256)
  | 0x0C => overlay 0x00FF0000 0 free
  | 0x10 => (p.barReg 0).setWidth 32
  | 0x14 => (p.barReg 0 >>> 32).setWidth 32
  | 0x18 => (p.barReg 1).setWidth 32
  | 0x1C => (p.barReg 1 >>> 32).setWidth 32
  | 0x20 => (p.barReg 2).setWidth 32
  | 0x24 => (p.barReg 2 >>> 32).setWidth 32
  | 0x2C => 0x00011F63
  | 0x30 => 0
  | 0x34 => 0x40
  | 0x3C => overlay 0x0000FF00 0 free
  | 0x40 => 0x00035001
  | 0x44 => overlay 0x0000810B (dw 0 (if p.d3hot then 3 else 0) ||| 0x8) free
  | 0x50 => 0x0002A010
  | 0x54 => overlay 0x1000003F 0x10000022 free
  | 0x58 => overlay 0x0000F3F0 (dwB 4 p.relaxedOrdering ||| dw 5 p.maxPayload.toNat ||| dwB 8 p.extendedTag
      ||| dw 12 p.maxReadRequest.toNat) free
  | 0x5C => overlay 0x00000FFF 0x00000105 free
  | 0x60 => overlay 0x03FF000B (dw 16 p.speed.toNat ||| dw 20 p.width.toNat) free
  | 0x74 => overlay 0x000F3BFF 0x00030003 free
  | 0x78 => overlay 0x000074F0 (dwB 12 p.tenBitTag) free
  | 0x7C => overlay 0x007FFEFE 0x0000003E free
  | 0xA0 => 0x00FF0011 ||| dwB 30 p.functionMask ||| dwB 31 p.msixEnable
  | 0xA4 => 0x00001000
  | 0xA8 => 0x00002000
  | 0x118 => overlay 0x000009E0 (0x000000A0 ||| (p.lastWritten off &&& 0x140)) free
  | 0x184 => BitVec.ofNat 32 (leAt f.serial 0 4)
  | 0x188 => BitVec.ofNat 32 (leAt f.serial 4 4)
  | 0x204 => overlay 0x00000001 0x00000001 free
  | 0x254 => overlay 0x00000600 0 free
  | _ =>
    match extCaps.find? (fun e => e.1 = off) with
    | some (_, id, ver, next) => dw 20 next ||| dw 16 ver ||| dw 0 id
    | none => if off < 0x2D8 then free else 0

/-- Bits that a masked write changes. -/
def merge32 (m v old : Word32) : Word32 := (v &&& m) ||| (old &&& ~~~m)

/-- Bus Master Enable, Memory Space Enable and the power state take effect, and what waited for the shuttle leaves (R373). -/
def setPowerState (bus mem d3 : Bool) (s : State) : State :=
  flushShuttle (s.updPcie (fun p => { p with busMaster := bus, memSpace := mem, d3hot := d3 }))

/-- A masked write of a configuration double word. A Max_Payload_Size or Max_Read_Request_Size that R364 does not support leaves the
field as it was (DESIGN CHOICE, log entry 41). -/
def configStore (off : Nat) (m v : Word32) (s : State) : State :=
  let p := s.pcie
  let w := merge32 m v (s.configDword off)
  let setBar (k : Nat) (high : Bool) : State :=
    s.updPcie (fun p => { p with bars := p.bars.modify k (fun b =>
      if high then (b &&& 0xFFFFFFFF) ||| ((w.setWidth 64) <<< 32) else (b &&& 0xFFFFFFFF00000000) ||| w.setWidth 64) })
  match off with
  | 0x04 =>
    (setPowerState (w.getLsbD 2) (w.getLsbD 1) p.d3hot s).updPcie (fun p => { p with config := Table.put p.config off w })
  | 0x10 => setBar 0 false
  | 0x14 => setBar 0 true
  | 0x18 => setBar 1 false
  | 0x1C => setBar 1 true
  | 0x20 => setBar 2 false
  | 0x24 => setBar 2 true
  | 0x44 =>
    let d3 : Bool := if w &&& 3 = 3 then true else if w &&& 3 = 0 then false else p.d3hot
    (setPowerState p.busMaster p.memSpace d3 s).updPcie (fun p => { p with config := Table.put p.config off w })
  | 0x58 =>
    let held (lo top : Nat) (old : BitVec 3) : BitVec 3 := if (w.extractLsb' lo 3).toNat ≤ top then w.extractLsb' lo 3 else old
    s.updPcie (fun p => { p with relaxedOrdering := w.getLsbD 4, maxPayload := held 5 2 p.maxPayload, extendedTag := w.getLsbD 8,
                                 maxReadRequest := held 12 5 p.maxReadRequest, config := Table.put p.config off w })
  | 0x78 => s.updPcie (fun p => { p with tenBitTag := w.getLsbD 12, config := Table.put p.config off w })
  | 0xA0 => s.updPcie (fun p => { p with functionMask := w.getLsbD 30, msixEnable := w.getLsbD 31 })
  | _ => s.updPcie (fun p => { p with config := Table.put p.config off (merge32 m v (p.lastWritten off)) })

/-- A configuration request, or Configuration Request Retry Status before configuration is ready (R368). -/
def configAccess (a : ConfigAccess) (s : State) : State :=
  if !s.pcie.ready then emit .configRetry s
  else match a with
    | .load off => emit (.configData (s.configDword (off / 4 * 4))) s
    | .store off m v => emit .configDone (configStore (off / 4 * 4) m v s)

/-- CONFIG_REQUEST. -/
def execConfigRequest (access : ConfigAccess) (s : State) : Host.Outcome State Fault Refusal := .next (configAccess access s)

/-- POWER_STATE_CHANGE (R373). -/
def execPowerStateChange (busMaster memSpace d3hot : Bool) (s : State) : Host.Outcome State Fault Refusal :=
  .next (if s.pcie.ready then setPowerState busMaster memSpace d3hot s else s)

/-- PCIE_LINK_RETRAIN: the link comes up at a speed of 1 to 5 and 8 or 16 lanes (R367). -/
def execPcieLinkRetrain (speed : BitVec 3) (width : BitVec 5) (s : State) : Host.Outcome State Fault Refusal :=
  .next (if s.side.inWarmReset ∨ speed = 0 ∨ 5 < speed.toNat ∨ ¬ (width = 8 ∨ width = 16) then s
    else s.updPcie (fun p => { p with linkUp := true, speed := speed, width := width }))

/-! ## Accesses that break R370 -/

/-- A BAR access of a wrong size or alignment: zeros or nothing, and a count (R370). -/
def badAccess (bar2 : Bool) (offset : BitVec 26) (store : Bool) (s : State) : State :=
  let s := s.updPcie (fun p => { p with err := p.err ||| (1#7 <<< 6), barErrCount := satAdd p.barErrCount 1, barErrOffset := offset,
                                        barErrBar2 := bar2 })
  if store then s else emit (.readData 0) s

/-- BAR_BAD_ACCESS. -/
def execBarBadAccess (bar2 : Bool) (offset : BitVec 26) (store : Bool) (s : State) : Host.Outcome State Fault Refusal :=
  .next (atBar (badAccess bar2 offset store) s)

/-! ## MSI-X (R372) -/

/-- A vector's signal is pending and nothing masks it. -/
def State.msixDue (s : State) (v : Nat) : Bool :=
  s.pcie.pba.getLsbD v && s.pcie.msixEnable && !s.pcie.functionMask && !(unit s.pcie.table v).mask

/-- MSIX_VECTOR_UNMASK: the pending message is sent (R372). -/
def execMsixVectorUnmask (vector : Nat) (s : State) : Host.Outcome State Fault Refusal :=
  .next (if s.msixDue vector then sendMsix vector s else s)

/-- A write of half or all of an MSI-X table entry's 16 bytes at offset `off` of the table, by mask. -/
def msixStore (off : Nat) (m v : Word64) (s : State) : State :=
  s.updPcie (fun p => { p with table := p.table.modify (off / 16) (fun e =>
    if off % 16 = 0 then { e with addr := (v &&& m) ||| (e.addr &&& ~~~m) }
    else { e with data := merge32 (m.setWidth 32) (v.setWidth 32) e.data, mask := if m.getLsbD 32 then v.getLsbD 32 else e.mask }) })

/-- The 8 bytes of the MSI-X table at offset `off`. -/
def Pcie.msixLoad (p : Pcie) (off : Nat) : Word64 :=
  let e := unit p.table (off / 16)
  if off % 16 = 0 then e.addr else place 0 e.data ||| placeB 32 e.mask

/-! ## The DMA_ page (R382) -/

/-- DMA_CTRL as it reads. -/
def Pcie.dmaCtrl (p : Pcie) : Word64 := place 0 p.addrBits ||| placeB 7 p.roBulk

/-- A write of DMA_CTRL: widths other than 32 to 64 read back 64. -/
def writeDmaCtrl (m v : Word64) (s : State) : State :=
  s.updPcie (fun p =>
    let a := maskField m v 0 p.addrBits
    { p with addrBits := if 32 ≤ a.toNat ∧ a.toNat ≤ 64 then a else 64, roBulk := maskFlag m v 7 p.roBulk })

/-- Bulk channels in flight (R379): bulk commands and connections whose reads have not all been delivered (log entry 42). -/
def State.dmaChannels (s : State) : Nat :=
  let cmds := (s.cmds.filter (fun e => !e.2.op.row.control && decide (e.2.input.length < e.2.inputLen))).length
  let conns := (s.trans.conns.filter (fun e => e.2.wrs.any (fun w => w.fetched.isSome) || !e.2.answers.isEmpty)).length
  min 64 (cmds + conns)

/-- DMA_STATUS as it reads. -/
def State.dmaStatus (s : State) : Word64 :=
  let p := s.pcie
  placeB 0 p.linkUp ||| place 1 p.speed ||| place 4 p.width ||| placeB 9 p.busMaster ||| placeB 10 p.d3hot
  ||| placeN 16 7 s.dmaChannels ||| placeN 32 12 (min 2048 (((p.buffer.map (fun e => e.2.2.length)).sum + 1023) / 1024))

/-- DMA_BAR_ERR as it reads. -/
def Pcie.dmaBarErr (p : Pcie) : Word64 := place 0 p.barErrCount ||| place 32 p.barErrOffset ||| placeB 58 p.barErrBar2

/-- DMA_PREEMPT as it reads, coarsened (R421). -/
def State.dmaPreempt (s : State) : Word64 := place 0 (s.coarse s.pcie.preempts) ||| place 32 (s.coarse s.pcie.maxWaitNs)

/-- DMA_BAR_ERR_READ clears COUNT. -/
def execDmaBarErrRead (half : Half) (s : State) : Host.Outcome State Fault Refusal :=
  .next (rcRead half (·.pcie.dmaBarErr) (fun s => s.updPcie (fun p => { p with barErrCount := 0 })) id s)

/-- DMA_BYTES_READ_READ clears the halves it returns. -/
def execDmaBytesReadRead (half : Half) (s : State) : Host.Outcome State Fault Refusal :=
  .next (rcRead half (fun s => s.coarse s.pcie.bytesRead)
    (fun s => s.updPcie (fun p => { p with bytesRead := p.bytesRead &&& 0xFFFFFFFF00000000 }))
    (fun s => s.updPcie (fun p => { p with bytesRead := p.bytesRead &&& 0xFFFFFFFF })) s)

/-- DMA_BYTES_WRITTEN_READ clears the halves it returns. -/
def execDmaBytesWrittenRead (half : Half) (s : State) : Host.Outcome State Fault Refusal :=
  .next (rcRead half (fun s => s.coarse s.pcie.bytesWritten)
    (fun s => s.updPcie (fun p => { p with bytesWritten := p.bytesWritten &&& 0xFFFFFFFF00000000 }))
    (fun s => s.updPcie (fun p => { p with bytesWritten := p.bytesWritten &&& 0xFFFFFFFF })) s)

/-- DMA_PREEMPT_READ clears COUNT and MAX_NS. -/
def execDmaPreemptRead (half : Half) (s : State) : Host.Outcome State Fault Refusal :=
  .next (rcRead half State.dmaPreempt (fun s => s.updPcie (fun p => { p with preempts := 0 }))
    (fun s => s.updPcie (fun p => { p with maxWaitNs := 0 })) s)

end Sys2Proof.Machine
end

