-- ==== Sys2Proof/Machine/Time.lean ====
section
/-! DEFINITION. Powered time: the counter and its mirrors, the oscillators' trim, and the two 32-bit reads of SEC_PTIME (R21 to R23). -/

namespace Sys2Proof.Machine

open Sys2Proof

/-- Changes the time unit. -/
def State.updTime (s : State) (f : TimeState → TimeState) : State := { s with time := f s.time }

/-- PTIME_MIRROR_UPDATE: a microsecond of powered time passes, and Vilmin updates every mirror (R22, R23; log entry 11). -/
def execPtimeMirrorUpdate (s : State) : Host.Outcome State Fault Refusal :=
  .next (if s.side.step = 0 then s
    else s.updTime (fun t =>
      let now := t.ptime + 1000
      { t with ptime := now, mirrors := t.mirrors.map (fun _ => now) }))

/-- OSC_TRIM: the oscillators are trimmed against the reference that is present (R21). -/
def execOscTrim (s : State) : Host.Outcome State Fault Refusal :=
  .next (if s.time.refPresent ∧ s.side.step ≠ 0 then s.updTime (fun t => { t with trimmed := true, trims := t.trims + 1 }) else s)

/-- REFERENCE_LOST: the oscillators hold their last trim (R21). -/
def execReferenceLost (s : State) : Host.Outcome State Fault Refusal := .next (s.updTime (fun t => { t with refPresent := false }))

/-- REFERENCE_PRESENT (R21). -/
def execReferencePresent (s : State) : Host.Outcome State Fault Refusal := .next (s.updTime (fun t => { t with refPresent := true }))

/-- The row of R21's accuracy table that is in force. -/
def TimeState.oscError (t : TimeState) : OscError :=
  if t.refPresent then .referencePresent else if t.trimmed then .heldTrim else .neverTrimmed

/-- The two halves of PTIME. -/
def TimeState.low (t : TimeState) : Word64 := t.ptime &&& 0xFFFFFFFF
/-- Bits 63 to 32 of PTIME. -/
def TimeState.high (t : TimeState) : Word32 := t.ptime.extractLsb' 32 32

/-- SEC_PTIME_LOW_READ latches the upper half into the shadow (SEC_PTIME note 2). -/
def ptimeLow (s : State) : State :=
  if s.romDead then emit (.readData 0) s
  else emit (.readData s.time.low) (s.updTime (fun t => { t with shadow := some t.high }))

/-- SEC_PTIME_HIGH_READ returns the shadow once, and the live half otherwise. -/
def ptimeHigh (s : State) : State :=
  if s.romDead then emit (.readData 0) s
  else emit (.readData ((s.time.shadow.getD s.time.high).setWidth 64)) (s.updTime (fun t => { t with shadow := none }))

/-- SEC_PTIME_LOW_READ. -/
def execSecPtimeLowRead (s : State) : Host.Outcome State Fault Refusal := .next (atBar ptimeLow s)

/-- SEC_PTIME_HIGH_READ. -/
def execSecPtimeHighRead (s : State) : Host.Outcome State Fault Refusal := .next (atBar ptimeHigh s)

end Sys2Proof.Machine
end

