-- ==== Sys2Proof/Machine/PowerUp.lean ====
section
/-! DEFINITION. The power-up sequence, the resets and the sideband inputs (R426 to R430). -/

namespace Sys2Proof.Machine

open Sys2Proof

/-- Changes the sideband unit. -/
def State.updSide (s : State) (f : Side → Side) : State := { s with side := f s.side }

/-! ## Steps (R426, R435) -/

/-- A step of R426 ends: TST_PHASE shows it, and the console writes its line. -/
def stepDone (n : Nat) (s : State) : State :=
  emit (.uart (some n) s.ms true) (s.updSide (fun d => { d with step := BitVec.ofNat 4 n, halted := false }))

/-- A step fails: HALTED is set. -/
def stepFails (n : Nat) (s : State) : State :=
  emit (.uart (some n) s.ms false) (s.updSide (fun d => { d with halted := true }))

/-! ## The PCI Express link (R367, R368, R375) -/

/-- Test hold or a qualified PERST_N holds the function in reset (R428, R434). -/
def State.pcieHeld (s : State) : Bool := s.side.qualified.getLsbD 3 || s.side.testHold

/-- The warm reset ends: the link trains, at a free speed and width, and configuration becomes ready (R367, R368). -/
def pcieUp (s : State) : State :=
  if s.pcieHeld ∨ !s.power.railsOn then s
  else
    let (v, s) := s.draw
    let s := s.updSide (fun d => { d with inWarmReset := false })
    flushShuttle (s.updPcie (fun p => { p with
      ready := true, linkUp := true, speed := BitVec.ofNat 3 (1 + v.toNat % 5), width := if v.toNat / 8 % 2 = 0 then 8 else 16 }))

/-! ## Bringing units into service (steps 8 to 10; R17, R28, R31) -/

/-- The active processor that takes over a field: the next good one after it in ascending order, wrapping. -/
def cpFor (good : List Nat) (f : Nat) : Option Nat := ((List.range 4).map (fun n => (f + n) % 4)).find? (fun n => good.contains n)

/-- Step 8: processors that pass enter service; CP4 is the spare, or takes the place of the lowest one that fails. -/
def startCps (h : Health) (s : State) : State :=
  let passes (i : Nat) : Bool := h.cpsGood.getLsbD i
  let good := (List.range 4).filter passes
  let bad := (List.range 5).filter (fun i => !passes i)
  let spareFor := if passes 4 then (bad.filter (fun i => decide (i < 4))).head? else none
  let cps : List Cp := (List.range 5).map (fun i =>
    let mine := (List.range 4).filter (fun f => if passes f then f == i else if spareFor == some f then i == 4 else cpFor good f == some i)
    let role : CpRole := if !passes i then .retired else if i = 4 ∧ spareFor.isNone then .spare else .active
    { role := role, recovering := false, fields := BitVec.ofNat 4 (bitsOf 4 (fun f => mine.contains f)), faults := [] })
  let s := s.updFaults (fun f => { f with cps := cps })
  let spares := (cps.filter (fun k => k.role == .spare)).length
  let s := bad.foldl (fun s i => postDegraded 0x05 i 3 i s.activeCps.length spares s) s
  if s.activeCps.length < 2 then goOutOfService s else s

/-- The channels of a stack in slot order, a spare in the place of each that fails, and the spares left (R353). -/
def layChannels (good : BitVec 34) : List Nat × List Nat :=
  (List.range 32).foldl (fun (a : List Nat × List Nat) c =>
    if good.getLsbD c then (a.1 ++ [c], a.2)
    else match a.2 with
      | sp :: rest => (a.1 ++ [sp], rest)
      | [] => a) ([], ([32, 33] : List Nat).filter (fun c => good.getLsbD c))

/-- Step 9 for one stack: it enters service with 16 good channels or more (R354). -/
def startStack (b : Nat) (good : BitVec 34) (s : State) : State :=
  let (map, spares) := layChannels good
  let up := decide (16 ≤ map.length)
  let s := s.updStack b (fun k => { k with
    inService := up, map := if up then map else [], spares := spares, retired := ~~~good, move := none, waiting := [] })
  let s := ((List.range 32).filter (fun c => !good.getLsbD c)).foldl
    (fun s c => postDegraded 0x04 b 4 c map.length spares.length s) s
  if up then s else postDegraded 0x04 b 13 b s.liveStacks.length 0 s

/-- Step 9. -/
def startStacks (h : Health) (s : State) : State :=
  (List.range 8).foldl (fun s b => startStack b (unit h.channelsGood b) s) s

/-- Step 10, crossings: every channel enters service, and those that fail the wire test leave it. -/
def startCrossings (h : Health) (s : State) : State :=
  let whole : CrossingDir := { inService := 0xFFFFFFFFFFFFFFFF, retired := 0, wires := [] }
  let s := s.updFaults (fun f => { f with crossings := List.replicate 8 whole })
  (List.range 8).foldl (fun s i =>
    (bitList 64 (~~~(unit h.crossingsGood i)).toNat).foldl (fun s ch =>
      retireCrossing { kind := 11, unit := 64 * (i / 2) + ch, part := none, upper := i % 2 == 1 } s) s) s

/-- The spare core of a field: the one that the fuses name, or its highest-numbered core (R17). -/
def Fuses.spareOf (f : Fuses) (field : Nat) : Nat :=
  let b := unit f.spareCores field
  if b / 9 = field then b else 9 * field + 8

/-- Step 10, cores: every core takes its role, and those that fail the reset check are retired, spares first (R28). -/
def startCores (h : Health) (s : State) : State :=
  let isSpare (c : Nat) : Bool := s.trust.fuses.spareOf (c / 9) == c
  let roleOf (c : Nat) (k : CoreUnit) : CoreUnit := { k with role := if isSpare c then .spare else .active }
  let s := s.updFaults (fun f => { f with cores := f.cores.mapIdx roleOf })
  let s := s.activeCores.foldl (fun s c => joinHeddle (2 * c + 1) (joinHeddle (2 * c) s)) s
  let bad := (List.range 36).filter (fun c => !h.coresGood.getLsbD c)
  (bad.filter isSpare ++ bad.filter (fun c => !isSpare c)).foldl (fun s c => retireCore c s) s

/-- Step 11: the enrolment pair is generated, and DEVICE_READY is posted (R107, R291; note 4 of R426). -/
def deviceReady (s : State) : State :=
  let s := stepDone 11 s
  let s := s.updSide (fun d => { d with readyMs := BitVec.ofNat 32 s.ms })
  let s := newEnrol s
  let s := if s.trust.enrol.isNone then wantEnrol s else s
  let s := creditMoved (recomputeBase s)
  post .deviceReady 0 0 nobody nobody
    (toLE 8 s.unitStatus.toNat ++ toLE 4 s.trust.fwVersion.toNat ++ toLE 4 s.side.readyMs.toNat) s

/-- A step ends unless an earlier pass has already reached it. -/
def reach11 (n : Nat) (s : State) : State := if s.side.step.toNat < n then stepDone n s else s

/-- Steps 8 to 11, with the processors and cores that are good; steps already done are not repeated. -/
def bringUp (h : Health) (s : State) : State :=
  let s := startCps h s
  if s.faults.outOfService then stepFails 8 s
  else
    let s := reach11 8 s
    let s := if s.side.step.toNat < 9 then stepDone 9 (startStacks h s) else s
    let s := startCores h (if s.side.step.toNat < 10 then startCrossings h s else s)
    if s.faults.outOfService then (if s.side.step.toNat < 10 then stepFails 10 s else s)
    else
      let s := reach11 10 s
      if s.side.step.toNat < 11 then deviceReady s else creditMoved (recomputeBase s)

/-! ## Firmware (step 7; R281, R282, R285, R286) -/

/-- The running version and its SVN, from the active image. -/
def loadImage (s : State) : State :=
  let m := s.trust.flash.activeImage
  s.updTrust (fun t => { t with fwVersion := BitVec.ofNat 32 (leAt m 8 4), imageSvn := BitVec.ofNat 11 (imageSvnOf m), romMode := false })

/-- The other slot is active, and none is STAGED. -/
def Flash.toggle (f : Flash) : Flash := { f with active := !f.active, staged := false }

/-- Vilmin derives the identity and checks the certificate (R285, R286). -/
def deriveIdentity (s : State) : State :=
  s.updTrust (fun t => { t with identity := true, certOk := certValid t.fuses s.idPk t.flash.cert })

/-- The flash as ROM leaves it at the firmware step: with the active slot if its image is valid, else with the other one active if that
one's is; none for ROM mode (R282). -/
def bootFlash (f : Fuses) (l : Flash) : Option Flash :=
  if imageValid f l.activeImage then some l else if imageValid f l.toggle.activeImage then some l.toggle else none

/-- Step 7: the identity, the certificate and the active slot, or the other slot, or ROM mode (R282). -/
def bootFirmware (h : Health) (s : State) : State :=
  let s := deriveIdentity s
  match bootFlash s.trust.fuses s.trust.flash with
  | some l => bringUp h (stepDone 7 (loadImage (s.updTrust (fun t => { t with flash := l }))))
  | none => stepFails 7 (s.updTrust (fun t => { t with romMode := true }))

/-! ## Steps 1 to 6 -/

/-- Steps 4 and 5, once PWR_OK is qualified: Vilmin leaves reset and runs its ROM self-test; the generator's start-up test begins. -/
def vilminSteps (s : State) : State :=
  let s := stepDone 4 (s.updSide (fun d => { d with slotId := d.slotPins, smbAddr := 0x20 + d.slotPins.setWidth 7 }))
  if !s.side.health.romGood then stepFails 5 s
  else (stepDone 5 s).updRng (fun g => { g with testing := true, cause := .power })

/-- Steps 2 and 3: the bus and the rails settle, and the other sideband inputs are sampled. -/
def busSteps (busGood railsGood : Bool) (s : State) : State :=
  if !busGood then stepFails 2 s
  else
    let s := stepDone 2 s
    if !railsGood then stepFails 3 s
    else
      let s := s.updPower (fun p => { p with railsOn := true, fields := p.fields.map (fun f => { f with mv := 750, settle := true }) })
      let s := pcieUp (stepDone 3 (s.updSide (fun d => { d with raw := d.raw ||| 0x0F })))
      if s.side.qualified.getLsbD 4 then vilminSteps s else s

/-- POWER_APPLIED: step 1, and the steps that need nothing else (R426; log entry 43). -/
def execPowerApplied (s : State) : Host.Outcome State Fault Refusal :=
  .next (if s.power.railsOn ∨ s.power.tripped ∨ s.side.step ≠ 0 then s
    else
      let h := s.side.health
      busSteps h.busGood h.railsGood (stepDone 1 ((s.updTime (fun t => { t with ptime := 0 })).updSide (fun d =>
        { d with raw := d.raw ||| 0x10 }))))

/-- INTERMEDIATE_BUS_RETRY: the input stage starts the rails again (step 2 of R426). -/
def execIntermediateBusRetry (busGood railsGood : Bool) (s : State) : Host.Outcome State Fault Refusal :=
  .next (if s.side.halted ∧ (s.side.step = 1 ∨ s.side.step = 2) then busSteps busGood railsGood s else s)

/-- PWR_OK_QUALIFY: step 4 may run (R429). -/
def execPwrOkQualify (s : State) : Host.Outcome State Fault Refusal :=
  .next (if !s.mayQualify 4 true then s
    else
      let s := qualify 4 true s
      if s.side.step = 3 then vilminSteps s else s)

/-- PWR_OK_RELEASE: before step 4, step 4 waits again for PWR_OK; after it the input has no effect (R429). -/
def execPwrOkRelease (s : State) : Host.Outcome State Fault Refusal :=
  .next (if s.mayQualify 4 false then qualify 4 false s else s)

/-- RNG_STARTUP_TEST_DONE: the generator's start-up test ends, and at power-up step 6 with it (R312, R426). -/
def execRngStartupTestDone (samples : List Bytes) (kat : Bool) (s : State) : Host.Outcome State Fault Refusal :=
  .next (
    let t := startupDone samples kat s
    if s.side.step ≠ 5 ∨ !s.rng.testing then t
    else if t.rng.mode = .ready then bootFirmware t.side.health (stepDone 6 t)
    else stepFails 6 t)

/-! ## Zeroization pins (R302, R429) -/

/-- ZEROIZE_N_ASSERT: the qualified assertion zeroizes once. -/
def execZeroizeNAssert (s : State) : Host.Outcome State Fault Refusal :=
  .next (if !s.mayQualify 0 true then s
    else zeroize ((qualify 0 true s).updSide (fun d => { d with zeroizeSince := s.time.ptime.toNat })))

/-- ZEROIZE_N_RELEASE: an enrolment pair is generated, and ZEROIZE_RELEASED is posted. -/
def execZeroizeNRelease (s : State) : Host.Outcome State Fault Refusal :=
  .next (if !s.mayQualify 0 false then s
    else
      let held := (s.time.ptime.toNat - s.side.zeroizeSince) / 1000000
      let s := qualify 0 false s
      let s := wantEnrol s
      post .zeroizeReleased 0x0D 0 nobody nobody (toLE 4 s.trust.zeroizes.toNat ++ toLE 4 held) s)

/-- SIDEBAND_UNQUALIFIED: an assertion passed the filter and ended before it qualified (TST_SIDEBAND_CNT). -/
def execSidebandUnqualified (input : Nat) (s : State) : Host.Outcome State Fault Refusal :=
  .next (if s.samples input ∧ s.side.qualified.getLsbD input = false then
      s.updSide (fun d => { d with counts := d.counts.modify input (fun c => (c.1, satAdd c.2 1)) })
    else s)

/-- VIO_3V3_LOSS: every pulled-up input reads low, and THERM_TRIP_N trips the device (R448). -/
def execVio3v3Loss (s : State) : Host.Outcome State Fault Refusal :=
  .next (if !s.mayQualify 2 true then s else trip 0xFF 1 s.hottest (qualify 2 true s))

/-! ## Warm resets (R97, R114, R142, R374, R427, R428) -/

/-- A FINAL bank that no command and no station still reads moves on (R51), where a command that read it has just gone. -/
def releaseIdle (s : State) : State :=
  s.accum.groups.foldl (fun s e => releaseBank e.1 true (releaseBank e.1 false s)) s

/-- Commands not past their commit point are lost, and the others run on without writing records (R97, R428). -/
def silenceCmds (s : State) : State :=
  let s := (s.cmds.filter (fun e => e.2.phase ≠ .committed)).foldl (fun s e => forgetCmd e.1 s) s
  releaseIdle { s with cmds := Table.mapAll s.cmds (fun _ c => { c with silent := true }) }

/-- What the reel keeps (R114): the queue, what it has lost and suppressed, EVENT_SEQ and the rate-limit windows. -/
def Reel.warmReset (r : Reel) : Reel :=
  { Reel.reset with lost := r.lost, suppressed := r.suppressed, queue := r.queue, nextSeq := r.nextSeq, owed := r.owed,
                    owedHigh := r.owedHigh, firstLost := r.firstLost, lastLost := r.lastLost, windows := r.windows }

/-- The function after a warm reset, or after FLR, which keeps the link and what PCI Express keeps (R374; log entry 7). -/
def Pcie.afterReset (p : Pcie) (flr : Bool) : Pcie :=
  if flr then
    { Pcie.reset with addrBits := p.addrBits, ready := true, linkUp := p.linkUp, speed := p.speed, width := p.width
                      maxPayload := p.maxPayload, reads := p.reads, config := p.config.filter (fun e => e.1 == 0x60) }
  else { Pcie.reset with addrBits := p.addrBits }

/-- What a PERST_N warm reset and FLR lose (R427). -/
def resetHost (flr : Bool) (s : State) : State :=
  let s := closeTransport (silenceCmds s)
  { s with
    pcie := s.pcie.afterReset flr
    rings := List.replicate 64 Ring.reset
    reel := s.reel.warmReset
    mem := { s.mem with staging := List.replicate 8 none }
    counters := { s.counters with dailies := false, snapshot := none } }

/-- A PERST_N warm reset begins (R427, R428). -/
def warmReset (s : State) : State := resetHost false (s.updSide (fun d => { d with inWarmReset := true }))

/-- PERST_N_ASSERT. -/
def execPerstNAssert (s : State) : Host.Outcome State Fault Refusal :=
  .next (if !s.mayQualify 3 true then s else warmReset (qualify 3 true s))

/-- PERST_N_RELEASE: the warm reset ends, unless test hold goes on (R428, R434). -/
def execPerstNRelease (s : State) : Host.Outcome State Fault Refusal :=
  .next (if !s.mayQualify 3 false then s else pcieUp (qualify 3 false s))

/-- HOT_RESET_OR_DL_DOWN acts as a PERST_N warm reset that ends at once (R375). -/
def execHotResetOrDlDown (s : State) : Host.Outcome State Fault Refusal :=
  .next (if !s.pcie.ready then s else pcieUp (warmReset s))

/-- FLR (R374). -/
def execFlr (s : State) : Host.Outcome State Fault Refusal := .next (if !s.pcie.ready then s else resetHost true s)

/-! ## Registers -/

/-- TST_PHASE as it reads. -/
def State.tstPhase (s : State) : Word64 := place 0 s.side.step ||| placeB 4 s.side.halted ||| place 32 s.side.readyMs

/-- TST_SIDEBAND as it reads. -/
def State.tstSideband (s : State) : Word64 :=
  place 0 s.side.raw ||| place 8 s.side.qualified ||| place 16 s.side.slotId ||| place 32 s.side.smbAddr ||| place 40 s.side.eid

/-- TST_SIDEBAND_CNT of an input as it reads. -/
def Side.countReg (d : Side) (i : Nat) : Word64 := place 0 (unit d.counts i).1 ||| place 16 (unit d.counts i).2

/-- TST_SIDEBAND_CNT_READ clears both counts, which lie in the low half (note 1). -/
def execTstSidebandCntRead (input : Nat) (half : Half) (s : State) : Host.Outcome State Fault Refusal :=
  .next (rcRead half (fun s => s.side.countReg input)
    (fun s => s.updSide (fun d => { d with counts := d.counts.modify input (fun _ => (0, 0)) })) id s)

/-- TST_TESTS as it reads. -/
def State.tstTests (s : State) : Word64 :=
  let busy (target u : Nat) : Bool := s.side.tests.any (fun t => t.target == target && t.unit == u)
  placeN 0 8 (bitsOf 8 (busy 0)) ||| placeN 8 8 (bitsOf 8 (busy 1)) ||| placeN 16 8 (bitsOf 8 (busy 2))
  ||| placeN 24 4 (bitsOf 4 (busy 3)) ||| placeB 28 s.side.selfTest.isSome

end Sys2Proof.Machine
end

