-- ==== Sys2Proof/Machine/ReelOps.lean ====
section
/-! DEFINITION. The reel: its registers, record writes, overflow, rate limiting and vector moderation (R98 to R114). -/

namespace Sys2Proof.Machine

open Sys2Proof

/-- Changes the reel. -/
def State.updReel (s : State) (f : Reel → Reel) : State := { s with reel := f s.reel }

/-- HST_REEL_CTRL as it reads. -/
def Reel.ctrl (r : Reel) : Word64 :=
  placeB 0 r.enable ||| place 1 r.log2 ||| place 8 r.vector ||| placeB 16 r.irqEn ||| placeB 17 r.critEn ||| place 24 r.critVector

/-- HST_REEL_STATUS as it reads. -/
def Reel.status (r : Reel) : Word64 :=
  place 0 r.tail ||| placeB 16 r.phase ||| placeB 17 r.enabled ||| placeB 18 r.overflowing ||| placeB 19 r.headError
  ||| placeB 20 r.writeError ||| placeB 21 r.config ||| placeN 32 11 r.queue.length

/-- A write of HST_REEL_CTRL (R99): fields, then ENABLE. -/
def writeReelCtrl (m v : Word64) (r : Reel) : Reel :=
  let r := { r with vector := maskField m v 8 r.vector, irqEn := maskFlag m v 16 r.irqEn, critEn := maskFlag m v 17 r.critEn,
                    critVector := maskField m v 24 r.critVector,
                    log2 := if r.enabled then r.log2 else maskField m v 1 r.log2 }
  if !m.getLsbD 0 then r
  else if v.getLsbD 0 then
    if r.enabled then r
    else if 6 ≤ r.log2.toNat ∧ r.log2.toNat ≤ 16 ∧ r.base ≠ 0 then
      { r with enable := true, enabled := true, tail := 0, head := 0, phase := true, overflowing := false }
    else { r with enable := false, config := true }
  else { r with enable := false, enabled := false, overflowing := false }

/-- A write of HST_REEL_HEAD (R100). -/
def writeReelHead (v : Word32) (r : Reel) : Reel :=
  let h := BitVec.ofNat 16 v.toNat
  let size := 2 ^ r.log2.toNat
  if h.toNat ≥ size ∨ ringDiff h r.head size > ringDiff r.tail r.head size then { r with headError := true } else { r with head := h }

/-- REEL_ENABLE: a write of HST_REEL_CTRL with ENABLE 1 (R99). -/
def execReelEnable (value : Word32) (s : State) : Host.Outcome State Fault Refusal :=
  .next (atBar (fun s => s.updReel (writeReelCtrl 0xFFFFFFFF (value.setWidth 64 ||| 1))) s)

/-- REEL_DISABLE: a write of HST_REEL_CTRL with ENABLE 0 (R99, R114). -/
def execReelDisable (value : Word32) (s : State) : Host.Outcome State Fault Refusal :=
  .next (atBar (fun s => s.updReel (writeReelCtrl 0xFFFFFFFF (value.setWidth 64 &&& ~~~1#64))) s)

/-- REEL_HEAD_WRITE (R100). -/
def execReelHeadWrite (value : Word32) (s : State) : Host.Outcome State Fault Refusal :=
  .next (atBar (fun s => s.updReel (writeReelHead value)) s)

/-- HST_REEL_LOST_READ returns and clears LOST and SUPPRESSED (R98). -/
def execHstReelLostRead (half : Half) (s : State) : Host.Outcome State Fault Refusal :=
  .next (rcRead half (fun s => place 0 s.reel.lost ||| place 32 s.reel.suppressed)
    (fun s => s.updReel (fun r => { r with lost := 0 })) (fun s => s.updReel (fun r => { r with suppressed := 0 })) s)

/-- The 64 bytes of an event record (R101). -/
def eventBytes (e : Event) (phase : Bool) : Bytes :=
  toLE 2 e.type.code ++ [BitVec.ofNat 8 e.type.severity,
    (if phase then 1 else 0) ||| (if e.summary then 2 else 0) ||| (if e.coarsened then 4 else 0)]
    ++ toLE 2 (256 * e.srcClass + e.srcInst) ++ toLE 2 (min e.suppressed 65535) ++ toLE 4 e.seq.toNat ++ [e.job, e.group, 0, 0]
    ++ toLE 8 e.ptime.toNat ++ fitBytes 40 e.payload

/-- Writes a record into slot TAIL, advances TAIL, and signals (R101, R113). -/
def putRecord (e : Event) (s : State) : State :=
  let r := s.reel
  let s := hostWrite (r.base.toNat * 4096 + 64 * r.tail.toNat) (eventBytes e r.phase) false s
  let s := s.updReel (fun r =>
    let t := (r.tail.toNat + 1) % 2 ^ r.log2.toNat
    { r with tail := BitVec.ofNat 16 t, phase := if t = 0 then !r.phase else r.phase })
  if r.critEn && decide (e.type.severity ≥ 3) then signalVector r.critVector.toNat s
  else if r.irqEn then pendVector r.vector.toNat s else s

/-- An OVERFLOW record, formed now with the next EVENT_SEQ (R104, R111). -/
def overflowEvent (fin : Bool) (s : State) : Event :=
  let r := s.reel
  let p := if fin then [1, 0, 0, 0] ++ toLE 4 (min r.owed 0xFFFFFFFF) ++ toLE 4 (min r.owedHigh 0xFFFFFFFF) ++ zeros 4
      ++ toLE 8 r.firstLost.toNat ++ toLE 8 r.lastLost.toNat
    else zeros 32
  { formEvent .overflow 0 0 nobody nobody p false none s with seq := r.nextSeq }

/-- Writes an OVERFLOW end record and clears what it reports (R110). -/
def endOverflow (s : State) : State :=
  let s := putRecord (overflowEvent true s) s
  s.updReel (fun r => { r with nextSeq := r.nextSeq + 1, overflowing := false, owed := 0, owedHigh := 0, firstLost := 0,
                               lastLost := 0 })

/-- Writes an OVERFLOW start record; the waiting record is lost (R110). -/
def startOverflow (e : Event) (rest : List Event) (s : State) : State :=
  let s := putRecord (overflowEvent false s) s
  s.updReel (fun r => countLost e { r with nextSeq := r.nextSeq + 1, overflowing := true, queue := rest })

/-- A record write is due, and `k` makes it: a slot TAIL beyond ADDR_BITS ends it with an error, which stops the reel and keeps what is
queued (R100, R376). -/
def writeSlot (k : State → State) (s : State) : State :=
  let a := s.reel.base.toNat * 4096 + 64 * s.reel.tail.toNat
  if s.inReach a 64 then k s
  else (shuttleError 4 a s).updReel (fun r => { r with writeError := true, enabled := false })

/-- REEL_RECORD_WRITE: what the reel does next (R109, R110). -/
def reelWrite (s : State) : State :=
  let r := s.reel
  if !r.enabled ∨ !s.shuttleOpen then s
  else if r.overflowing then
    if r.free ≥ 2 then writeSlot endOverflow s
    else match r.queue with
      | [] => s
      | e :: rest => s.updReel (fun r => countLost e { r with queue := rest })
  else if r.owed ≠ 0 ∧ r.free ≥ 2 then writeSlot endOverflow s
  else match r.queue with
    | [] => s
    | e :: rest =>
      if r.free ≥ 2 then writeSlot (fun s => putRecord e (s.updReel (fun r => { r with queue := rest }))) s
      else if r.free = 1 then writeSlot (startOverflow e rest) s
      else s

/-- REEL_RECORD_WRITE (R110). -/
def execReelRecordWrite (s : State) : Host.Outcome State Fault Refusal := .next (reelWrite s)

/-- The end of a key's window: a summary is posted and a new window opens, or the window closes (R112). -/
def windowEnd (w : RateWindow) (s : State) : State :=
  let others := s.reel.windows.filter (fun x => !(x.type = w.type ∧ x.srcClass = w.srcClass ∧ x.srcInst = w.srcInst))
  if w.count = 0 then s.updReel (fun r => { r with windows := others })
  else
    let s := s.updReel (fun r => { r with windows := others ++ [{ w with count := 0 }] })
    let s := enterQueue { w.last with summary := true, suppressed := w.count } s
    if w.type = .counterSample then { s with counters := { s.counters with samples := 0 } } else s

/-- RATE_LIMIT_WINDOW_END of the key (EVENT_TYPE, SOURCE) (R112). -/
def execRateLimitWindowEnd (type srcClass srcInst : Nat) (s : State) : Host.Outcome State Fault Refusal :=
  .next (match s.reel.windows.find? (fun w => w.type.code = type ∧ w.srcClass = srcClass ∧ w.srcInst = srcInst) with
    | none => s
    | some w => windowEnd w s)

/-- VECTOR_DELAY_EXPIRY: the delay after the first pending record passes (R113). -/
def execVectorDelayExpiry (vector : Nat) (s : State) : Host.Outcome State Fault Refusal :=
  .next (if (unit s.reel.vectors vector).pending = 0 then s else signalVector vector s)

end Sys2Proof.Machine
end

