-- ==== Sys2Proof/Machine/Tests.lean ====
section
/-! DEFINITION. LINK_TEST and SELF_TEST (R436 to R442). -/

namespace Sys2Proof.Machine

open Sys2Proof

/-! ## LINK_TEST (R436 to R439) -/

/-- A pattern that a target allows (R437). -/
def patternFor (target pattern : Nat) : Bool :=
  match pattern with
  | 0 | 1 | 2 | 3 | 4 => decide (target ≤ 1)
  | 5 => target == 2 || target == 3
  | 6 => target == 2
  | 7 => target == 3
  | _ => false

/-- LANES that a target allows: a mask of its lanes, a channel, or a channel and direction (R436). -/
def lanesFor (target lanes : Nat) : Bool :=
  decide (lanes < match target with | 0 => 16 | 1 => 512 | 2 => 34 | _ => 128)

/-- The fields of LINK_TEST (R436, R437). -/
def linkTestChecks (c : Cmd) : List Check :=
  let target := c.inl 16 1
  outChecks c.slate 32 0 ++
  ([(decide (target < 4), inlineAt 16), (decide (c.inl 17 1 < if target = 3 then 4 else 8), inlineAt 17),
    (lanesFor target (c.inl 18 2), inlineAt 18), (patternFor target (c.inl 20 1), inlineAt 20),
    (decide (c.inl 21 1 < if target ≤ 1 then 3 else 1), inlineAt 21), resInline c 22 2,
    (decide (1 ≤ c.inl 24 4 ∧ c.inl 24 4 ≤ 60000), inlineAt 24), resInline c 28 4] : List Check)

/-- The port or link is enabled. -/
def State.enabledUnit (s : State) (target u : Nat) : Bool :=
  match target with
  | 0 => (s.port u).enable
  | 1 => (s.link u).enable
  | _ => false

/-- A bobbin channel is in service: a slot of its stack's map names it. -/
def State.channelLive (s : State) (b ch : Nat) : Bool := (s.stack b).inService && (s.stack b).map.contains ch

/-- Channels of a crossing direction that would stay in service without one of them. -/
def State.channelsWithout (s : State) (dir ch : Nat) : Nat :=
  (bitList 64 ((unit s.faults.crossings dir).inService &&& ~~~(1#64 <<< ch)).toNat).length

/-- What a LINK_TEST is refused for (R438). -/
def linkTestRefusals (c : Cmd) (s : State) : List (Bool × Status × Nat) :=
  let target := c.inl 16 1
  let u := c.inl 17 1
  let lanes := c.inl 18 2
  [(!s.enabledUnit target u, .notPermitted, 1),
   (!(target == 2 && s.channelLive u lanes && s.trust.tenant.isSome), .notPermitted, 2),
   (!(target == 3 && decide (s.channelsWithout (2 * u + lanes / 64) (lanes % 64) < 40)), .notPermitted, 3),
   (!s.side.tests.any (fun t => t.target == target && t.unit == u), .notPermitted, 4)]

/-- Lines of a memory that a test overwrites lose what they held. -/
def overwriteLines (t : TestedLines) (s : State) : State :=
  s.updMem (fun m => { m with
    tested := t :: m.tested, cells := m.cells.filter (fun e => !testedBy t e.1), poison := m.poison.filter (fun l => !testedBy t (l * 64)) })

/-- The pattern starts: a crossing channel leaves service, and the lines of a bobbin channel in service are overwritten (R438). -/
def startPattern (t : LinkTest) (s : State) : State :=
  let s := s.updSide (fun d => { d with tests := d.tests ++ [t] })
  match t.target with
  | 2 =>
    match (s.stack t.unit).map.findIdx? (· == t.lanes) with
    | none => s
    | some slot =>
      let (_, s') := s.draw
      overwriteLines { stack := t.unit, modulus := (s.stack t.unit).map.length, slot := slot, test := s.draws } s'
  | 3 =>
    updCrossing (2 * t.unit + t.lanes / 64) (fun x => { x with inService := x.inService &&& ~~~(1#64 <<< (t.lanes % 64)) }) s
  | _ => s

/-- An output buffer of fixed length that a test writes when it ends: the checks of R93. -/
def roomFor (d : OutDesc) (lenAt n : Nat) (k : Verdict) (s : State) : Verdict :=
  if n > d.len then .refuse .badParam lenAt n
  else if !s.inReach d.addr d.len then .refuse .hostFault 1 0
  else k

/-- LINK_TEST: its commit point is the start of the pattern. -/
def opLinkTest (cid : Nat) (c : Cmd) (s : State) : Verdict :=
  checks (linkTestChecks c) <|
    refusals (linkTestRefusals c s) <|
      roomFor (outAt c.slate 32 true) (inlineAt 8) 160
        (.goes (startPattern { cid := cid, target := c.inl 16 1, unit := c.inl 17 1, lanes := c.inl 18 2 } (commit cid .none s))) s

/-- LINK_TEST. -/
def execLinkTest (cid : Nat) (s : State) : Host.Outcome State Fault Refusal := .next (runRow .linkTest opLinkTest cid s)

/-- Lanes that a test reports on: the lanes of its mask, or entry 0. -/
def LinkTest.lanesTested (t : LinkTest) : List Nat := if t.target ≤ 1 then bitList 9 t.lanes else [0]

/-- A lane's 16-byte entry (R439). -/
def laneEntry (r : LaneResult) : Bytes :=
  toLE 8 r.bits ++ toLE 4 (min r.errors 0xFFFFFFFF) ++ [if r.locked then 1 else 0, 0, 0, 0]

/-- The results that count: none in far-end loopback, where this device checks nothing (R436). -/
def checkedLanes (c : Cmd) (t : LinkTest) (lanes : List LaneResult) : List (Nat × LaneResult) :=
  t.lanesTested.map (fun l =>
    (l, if c.inl 21 1 = 2 then { bits := 0, errors := 0, locked := false } else unit lanes l))

/-- DURATION_MS has passed: the output is written, TEST_DONE is posted and the command completes (R438, R439, R441). -/
def linkTestEnd (t : LinkTest) (c : Cmd) (lanes : List LaneResult) (wireFail : BitVec 34) (s : State) : State :=
  let res := checkedLanes c t lanes
  let pass := res.all (fun e => e.2.locked && e.2.errors == 0)
  let ms := c.inl 24 4
  let head : Bytes := [BitVec.ofNat 8 t.target, BitVec.ofNat 8 t.unit, BitVec.ofNat 8 (c.inl 20 1), if pass then 1 else 0]
  let entries := (List.range 9).map (fun l => match res.find? (fun e => e.1 == l) with
    | some e => laneEntry e.2
    | none => zeros 16)
  let out := head ++ toLE 4 ms ++ toLE 8 (if t.target = 3 then wireFail.toNat else 0) ++ entries.flatten
  let s := if c.silent then s else hostWrite (outAt c.slate 32 true).addr out true s
  let failed := bitsOf 9 (fun l => res.any (fun e => e.1 == l && e.2.errors != 0))
  let s := postFor .testDone 0x0E 0 nobody nobody
    ([0, if pass then 1 else 0, BitVec.ofNat 8 t.target, BitVec.ofNat 8 t.unit] ++ toLE 4 failed ++ toLE 4 ms) false (some t.cid) s
  complete t.cid .ok 0 160 (endTest t s)

/-- LINK_TEST_END. -/
def execLinkTestEnd (cid : Nat) (lanes : List LaneResult) (wireFail : BitVec 34) (s : State) : Host.Outcome State Fault Refusal :=
  .next (match s.side.tests.find? (fun t => t.cid == cid), s.cmd? cid with
    | some t, some c => linkTestEnd t c lanes wireFail s
    | _, _ => s)

/-! ## SELF_TEST (R440) -/

/-- What the first test's start does: bobbin lines are overwritten by the march test, and the generator retests. -/
def startTests (tests : Nat) (s : State) : State :=
  let s := if tests.testBit 3 then
      s.liveStacks.foldl (fun s b =>
        let n := s.draws
        overwriteLines { stack := b, modulus := 1, slot := 0, test := n } s.draw.2) s
    else s
  if tests.testBit 6 then writeRetest s else s

/-- SELF_TEST: its commit point is the start of the first test. -/
def opSelfTest (cid : Nat) (c : Cmd) (s : State) : Verdict :=
  let tests := c.inl 16 4
  checks (outChecks c.slate 32 0 ++ ([(decide (tests < 128), inlineAt 16), resInline c 20 12] : List Check)) <|
    if s.trust.tenant.isSome ∧ bitList 7 tests ≠ (bitList 7 tests).filter (fun b => b == 1 || b == 5) then notPermitted 1
    else if s.side.selfTest.isSome then .waits
    else
      roomFor (outAt c.slate 32 true) (inlineAt 8) 64
        (.goes (startTests tests ((commit cid .none s).updSide (fun d => { d with selfTest := some cid })))) s

/-- SELF_TEST. -/
def execSelfTest (cid : Nat) (s : State) : Host.Outcome State Fault Refusal := .next (runRow .selfTest opSelfTest cid s)

/-- A unit that one of the tests run covers. -/
def testCovers (tests : Nat) (x : FaultSite) (s : State) : Bool :=
  match x.kind with
  | 8 => tests.testBit 5
  | 10 => tests.testBit 3
  | 11 => tests.testBit 2
  | 13 => tests.testBit 4
  | k => match coreOfUnit k x.unit with
    | some c => (tests.testBit 0 && (s.core c).role == .active) || (tests.testBit 1 && (s.core c).role == .spare)
    | none => false

/-- A unit that fails is retired by R402's table, and a bobbin channel as R28 says. -/
def retireFailing (x : FaultSite) (s : State) : State :=
  match x.kind, x.part with
  | 10, some ch => retireChannel x.unit ch s
  | _, _ => retireSite x s

/-- A unit's bit in the output's mask: cores, crossings, bobbins, processors. -/
def failBit (x : FaultSite) : Option Nat :=
  match x.kind with
  | 10 => some (40 + x.unit)
  | 11 => some (36 + x.unit / 64)
  | 13 => some (48 + x.unit)
  | k => coreOfUnit k x.unit

/-- The tests end: failing units are retired, the output is written, TEST_DONE is posted and the command completes. -/
def selfTestEnd (cid : Nat) (c : Cmd) (failing : List FaultSite) (failed : BitVec 7) (ms : Nat) (s : State) : State :=
  let tests := c.inl 16 4
  let bad := (failing.filter (fun x => testCovers tests x s)).eraseDups
  let fails := failed.toNat &&& tests
  let pass := bad.isEmpty && fails == 0
  let s := forCommand cid (fun s => bad.foldl (fun s x => retireFailing x s) s) s
  let mask := bitsOf 53 (fun i => bad.any (fun x => failBit x == some i))
  let out := toLE 4 tests ++ toLE 4 fails ++ toLE 4 bad.length ++ toLE 4 ms ++ toLE 48 mask
  let s := if c.silent then s else hostWrite (outAt c.slate 32 true).addr out true s
  let s := postFor .testDone 0x0E 0 nobody nobody
    ([1, if pass then 1 else 0, 0, 0] ++ toLE 4 fails ++ toLE 4 ms) false (some cid) s
  complete cid .ok 0 64 s

/-- SELF_TEST_END. -/
def execSelfTestEnd (cid : Nat) (failing : List FaultSite) (failed : BitVec 7) (elapsedMs : Nat) (s : State) :
    Host.Outcome State Fault Refusal :=
  .next (match s.cmd? cid with
    | some c => if s.side.selfTest = some cid then selfTestEnd cid c failing failed elapsedMs s else s
    | none => s)

end Sys2Proof.Machine
end

