-- ==== Sys2Proof/Machine/Sideband.lean ====
section
/-! DEFINITION. The sideband port and the debug connector: MCTP, PLDM and the TAP (R423, R431 to R434). -/

namespace Sys2Proof.Machine

open Sys2Proof

/-! ## MCTP control messages (R431; log entry 46) -/

/-- Completion codes of the MCTP and PLDM base specifications: success, invalid data, not ready, invalid type, and a sensor or effecter
that is not there. -/
def codeOk : Nat := 0x00
/-- ERROR_INVALID_DATA. -/
def codeInvalid : Nat := 0x02
/-- ERROR_NOT_READY. -/
def codeNotReady : Nat := 0x04
/-- A PLDM type that is not supported. -/
def codeNoType : Nat := 0x83
/-- An ID that names no sensor or effecter. -/
def codeNoId : Nat := 0x80

/-- An answer on the sideband: the device acknowledges its address from step 4 (R431). -/
def answer (code : Nat) (data : Bytes) (s : State) : State := emit (.sideReply code data) s

/-- The port answers from step 4 of R426 on. -/
def onSideband (f : State → State) (s : State) : State := if s.side.step.toNat < 4 then s else f s

/-- SET_ENDPOINT_ID: the endpoint ID is set, or the request is refused. -/
def execSetEndpointId (operation eid : BitVec 8) (s : State) : Host.Outcome State Fault Refusal :=
  .next (onSideband (fun s =>
    if 2 ≤ operation.toNat ∨ eid = 0 ∨ eid = 0xFF then answer codeInvalid [] s
    else answer codeOk [0, eid, 0] (s.updSide (fun d => { d with eid := eid }))) s)

/-- GET_ENDPOINT_ID. -/
def execGetEndpointId (s : State) : Host.Outcome State Fault Refusal :=
  .next (onSideband (fun s => answer codeOk [s.side.eid, 0, 0] s) s)

/-- GET_MCTP_VERSION_SUPPORT: the versions are those of the standard. -/
def execGetMctpVersionSupport (s : State) : Host.Outcome State Fault Refusal :=
  .next (onSideband (answer codeOk (Config.sidebandData 0x04 0)) s)

/-- GET_MESSAGE_TYPE_SUPPORT: types 0, control, and 1, PLDM. -/
def execGetMessageTypeSupport (s : State) : Host.Outcome State Fault Refusal :=
  .next (onSideband (answer codeOk [2, 0, 1]) s)

/-! ## PLDM base (R431) -/

/-- PLDM requests are answered with ERROR_NOT_READY before step 8. -/
def onPldm (f : State → State) (s : State) : State :=
  onSideband (fun s => if s.side.step.toNat < 8 then answer codeNotReady [] s else f s) s

/-- GETTID. -/
def execGettid (s : State) : Host.Outcome State Fault Refusal := .next (onPldm (fun s => answer codeOk [s.side.tid] s) s)

/-- SETTID: 0 and 0xFF name no terminus. -/
def execSettid (tid : BitVec 8) (s : State) : Host.Outcome State Fault Refusal :=
  .next (onPldm (fun s =>
    if tid = 0 ∨ tid = 0xFF then answer codeInvalid [] s else answer codeOk [] (s.updSide (fun d => { d with tid := tid }))) s)

/-- PLDM types 0 and 2 are supported. -/
def pldmType (t : BitVec 8) : Bool := t == 0 || t == 2

/-- GETPLDMVERSION. -/
def execGetpldmversion (type : BitVec 8) (s : State) : Host.Outcome State Fault Refusal :=
  .next (onPldm (if pldmType type then answer codeOk (Config.sidebandData 0x103 type.toNat) else answer codeNoType []) s)

/-- GETPLDMTYPES: a mask of 64 types. -/
def execGetpldmtypes (s : State) : Host.Outcome State Fault Refusal := .next (onPldm (answer codeOk (toLE 8 0x05)) s)

/-- Commands supported of a type, as their codes. -/
def pldmCommands (t : BitVec 8) : List Nat := if t = 0 then [1, 2, 3, 4, 5] else [0x11, 0x31, 0x32, 0x50, 0x51]

/-- GETPLDMCOMMANDS: a mask of 256 commands. -/
def execGetpldmcommands (type : BitVec 8) (s : State) : Host.Outcome State Fault Refusal :=
  .next (onPldm (if pldmType type then answer codeOk (toLE 32 (bitsOf 256 (fun i => (pldmCommands type).contains i)))
    else answer codeNoType []) s)

/-! ## Platform monitoring (R432) -/

/-- GETPDR: the records' contents are the module's own. -/
def execGetpdr (record : Word32) (s : State) : Host.Outcome State Fault Refusal :=
  .next (onPldm (answer codeOk (Config.sidebandData 0x251 record.toNat)) s)

/-- GETPDRREPOSITORYINFO. -/
def execGetpdrrepositoryinfo (s : State) : Host.Outcome State Fault Refusal :=
  .next (onPldm (answer codeOk (Config.sidebandData 0x250 0)) s)

/-- The reading of a sensor, from the PWR_ registers and coarsened as they are (R344, R432). -/
def State.sensor? (s : State) (id : Nat) : Option Nat :=
  if id = 1 then some (field s.pwrInput 0 14).toNat
  else if id = 2 then some (field s.pwrInput 16 16).toNat
  else if id = 3 then some (field s.pwrInput 32 16).toNat
  else if id = 4 then some (field s.pwrInput 48 16).toNat
  else if 10 ≤ id ∧ id ≤ 13 then some (field (s.pwrField (id - 10)) 16 8).toNat
  else if 20 ≤ id ∧ id ≤ 27 then some (field s.pwrBobbins (8 * (id - 20)) 8).toNat
  else if 30 ≤ id ∧ id ≤ 33 then some (field (s.pwrField (id - 30)) 0 10).toNat
  else none

/-- GETSENSORREADING. -/
def execGetsensorreading (id : BitVec 16) (s : State) : Host.Outcome State Fault Refusal :=
  .next (onPldm (fun s => match s.sensor? id.toNat with
    | some v => answer codeOk (toLE 2 v) s
    | none => answer codeNoId [] s) s)

/-- The values that effecter 100 takes (R432). -/
def capSetting (v : BitVec 16) : Bool := v == 0 || (decide (250 ≤ v.toNat) && decide (v.toNat ≤ 750))

/-- SETNUMERICEFFECTERVALUE: the sideband cap (R341, R432). -/
def execSetnumericeffectervalue (id value : BitVec 16) (s : State) : Host.Outcome State Fault Refusal :=
  .next (onPldm (fun s =>
    if id ≠ 100 then answer codeNoId [] s
    else if !capSetting value then answer codeInvalid [] s
    else
      let before := s.effectiveCap
      answer codeOk [] (creditMoved (capChanged before 3 (s.updPower (fun p => { p with sideCap := value.setWidth 10 }))))) s)

/-- GETNUMERICEFFECTERVALUE. -/
def execGetnumericeffectervalue (id : BitVec 16) (s : State) : Host.Outcome State Fault Refusal :=
  .next (onPldm (fun s => if id = 100 then answer codeOk (toLE 2 s.power.sideCap.toNat) s else answer codeNoId [] s) s)

/-! ## Debug reads (R422, R423) -/

/-- The lines of a range, by address. -/
def debugLines (addr n : Nat) : List Nat := (List.range (n / 64)).map (fun i => (lineOf addr + i) * 64)

/-- What a debug read returns of a line: zeros from protected state and from a poisoned line. -/
def debugLine (s : State) (a : Nat) : Bytes := if protectedAddr a || poisoned s.mem a 64 then zeros 64 else memReads s.mem a 64

/-- A denied read posts DEBUG_DENIED once and counts its denied lines (R423). -/
def denyLines (cls addr n : Nat) (s : State) : State :=
  match (debugLines addr n).filter protectedAddr with
  | [] => s
  | a :: rest =>
    let lines := rest.length + 1
    let s := { s with counters := { s.counters with denied := satAdd s.counters.denied lines } }
    post .debugDenied cls 0 nobody nobody ([0, 0, 0, 0] ++ toLE 4 lines ++ toLE 8 a) s

/-! ## The TAP (R433, R434) -/

/-- The TAP's instruction register takes an instruction. -/
def setTap (i : TapInstr) (s : State) : State := s.updSide (fun d => { d with tap := i })

/-- The TAP runs while the module has its rails. -/
def onTap (i : TapInstr) (f : State → State) (s : State) : State := if s.power.railsOn then f (setTap i s) else s

/-- IDCODE's register (R434). -/
def Fuses.idcode (f : Fuses) : Word32 :=
  BitVec.ofNat 32 (f.stepping % 16 * 2 ^ 28 + (if f.orderCode = 1 then 0x7300 else 0x7301) * 2 ^ 12 + 0x6F5 * 2 + 1)

/-- IDCODE. -/
def execIdcode (s : State) : Host.Outcome State Fault Refusal :=
  .next (onTap .idcode (fun s => emit (.tapIdcode s.trust.fuses.idcode) s) s)

/-- SAMPLE_PRELOAD disturbs nothing. -/
def execSamplePreload (s : State) : Host.Outcome State Fault Refusal := .next (onTap .samplePreload id s)

/-- BYPASS. -/
def execBypass (s : State) : Host.Outcome State Fault Refusal := .next (onTap .bypass id s)

/-- Test hold: a PERST_N warm reset with the ports and warp links down (R434). -/
def enterHold (s : State) : State :=
  if s.side.testHold then s
  else
    let s := (if s.side.inWarmReset then id else warmReset) (s.updSide (fun d => { d with testHold := true }))
    { s with
      trans := { s.trans with ports := s.trans.ports.map (fun p => { p with linkUp := false, width := 0, lanesGood := 0 }) }
      warp := { s.warp with links := s.warp.links.map (fun l =>
        { l with up := false, width := 0, lanesGood := 0, lanes := [], training := none }) } }

/-- EXTEST drives the pins from the boundary register. -/
def execExtest (s : State) : Host.Outcome State Fault Refusal := .next (onTap .extest enterHold s)

/-- EXTEST_PULSE. -/
def execExtestPulse (s : State) : Host.Outcome State Fault Refusal := .next (onTap .extestPulse enterHold s)

/-- EXTEST_TRAIN. -/
def execExtestTrain (s : State) : Host.Outcome State Fault Refusal := .next (onTap .extestTrain enterHold s)

/-- CLAMP holds the pins from the boundary register. -/
def execClamp (s : State) : Host.Outcome State Fault Refusal := .next (onTap .clamp enterHold s)

/-- HIGHZ floats the outputs. -/
def execHighz (s : State) : Host.Outcome State Fault Refusal := .next (onTap .highz enterHold s)

/-- SCAN_ENTER: zeroization first, then a warm restart into internal scan, in test hold (R305, R433). -/
def execScanEnter (s : State) : Host.Outcome State Fault Refusal :=
  .next (onTap .scanEnter (fun s => enterHold (wantWarmFor none (zeroize s))) s)

/-- TEST_LOGIC_RESET selects IDCODE and leaves test hold, which runs a device warm restart; enabled links train again (R434). -/
def leaveHold (s : State) : State :=
  if !s.side.testHold then s
  else
    let s := wantWarmFor none (pcieUp (s.updSide (fun d => { d with testHold := false, inWarmReset := d.qualified.getLsbD 3 })))
    ((List.range 8).filter (fun i => (s.link i).enable && (s.link i).inService)).foldl (fun s i => beginTraining i 0 false s) s

/-- TEST_LOGIC_RESET. -/
def execTestLogicReset (s : State) : Host.Outcome State Fault Refusal := .next (onTap .idcode leaveHold s)

/-- DBG_READ: a 64-byte line by device address, subject to R423; where no memory is, free bytes. -/
def tapRead (addr : Nat) (s : State) : State :=
  let a := lineOf addr * 64
  if !s.presentMem a 64 then
    let (b, s) := drawBytes 64 s
    emit (.tapLine b) s
  else emit (.tapLine (debugLine s a)) (denyLines 0x0E a 64 s)

/-- DBG_READ. -/
def execDbgRead (addr : Nat) (s : State) : Host.Outcome State Fault Refusal := .next (onTap .dbgRead (tapRead addr) s)

end Sys2Proof.Machine
end

