-- ==== Sys2Proof/Machine/Restart.lean ====
section
/-! DEFINITION. The end of a device warm restart: self-test, return to service, and new firmware (R31, R284, R402, R405). -/

namespace Sys2Proof.Machine

open Sys2Proof

/-- The full self-test of the units involved retires each unit it names, or takes the device out of service (R402). -/
def restartTest (w : WarmRestart) (named : List FaultSite) (s : State) : State :=
  if w.selfTest.isEmpty then s
  else if named.isEmpty then goOutOfService s
  else named.foldl (fun s x => retireSite x s) s

/-- A start-up that finds 24 cores and 2 processors good brings a device back that was out of service before the restart (R31). -/
def enoughGood (h : Health) : Bool :=
  decide (24 ≤ (bitList 36 h.coresGood.toNat).length) && decide (2 ≤ (bitList 5 h.cpsGood.toNat).length)

/-- A device that was out of service returns to service, unless this restart took it out. -/
def returnToService (was : Bool) (h : Health) (s : State) : State :=
  if was && enoughGood h && !s.trust.romMode then bringUp h (s.updFaults (fun f => { f with outOfService := false })) else s

/-- FW_ACTIVATE ends: the new image runs, the fuses follow it, FW_ACTIVATED is posted and the command completes; or the previous slot is
loaded and the command completes with SIG_INVALID (R284, R306). -/
def activationEnds (cid : Nat) (h : Health) (s : State) : State :=
  if !imageValid s.trust.fuses s.trust.flash.activeImage then complete cid .sigInvalid 0 0 (s.updTrust (fun t => { t with flash := t.flash.toggle }))
  else
    let prev := s.trust.fwVersion
    let rom := s.trust.romMode
    let s := loadImage s
    let svn := s.trust.imageSvn.toNat
    let rises := decide (s.trust.fuses.svn < svn)
    let s := s.updTrust (fun t => { t with fuses := if rises then t.fuses.raise svn else t.fuses })
    let s := if rom then bringUp h (stepDone 7 s) else s
    let t := s.trust
    let s := forCommand cid (post .fwActivated 0x06 0 nobody nobody
      (toLE 4 t.fwVersion.toNat ++ toLE 4 svn ++ toLE 4 prev.toNat ++ [if t.flash.active then 1 else 0, if rises then 1 else 0])) s
    complete cid .ok 0 t.fwVersion.toNat s

/-- The last steps of a warm restart that has begun (steps 5 to 7 of R405). -/
def endWarm (w : WarmRestart) (named : List FaultSite) (h : Health) (s : State) : State :=
  let was := s.faults.outOfService && !w.last
  let s := restartTest w named (s.updFaults (fun f => { f with warm := none }))
  let s := returnToService was h s
  let s := match w.activate with
    | some cid => activationEnds cid h s
    | none => s
  creditMoved (emit (.uart none s.ms true) s)

/-- DEVICE_WARM_RESTART_END. -/
def execDeviceWarmRestartEnd (named : List FaultSite) (health : Health) (s : State) : Host.Outcome State Fault Refusal :=
  .next (match s.faults.warm with
    | some w => if w.started then endWarm w named health s else s
    | none => s)

end Sys2Proof.Machine
end

