-- ==== Sys2Proof/Machine/Registers.lean ====
section
/-! DEFINITION. The register map: what every register of BAR0 and BAR2 reads, what a write of one does, and DEBUG_READ (R62, R98,
R370, R371, R422, R423). -/

namespace Sys2Proof.Machine

open Sys2Proof

/-! ## What the pages read -/

/-- State code of a bank (ACC_GRP_STATUS). -/
def BankMode.code : BankMode → Nat
  | .zero => 0 | .filling => 1 | .draining => 2 | .final => 3 | .zeroing => 4

/-- FAILED of ACC_GRP_STATUS. -/
def failCode : Option GroupFail → Nat
  | none => 0 | some .seqGap => 1 | some .scaleExhausted => 2

/-- ACC_GRP_STATUS as it reads; a closed group reads zero. -/
def State.accStatus (s : State) (gn : Nat) : Word64 :=
  match s.group? gn with
  | none => 0
  | some g =>
    placeB 0 true ||| placeB 1 g.relaxed ||| placeB 2 g.spilled ||| placeB 3 g.clip ||| placeN 4 3 g.bankA.mode.code
    ||| placeN 7 3 g.bankB.mode.code ||| placeB 10 g.bankA.longSum ||| placeB 11 g.bankB.longSum ||| placeN 12 2 (failCode g.failed)
    ||| placeN 16 4 g.kind ||| placeN 24 8 g.format ||| place 32 (BitVec.ofInt 8 g.bankA.scale) ||| place 40 (BitVec.ofInt 8 g.bankB.scale)
    ||| placeN 48 4 g.bankA.steps ||| placeN 52 4 g.bankB.steps ||| placeN 56 4 g.job

/-- ACC_GRP_COUNT as it reads, coarsened (R421). -/
def State.accCount (s : State) (gn : Nat) : Word64 :=
  match s.group? gn with
  | none => 0
  | some g => place 0 (s.coarse (BitVec.ofNat 32 (min g.bankA.count 0xFFFFFFFF)))
      ||| place 32 (s.coarse (BitVec.ofNat 32 (min g.bankB.count 0xFFFFFFFF)))

/-- ACC_GRP_NONFINITE as it reads, coarsened. -/
def State.accNonfinite (s : State) (gn : Nat) : Word64 :=
  match s.group? gn with
  | none => 0
  | some g => place 0 (s.coarse (BitVec.ofNat 32 (min g.bankA.nonfinite 0xFFFFFFFF)))
      ||| place 32 (s.coarse (BitVec.ofNat 32 (min g.bankB.nonfinite 0xFFFFFFFF)))

/-- HST_VEC_MOD of a vector. -/
def VecMod.reg (m : VecMod) : Word64 := place 0 m.count ||| place 16 m.delayUs

/-- The HST_ page (R98, R113, HST_UNIT_STATUS). -/
def State.hstPage (s : State) (o : Nat) : Word64 :=
  match o with
  | 0x40 => s.unitStatus
  | 0x100 => s.reel.ctrl
  | 0x108 => place 12 s.reel.base
  | 0x110 => place 0 s.reel.head
  | 0x118 => s.reel.status
  | 0x120 => place 0 s.reel.lost ||| place 32 s.reel.suppressed
  | _ =>
    if 0x800 ≤ o ∧ o < 0xC00 then
      let v := (o - 0x800) / 4
      (unit s.reel.vectors v).reg ||| ((unit s.reel.vectors (v + 1)).reg <<< 32)
    else 0

/-- The DMA_ page (R382). -/
def State.dmaPage (s : State) (o : Nat) : Word64 :=
  match o with
  | 0x00 => s.pcie.dmaCtrl
  | 0x08 => s.dmaStatus
  | 0x10 => place 0 s.pcie.err
  | 0x18 => s.pcie.errAddr
  | 0x20 => s.pcie.dmaBarErr
  | 0x28 => s.coarse s.pcie.bytesRead
  | 0x30 => s.coarse s.pcie.bytesWritten
  | 0x38 => s.dmaPreempt
  | _ => 0

/-- The SEC_ page; the live counter, without its read shadow. -/
def State.secPage (s : State) (o : Nat) : Word64 :=
  match o with
  | 0x00 => s.secStatus
  | 0x08 => s.secFw
  | 0x10 => s.time.ptime
  | 0x20 => s.secIdHash 0
  | 0x28 => s.secIdHash 1
  | 0x30 => s.secIdHash 2
  | 0x38 => s.secIdHash 3
  | 0x40 => s.secKeyState
  | 0x48 => s.secCounts
  | _ => 0

/-- The RNG_ page. -/
def State.rngPage (s : State) (o : Nat) : Word64 :=
  match o with
  | 0x00 => s.rng.status
  | 0x08 => placeB 0 s.rng.retest ||| placeB 1 s.rng.reseed
  | 0x10 => s.rngCounts
  | _ => 0

/-- The PWR_ page. -/
def State.pwrPage (s : State) (o : Nat) : Word64 :=
  match o with
  | 0x00 => s.pwrCap
  | 0x10 => s.pwrField 0
  | 0x18 => s.pwrField 1
  | 0x20 => s.pwrField 2
  | 0x28 => s.pwrField 3
  | 0x38 => s.pwrBobbins
  | 0x40 => s.pwrInput
  | 0x48 => s.pwrEnergy
  | 0x50 => s.pwrSched
  | 0x58 => s.pwrCal
  | 0x60 => s.throttleCnt
  | _ => 0

/-- The ACC_ page. -/
def State.accPage (s : State) (o : Nat) : Word64 :=
  if o = 0 then s.combineDrops
  else if 0x400 ≤ o ∧ o < 0x800 then
    if o % 16 = 0 then s.accStatus ((o - 0x400) / 16) else s.accCount ((o - 0x400) / 16)
  else if 0x800 ≤ o ∧ o < 0xA00 then s.accNonfinite ((o - 0x800) / 8)
  else 0

/-- The MSK_ page. -/
def State.mskPage (s : State) (o : Nat) : Word64 :=
  if o < 0x200 then (if o % 16 = 0 then s.mskLedger (o / 16) else s.mskLedgerCount (o / 16))
  else if o = 0x400 then s.mskRegen
  else 0

/-- The POL_ page. -/
def State.polPage (s : State) (o : Nat) : Word64 :=
  if o = 0 then s.polObjSel
  else if o < 0x88 then s.polObjDesc ((o - 8) / 8)
  else if 0x100 ≤ o ∧ o < 0x580 then
    let h := unit s.poly.heddles ((o - 0x100) / 16)
    if o % 16 = 0 then h.slotReg else h.stateReg ((s.core ((o - 0x100) / 32)).role != .off)
  else if o = 0x800 then s.polRefusals
  else 0

/-- The GAT_ page. -/
def State.gatPage (s : State) (o : Nat) : Word64 :=
  if o < 0x400 then (if o % 16 = 0 then s.gatItem (o / 16) else s.gatCohort (o / 16))
  else if o = 0x800 then s.gatRefusals
  else 0

/-- The VLT_ page. -/
def State.vltPage (s : State) (o : Nat) : Word64 :=
  if o < 0x100 then (if o % 32 = 0 then s.vltSlot (o / 32) else if o % 32 = 8 then s.vltProgress (o / 32) else 0) else 0

/-- The FLT_ page; FLT_INJECT reads zero. -/
def State.fltPage (s : State) (o : Nat) : Word64 :=
  match o with
  | 0x00 => s.fltStatus
  | 0x08 => s.fltCores
  | 0x10 => s.fltCounts
  | 0x18 => s.fltCp
  | 0x20 => s.fltLast
  | _ => 0

/-- The CNT_ page. -/
def State.cntPage (s : State) (o : Nat) : Word64 :=
  match o with
  | 0x00 => s.counters.status
  | 0x10 => s.counters.ovf 0
  | 0x18 => s.counters.ovf 1
  | 0x20 => s.counters.ovf 2
  | 0x28 => s.counters.ovf 3
  | 0x40 => place 0 s.counters.head
  | 0x48 => s.counters.dailiesStatus
  | 0x50 => s.counters.traceStatus
  | 0x58 => place 0 s.counters.denied
  | _ => 0

/-- The TST_ page. -/
def State.tstPage (s : State) (o : Nat) : Word64 :=
  if o = 0 then s.tstPhase
  else if o = 8 then s.tstSideband
  else if 0x10 ≤ o ∧ o < 0x38 then s.side.countReg ((o - 0x10) / 8)
  else if o = 0x40 then s.tstTests
  else 0

/-- The ING_ page of a port. -/
def State.ingPage (s : State) (i o : Nat) : Word64 :=
  let p := s.port i
  match o with
  | 0x00 => p.ctrl
  | 0x08 => p.status
  | 0x10 => place 0 p.mac
  | 0x18 => place 0 p.ipv4
  | 0x20 => p.ipv6.extractLsb' 64 64
  | 0x28 => p.ipv6.extractLsb' 0 64
  | 0x30 => s.portDrops i
  | 0x100 => s.poolReg
  | 0x108 => s.hsStatus
  | 0x110 => s.rcptLate
  | _ => 0

/-- The WRP_ page of a link. -/
def State.wrpPage (s : State) (i o : Nat) : Word64 :=
  let l := s.link i
  if o = 0 then l.ctrl
  else if o = 8 then l.status
  else if o = 0x10 then l.retry
  else if 0x20 ≤ o ∧ o < 0x68 then l.laneErrors ((o - 0x20) / 8)
  else 0

/-- The MEM_ page of a stack, and of SRAM, scrub and staging. -/
def State.memPage (s : State) (m o : Nat) : Word64 :=
  if m < 8 then
    let k := s.stack m
    match o with
    | 0x00 => k.status
    | 0x10 => k.slotMap 0
    | 0x18 => k.slotMap 1
    | 0x20 => k.slotMap 2
    | 0x28 => k.slotMap 3
    | 0x30 => place 0 k.retired
    | 0x38 => k.moveReg
    | 0x40 => s.eccCount m
    | 0x48 => k.eccLast
    | 0x50 => k.lastSyndrome
    | _ => 0
  else if o = 0 then s.sramEcc
  else if o = 8 then s.memScrub
  else if 0x100 ≤ o ∧ o < 0x140 then s.memStaging ((o - 0x100) / 8)
  else if o = 0x140 then place 0 (s.coarse s.mem.stagingMiss)
  else 0

/-- The SPL_ page of a core. -/
def State.splPage (s : State) (n o : Nat) : Word64 :=
  match o with
  | 0x00 => s.splCore n
  | 0x08 => s.splSlots n
  | 0x10 => s.splEngineFaults n
  | 0x18 => s.splReplays n
  | _ => 0

/-- The 8 bytes at an aligned BAR0 offset (R371); after a failed ROM self-test only TST_PHASE reads other than zero (R426). -/
def State.bar0 (s : State) (off : Nat) : Word64 :=
  let o := off % 0x1000
  if s.romDead && off != 0xE000 then 0
  else match off / 0x1000 with
  | 0x0 => s.hstPage o
  | 0x1 => s.pcie.msixLoad o
  | 0x2 => if o < 32 then s.pcie.pba.extractLsb' (8 * o) 64 else 0
  | 0x3 => s.dmaPage o
  | 0x4 => s.secPage o
  | 0x5 => s.rngPage o
  | 0x6 => s.pwrPage o
  | 0x7 => s.accPage o
  | 0x8 => s.mskPage o
  | 0x9 => s.polPage o
  | 0xA => s.gatPage o
  | 0xB => s.vltPage o
  | 0xC => s.fltPage o
  | 0xD => s.cntPage o
  | 0xE => s.tstPage o
  | page =>
    if 0x10 ≤ page ∧ page < 0x18 then s.ingPage (page - 0x10) o
    else if 0x18 ≤ page ∧ page < 0x20 then s.wrpPage (page - 0x18) o
    else if 0x20 ≤ page ∧ page < 0x29 then s.memPage (page - 0x20) o
    else if 0x30 ≤ page ∧ page < 0x54 then s.splPage (page - 0x30) o
    else 0

/-- The 8 bytes at an aligned BAR2 offset: a ring page, where the doorbells read zero (R62, R370). -/
def State.bar2 (s : State) (off : Nat) : Word64 :=
  let n := off / 0x10000
  let r := s.ring n
  if 64 ≤ n then 0
  else match off % 0x10000 with
  | 0x1000 => r.ctrl
  | 0x1008 => place 12 r.sqBase
  | 0x1010 => place 12 r.cqBase
  | 0x1018 => s.ringStatus n
  | 0x1020 => place 0 r.errors
  | _ => 0

/-! ## Writes -/

/-- A write of a ring page register above the doorbells (R63 to R65): bases only while DISABLED, errors clear by ones. -/
def writeRingReg (n o : Nat) (m v : Word64) (s : State) : State :=
  let idle : Bool := (s.ring n).mode == .disabled
  match o with
  | 0x1000 => writeRingCtrl n m v s
  | 0x1008 => if idle then s.updRing n (fun r => { r with sqBase := maskField m v 12 r.sqBase }) else s
  | 0x1010 => if idle then s.updRing n (fun r => { r with cqBase := maskField m v 12 r.cqBase }) else s
  | 0x1020 => s.updRing n (fun r => { r with errors := w1c m v 0 r.errors })
  | _ => s

/-- A write of the HST_ page (R98 to R100, R113). -/
def writeHst (o : Nat) (m v : Word64) (s : State) : State :=
  match o with
  | 0x100 => s.updReel (writeReelCtrl m v)
  | 0x108 => s.updReel (fun r => if r.enabled then r else { r with base := maskField m v 12 r.base })
  | 0x110 => if m.getLsbD 0 then s.updReel (writeReelHead (v.setWidth 32)) else s
  | 0x118 => s.updReel (fun r => { r with headError := w1cFlag m v 19 r.headError, writeError := w1cFlag m v 20 r.writeError,
                                          config := w1cFlag m v 21 r.config })
  | _ =>
    if 0x800 ≤ o ∧ o < 0xC00 then
      let k := (o - 0x800) / 4
      let s := updVec k (fun x => { x with count := maskField m v 0 x.count, delayUs := maskField m v 16 x.delayUs }) s
      updVec (k + 1) (fun x => { x with count := maskField m v 32 x.count, delayUs := maskField m v 48 x.delayUs }) s
    else s

/-- A write of RNG_CTRL: RETEST counts in FAILED and RESEED in READY (R314, R317). -/
def writeRngCtrl (m v : Word64) (s : State) : State :=
  let s := if m.getLsbD 0 && v.getLsbD 0 then writeRetest s else s
  if m.getLsbD 1 && v.getLsbD 1 && s.rng.mode == .ready then s.updRng (fun g => { g with reseed := true, reseedDue := true }) else s

/-- A write of an ING_ page (R115). -/
def writeIng (i o : Nat) (m v : Word64) (s : State) : State :=
  match o with
  | 0x00 => writePortCtrl i m v s
  | 0x10 => s.updPort i (fun p => { p with mac := maskField m v 0 p.mac })
  | 0x18 => s.updPort i (fun p => { p with ipv4 := maskField m v 0 p.ipv4 })
  | 0x20 => s.updPort i (fun p => { p with ipv6 := maskField m v 0 (p.ipv6.extractLsb' 64 64) ++ p.ipv6.extractLsb' 0 64 })
  | 0x28 => s.updPort i (fun p => { p with ipv6 := p.ipv6.extractLsb' 64 64 ++ maskField m v 0 (p.ipv6.extractLsb' 0 64) })
  | _ => s

/-- A masked write of the 8 bytes at an aligned BAR0 offset (R8, R371). -/
def writeBar0 (off : Nat) (m v : Word64) (s : State) : State :=
  let o := off % 0x1000
  match off / 0x1000 with
  | 0x0 => writeHst o m v s
  | 0x1 => msixStore o m v s
  | 0x3 =>
    if o = 0 then writeDmaCtrl m v s
    else if o = 0x10 then s.updPcie (fun p => { p with err := w1c m v 0 p.err })
    else s
  | 0x5 => if o = 8 then writeRngCtrl m v s else s
  | 0x9 => if o = 0 then writeObjSel m v s else s
  | 0xC =>
    if o = 0 then s.updFaults (fun f => { f with injectRefused := w1cFlag m v 10 f.injectRefused })
    else if o = 0x30 ∧ m.getLsbD 24 then writeInject v s
    else s
  | 0xD =>
    if 0x10 ≤ o ∧ o < 0x30 then s.updCounters (fun c => c.clearOvf ((o - 0x10) / 8) m v)
    else if o = 0x40 then s.updCounters (fun c => { c with head := maskField m v 0 c.head })
    else s
  | page => if 0x10 ≤ page ∧ page < 0x18 then writeIng (page - 0x10) o m v s else s

/-- The bits that a write of one part covers. -/
def partMask (wide high : Bool) : Word64 := if wide then 0xFFFFFFFFFFFFFFFF else if high then 0xFFFFFFFF00000000 else 0xFFFFFFFF

/-- A write that R370 allows: 32 or 64 bits, naturally aligned, and no 64-bit write over the doorbells. -/
def writeAllowed (bar2 : Bool) (offset : Nat) (wide : Bool) : Bool :=
  (if wide then offset % 8 == 0 else offset % 4 == 0) && !(bar2 && wide && offset % 0x10000 == 0 && decide (offset < 0x400000))

/-- A write of BAR0 or BAR2 (R370, R376 note 2). -/
def registerStore (bar2 : Bool) (offset : Nat) (wide poisoned : Bool) (value : Word64) (s : State) : State :=
  let high : Bool := decide (offset % 8 = 4)
  let m := partMask wide high
  let v := if wide then value else if high then value <<< 32 else value &&& 0xFFFFFFFF
  let off := offset / 8 * 8
  if !writeAllowed bar2 offset wide then badAccess bar2 (BitVec.ofNat 26 offset) true s
  else if poisoned then s
  else if !bar2 then writeBar0 off m v s
  else
    let n := offset / 0x10000
    if 64 ≤ n then s
    else if off % 0x10000 = 0 then (if high then cqDoorbellOp n (value.setWidth 32) s else sqDoorbellOp n (value.setWidth 32) s)
    else writeRingReg n (off % 0x10000) m v s

/-- REGISTER_WRITE. -/
def execRegisterWrite (bar2 : Bool) (offset : Nat) (wide poisoned : Bool) (value : Word64) (s : State) :
    Host.Outcome State Fault Refusal :=
  .next (atBar (registerStore bar2 offset wide poisoned value) s)

/-! ## DEBUG_READ (R422, R423) -/

/-- DEBUG_READ: a range of device memory, with zeros for protected lines, or of BAR0, with nothing cleared. -/
def opDebugRead (_ : Nat) (c : Cmd) (s : State) : Verdict :=
  let space := c.inl 16 1
  let len := c.inl 20 4
  let addr := c.inl 24 8
  let d := outAt c.slate 32 c.op.row.control.not
  let unitLen := if space = 0 then 64 else 8
  let most := if space = 0 then 65536 else 4096
  let inRange : Bool := if space = 0 then s.presentMem addr len else decide (addr + len ≤ 0x4000000)
  checks (outChecks c.slate 32 0 ++
      ([(decide (space ≤ 1), inlineAt 16), resInline c 17 3,
        (decide (len % unitLen = 0 ∧ unitLen ≤ len ∧ len ≤ most), inlineAt 20),
        (decide (addr % unitLen = 0) && inRange, inlineAt 24)] : List Check)) <|
    let data := if space = 0 then ((debugLines addr len).map (debugLine s)).flatten
      else ((List.range (len / 8)).map (fun i => toLE 8 (s.bar0 (addr + 8 * i)).toNat)).flatten
    writeOut d (inlineAt 8) data (fun s => ok len (if space = 0 then denyLines 0x0F addr len s else s)) s

/-- DEBUG_READ. -/
def execDebugRead (cid : Nat) (s : State) : Host.Outcome State Fault Refusal := .next (runRow .debugRead opDebugRead cid s)

end Sys2Proof.Machine
end

