-- ==== Sys2Proof/Machine/Start.lean ====
section
/-! DEFINITION. How a command starts: its waits, checks 5 to 11 and its reads of host memory; read completions; timeouts and aborts
(R76 to R91, R282, R301, R376, R379). -/

namespace Sys2Proof.Machine

open Sys2Proof

/-! ## What a command names, and what it waits for (R76, R83 to R85) -/

/-- Two commands of a ring name the same job, and the same group or no group in one of them (R84). -/
def State.conflict (s : State) (c d : Cmd) (dblock : Bytes) : Bool :=
  let (j, g) := s.names c c.block
  let (k, h) := s.names d dblock
  j.isSome && j == k && (g == h || g.isNone || h.isNone)

/-- An earlier command of the same ring holds this one back (R83, R84). -/
def State.heldBy (s : State) (earlier c : Cmd) (block : Bytes) : Bool :=
  earlier.phase == .fetched || slateFence earlier.slate || slateFence c.slate
    || (earlier.phase != .committed && s.conflict earlier c block)

/-- A fetched command still waits for commands of its own ring or for those it awaits (R83 to R85). -/
def State.ringWaits (s : State) (cid : Nat) (c : Cmd) (block : Bytes) : Bool :=
  !c.awaits.isEmpty || s.cmds.any (fun e => decide (e.1 < cid) && e.2.ring == c.ring && !e.2.silent && s.heldBy e.2 c block)

/-- A fetched command still waits: by R83 to R85, or, being a bulk command, for a control-class command that can be dispatched (R72). -/
def State.startWaits (s : State) (cid : Nat) (c : Cmd) (block : Bytes) : Bool :=
  s.ringWaits cid c block
    || (!c.op.row.control && s.cmds.any (fun e => e.2.op.row.control && e.2.phase == .fetched && !s.ringWaits e.1 e.2 []))

/-! ## Checks 5 to 10 (R77 to R79, R91) -/

/-- Opcodes that ROM mode serves (R282). -/
def Opcode.inRom : Opcode → Bool
  | .identify | .attest | .fwStage | .fwActivate => true
  | _ => false

/-- Opcodes that load keys (R91). -/
def Opcode.loadsKeys : Opcode → Bool
  | .tenantOpen | .jobOpen | .polyKeyLoad | .vaultLoad | .ownerEnrol | .keyUpdate | .keyStage | .keyCommit | .devsetEnrol => true
  | _ => false

/-- Check 5: device state allows the opcode (R91, R282, R301). TENANT_OPEN and FW_ACTIVATE check a handover themselves. -/
def State.stateRefuses (s : State) (c : Cmd) : Option Status :=
  let op := c.op
  if s.trust.romMode && !op.inRom then some .notPermitted
  else if s.faults.outOfService && !op.whileOut then some .notPermitted
  else if s.trust.handover.isSome && op.tenantRole then some .notPermitted
  else if s.side.qualified.getLsbD 0 && op.loadsKeys then some .zeroized
  else if s.trust.tenant.isNone && op.tenantRole && (!op.row.roles.o || slateAuth c.slate) then some .notPermitted
  else none

/-- DETAIL of a refusal that no entry causes (R81). -/
def noEntryFor (op : Opcode) : Nat := if op.isList then noEntry else 0

/-- The command key of a trailer's ROLE. -/
def roleName (role : Nat) : KeyName := if role = 1 then .cmdT else .cmdM

/-- The last counter accepted for a trailer's ROLE, where it has a command key (R79, R291). -/
def State.roleCounter (s : State) (role : Nat) : Option Nat :=
  if role = 1 then s.trust.tenant.map (·.counter) else s.trust.owner.map (·.counter)

/-- A verified trailer's COUNTER becomes the last accepted value of its role (R79). -/
def acceptCounter (role n : Nat) (s : State) : State :=
  s.updTrust (fun t =>
    if role = 1 then { t with tenant := t.tenant.map (fun x => { x with counter := n }) }
    else { t with owner := t.owner.map (fun x => { x with counter := n }) })

/-- What AUTH_TAG is computed over (R79). -/
def State.trailerText (s : State) (c : Cmd) : Bytes :=
  ascii "LN7300-CMD" ++ fitBytes 32 s.identityHash ++ slice c.slate 0 2 ++ slice c.slate 8 3 ++ slice c.slate 12 2
    ++ slateInline c.slate ++ c.block.take (c.block.length - 32)

/-- Checks 7 to 10: the refusal, or the role whose trailer has verified, if the command carries one (R78, R79). -/
def State.trailerRefuses (s : State) (c : Cmd) : Sum (Status × Nat) (Option Nat) :=
  let roles := c.op.row.roles
  let n := c.block.length
  let role := byteAt c.block (n - 48)
  if !slateAuth c.slate then (if roles.o || roles.oStar then .inr none else .inl (.notPermitted, noEntryFor c.op))
  else if n < 48 then .inl (.badParam, 12)
  else if role ≠ 1 ∧ role ≠ 2 then .inl (.badParam, blockAt (n - 48))
  else match nonZero? c.block (n - 47) 7 with
    | some o => .inl (.badParam, blockAt o)
    | none =>
      if !(if role = 1 then roles.t else roles.m) then .inl (.notPermitted, 0)
      else match s.roleCounter role with
        | none => .inl (.notPermitted, 0)
        | some last =>
          if c.counter ≤ last then .inl (.counterStale, 0)
          else if s.mac (roleName role) (s.trailerText c) ≠ c.block.drop (n - 32) then .inl (.authFail, 0)
          else .inr (some role)

/-! ## Timeouts and aborts (R86, R88, R89) -/

/-- COMMAND_TIMEOUT. -/
def execCommandTimeout (cid : Nat) (s : State) : Host.Outcome State Fault Refusal := .next (releaseIdle (timeoutCmd cid s))

/-- CMD_ABORT aborts the outstanding commands of a ring and tag that are not past their commit point (R89). Where its own ring and tag
are the ones named it does not abort itself: DESIGN CHOICE (log entry 107). -/
def opCmdAbort (me : Nat) (c : Cmd) (s : State) : Verdict :=
  checks [(c.inl 0 1 < 64, inlineAt 0), resInline c 1 3, resInline c 8 24] <|
    let hit := (s.cmds.filter (fun e => e.2.ring = c.inl 0 1 ∧ slateTag e.2.slate = BitVec.ofNat 32 (c.inl 4 4)
      ∧ e.2.phase ≠ .committed ∧ e.1 ≠ me)).map (·.1)
    ok (if hit.isEmpty then 0 else 1) (releaseIdle (hit.foldl (fun s i => complete i .aborted 0 0 s) s))

/-- CMD_ABORT. -/
def execCmdAbort (cid : Nat) (s : State) : Host.Outcome State Fault Refusal := .next (runRow .cmdAbort opCmdAbort cid s)

/-! ## Check 11 and the start (R77) -/

/-- An opcode's own checks and effect, in its owning chapter. -/
def ownVerdict (cid : Nat) (c : Cmd) (s : State) : Verdict :=
  match c.op with
  | .nop => opNop cid c s
  | .identify => opIdentify cid c s
  | .setHostTime => opSetHostTime cid c s
  | .cmdAbort => opCmdAbort cid c s
  | .tenantOpen => opTenantOpen cid c s
  | .tenantHandover => opTenantHandover cid c s
  | .tenantPolicySet => opTenantPolicySet cid c s
  | .jobOpen => opJobOpen cid c s
  | .jobClose => opJobClose cid c s
  | .takeOpen => opTakeOpen cid c s
  | .takeClose => opTakeClose cid c s
  | .takeAbort => opTakeAbort cid c s
  | .setBudget => opSetBudget cid c s
  | .regionRegister => opRegionRegister cid c s
  | .regionRevoke => opRegionRevoke cid c s
  | .connOpen => opConnOpen cid c s
  | .connClose => opConnClose cid c s
  | .wrPost => opWrPost cid c s
  | .wrCancel => opWrCancel cid c s
  | .stagingMap => opStagingMap cid c s
  | .scrubConfigure => opScrubConfigure cid c s
  | .graphLoad => opGraphLoad cid c s
  | .groupOpen => opGroupOpen cid c s
  | .groupDrain => opGroupDrain cid c s
  | .groupClose => opGroupClose cid c s
  | .accConfigure => opAccConfigure cid c s
  | .accCombine => opAccCombine cid c s
  | .maskConfigure => opMaskConfigure cid c s
  | .maskSeedsSubmit => opMaskSeedsSubmit cid c s
  | .maskRemove => opMaskRemove cid c s
  | .polyParamsLoad => opPolyParamsLoad cid c s
  | .polyTableBuild => opPolyTableBuild cid c s
  | .polyKeyLoad => opPolyKeyLoad cid c s
  | .polyNtt => opPoly cid c s
  | .polyAdd => opPoly cid c s
  | .polyKeyswitch => opPoly cid c s
  | .polyModred => opPoly cid c s
  | .polyEncNoise => opPoly cid c s
  | .polyDecShare => opPoly cid c s
  | .polyToShares => opPoly cid c s
  | .gatePolicySet => opGatePolicySet cid c s
  | .gateRelease => opGateRelease cid c s
  | .vaultConfigure => opVaultConfigure cid c s
  | .vaultLoad => opVaultLoad cid c s
  | .vaultStep => opVaultStep cid c s
  | .vaultExport => opVaultExport cid c s
  | .attest => opAttest cid c s
  | .challenge => opChallenge cid c s
  | .ownerEnrol => opOwnerEnrol cid c s
  | .keyUpdate => opKeyUpdate cid c s
  | .keyStage => opKeyStage cid c s
  | .keyCommit => opKeyCommit cid c s
  | .devsetEnrol => opDevsetEnrol cid c s
  | .getRandom => opGetRandom cid c s
  | .cntRead => opCntRead cid c s
  | .cntConfigure => opCntConfigure cid c s
  | .dailiesConfigure => opDailiesConfigure cid c s
  | .traceConfigure => opTraceConfigure cid c s
  | .traceRead => opTraceRead cid c s
  | .debugRead => opDebugRead cid c s
  | .warpConfigure => opWarpConfigure cid c s
  | .warpRetrain => opWarpRetrain cid c s
  | .linkTest => opLinkTest cid c s
  | .selfTest => opSelfTest cid c s
  | .fwStage => opFwStage cid c s
  | .fwActivate => opFwActivate cid c s

/-- Where the scatter list of an opcode's input stands in its block (R94). -/
def Cmd.inputAt (c : Cmd) : Option Nat :=
  match c.op with
  | .cntConfigure | .maskSeedsSubmit | .wrPost | .fwStage => some 0
  | .polyKeyLoad => if c.par 0 1 = 1 then none else some 128
  | .vaultLoad => some 16
  | _ => none

/-- The pieces of a command's input. -/
def Cmd.pieces (c : Cmd) : List Piece :=
  match c.inputAt with
  | none => []
  | some off => match scatterAt c.body off with
    | .inl _ => []
    | .inr (ps, _) => ps

/-- A command that has passed checks 5 to 10 starts: it is refused by check 11, or its input is asked for. A command that names a failed group
ends with the failing status unless one of its fields is wrong (R182). -/
def startCmd (cid : Nat) (c : Cmd) (s : State) : State :=
  let c := { c with phase := .started }
  let s := { s with cmds := Table.put s.cmds cid c }
  let s := addTrace 1 (BitVec.ofNat 8 c.job) (BitVec.ofNat 8 c.group) (256 * 0x0C + c.ring) 0
    ([BitVec.ofNat 8 c.ring, 0, 0, 0] ++ toLE 4 (slateTag c.slate).toNat ++ toLE 2 (leAt c.slate 0 2)) s
  match ownVerdict cid c s, s.groupFails c with
  | .refuse .badParam d r, _ => settle cid c (.refuse .badParam d r) s
  | _, some st => complete cid st 0 0 s
  | .refuse st d r, none => settle cid c (.refuse st d r) s
  | _, none =>
    let ps := c.pieces
    askHost (.command cid) ps (s.updCmd cid (fun c => { c with inputLen := piecesLen ps }))

/-- Checks 7 to 11, once the block has been read (R77). -/
def startWith (cid : Nat) (c : Cmd) (s : State) : State :=
  match s.trailerRefuses c with
  | .inl (st, d) => complete cid st d 0 (if st = .authFail ∨ st = .counterStale then countKeyRefused s else s)
  | .inr none => startCmd cid c s
  | .inr (some role) => startCmd cid c (acceptCounter role c.counter (deliverMac (roleName role) s))

/-- The bytes of a block that has been read. -/
def HostRead.bytes : HostRead → Bytes
  | .data b => b
  | _ => []

/-- COMMAND_START: a fetched command starts after its waits, with what the read of its parameter block returns (R77, R83 to R85). -/
def commandStart (cid : Nat) (r : HostRead) (s : State) : State :=
  match s.cmd? cid with
  | none => s
  | some c =>
    let n := slateParamLen c.slate
    let b := if n = 0 then [] else fitBytes n (HostRead.bytes r)
    if c.phase ≠ .fetched ∨ !s.serving ∨ s.startWaits cid c b then s
    else if c.depBad && slateNeedOk c.slate then complete cid .depFailed 0 0 s
    else match s.stateRefuses c with
      | some st => complete cid st (noEntryFor c.op) 0 s
      | none =>
        if n = 0 then startWith cid c s
        else if !s.shuttleOpen then s
        else
          let (r, s) := reach c.op.row.control r (slateParamPtr c.slate) n s
          match readError? r with
          | some (detail, _) => complete cid .hostFault detail 0 s
          | none => startWith cid { c with block := b } s

/-- COMMAND_START. -/
def execCommandStart (cid : Nat) (block : HostRead) (s : State) : Host.Outcome State Fault Refusal := .next (commandStart cid block s)

/-! ## Read completions (R376, R379) -/

/-- Bytes delivered so far and bytes wanted by a requester, while it waits. -/
def State.wanted (s : State) (who : Reader) : Option (Nat × Nat) :=
  match who with
  | .command cid => (s.cmd? cid).bind (fun c => if c.input.length < c.inputLen then some (c.input.length, c.inputLen) else none)
  | .source n m =>
    (s.conn? n).bind (fun c => (c.wrs.find? (fun w => w.msgId == some (BitVec.ofNat 32 m) && w.fetched.isSome)).bind (fun w =>
      w.fetched.map (fun b => (b.length, w.len))))
  | .answer n m =>
    (s.conn? n).bind (fun c => (c.answers.find? (fun a => a.1 == BitVec.ofNat 32 m)).map (fun a => (a.2.2.2.length, a.2.2.1)))

/-- The next bytes of a requester's input, in address order; a source or an answer that is whole leaves as a message (R138, R127). -/
def deliverRead (who : Reader) (b : Bytes) (s : State) : State :=
  match who with
  | .command cid => s.updCmd cid (fun c => { c with input := c.input ++ b })
  | .source n m =>
    let id : Word32 := BitVec.ofNat 32 m
    match (s.conn? n).bind (fun c => c.wrs.find? (fun w => w.msgId == some id && w.fetched.isSome)) with
    | none => s
    | some w =>
      let got := (w.fetched.getD []) ++ b
      let whole : Bool := decide (w.len ≤ got.length)
      let w' := { w with fetched := if whole then none else some got }
      let s := s.updConn n (fun c => { c with wrs := c.wrs.map (fun x => if x = w then w' else x) })
      if whole then sendSource n w' id got (holdRegion (w.lkey.toNat / 256) false s) else s
  | .answer n m =>
    let id : Word32 := BitVec.ofNat 32 m
    match (s.conn? n).bind (fun c => c.answers.find? (fun a => a.1 == id)) with
    | none => s
    | some (_, key, len, got) =>
      let got := got ++ b
      if len ≤ got.length then
        enqueue n (packetsOf 0x04 0 id 0 0 0 got) (holdRegion (key.toNat / 256) false
          (s.updConn n (fun c => { c with answers := c.answers.filter (fun a => a.1 != id) })))
      else s.updConn n (fun c => { c with answers := c.answers.map (fun a => if a.1 == id then (id, key, len, got) else a) })

/-- Held completions that come next are delivered. -/
def drainBuffer : Nat → Reader → State → State
  | 0, _, s => s
  | k + 1, who, s =>
    match s.wanted who with
    | none => s.updPcie (fun p => { p with buffer := p.buffer.filter (fun e => e.1 ≠ who) })
    | some (at_, _) =>
      match s.pcie.buffer.find? (fun e => e.1 = who ∧ e.2.1 = at_) with
      | none => s
      | some e => drainBuffer k who (deliverRead who e.2.2 (s.updPcie (fun p => { p with buffer := p.buffer.erase e })))

/-- The outstanding read that a completion of `n` bytes at an input offset belongs to. -/
def Pcie.readOf (p : Pcie) (who : Reader) (off n : Nat) : Option (Reader × Nat × Nat × Nat) :=
  p.reads.find? (fun e => e.1 = who ∧ e.2.1 ≤ off ∧ off < e.2.1 + e.2.2.2 ∧ off + n ≤ e.2.1 + e.2.2.2)

/-- What stays outstanding of a read when `n` bytes at an input offset have come. -/
def restOf (e : Reader × Nat × Nat × Nat) (off n : Nat) : List (Reader × Nat × Nat × Nat) :=
  let left := off - e.2.1
  let right := e.2.1 + e.2.2.2 - (off + n)
  (if left = 0 then [] else [(e.1, e.2.1, e.2.2.1, left)]) ++ (if right = 0 then [] else [(e.1, off + n, e.2.2.1 + left + n, right)])

/-- An outstanding read ends with an error: it is counted, and its requester fails (R376). -/
def readEnds (e : Reader × Nat × Nat × Nat) (detail bit : Nat) (s : State) : State :=
  let s := shuttleError bit e.2.2.1 (s.updPcie (fun p => { p with reads := p.reads.erase e }))
  if (s.wanted e.1).isNone then s
  else
    let kept := s.pcie.buffer.filter (fun x => x.1 ≠ e.1)
    let asks := s.pcie.asks.filter (fun x => x.1 ≠ e.1)
    releaseIdle (readFailed e.1 detail (s.updPcie (fun p => { p with buffer := kept, asks := asks })))

/-- SHUTTLE_READ_COMPLETION: data is placed and delivered in address order, an error fails the requester, and a completion that
matches no outstanding read is unexpected (R376, R379). -/
def readCompletion (who : Reader) (off : Nat) (r : HostRead) (s : State) : State :=
  let n := (HostRead.bytes r).length
  match s.pcie.readOf who off n with
  | none =>
    let (v, s) := s.draw
    shuttleError 5 v.toNat s
  | some e =>
    match readError? r with
    | some (detail, bit) => readEnds e detail bit s
    | none =>
      let left := s.pcie.reads.flatMap (fun (x : Reader × Nat × Nat × Nat) => if x = e then restOf e off n else [x])
      let s := noteRead r e.2.2.1 (s.updPcie (fun p => { p with reads := left }))
      if (s.wanted who).isNone then s
      else
        let s := s.updPcie (fun p => { p with buffer := p.buffer ++ [(who, off, HostRead.bytes r)] })
        drainBuffer s.pcie.buffer.length who s

/-- SHUTTLE_READ_COMPLETION. -/
def execShuttleReadCompletion (reader : Reader) (offset : Nat) (result : HostRead) (s : State) : Host.Outcome State Fault Refusal :=
  .next (if s.pcie.ready then readCompletion reader offset result s else s)

/-- SHUTTLE_COMPLETION_TIMEOUT: the oldest outstanding read of a requester times out (R376). -/
def execShuttleCompletionTimeout (reader : Reader) (s : State) : Host.Outcome State Fault Refusal :=
  .next (match s.pcie.reads.find? (fun e => e.1 = reader) with
    | none => s
    | some e => readEnds e 4 0 s)

end Sys2Proof.Machine
end

