-- ==== Sys2Proof/Machine/Dispatch.lean ====
section
/-! DEFINITION. One arm per command: the meaning that runs it. -/

namespace Sys2Proof.Machine

/-- The effect of a command on everything but the queue. -/
def exec (i : Instr) (s : State) : Host.Outcome State Fault Refusal :=
  match i with
  | .powerApplied => Sys2Proof.Machine.execPowerApplied s
  | .inputExcursion input10mv => Sys2Proof.Machine.execInputExcursion input10mv s
  | .inputBackInRange input10mv => Sys2Proof.Machine.execInputBackInRange input10mv s
  | .inputOutOfRange => Sys2Proof.Machine.execInputOutOfRange s
  | .inputRemoved => Sys2Proof.Machine.execInputRemoved s
  | .intermediateBusRetry busGood railsGood => Sys2Proof.Machine.execIntermediateBusRetry busGood railsGood s
  | .oscTrim => Sys2Proof.Machine.execOscTrim s
  | .ptimeMirrorUpdate => Sys2Proof.Machine.execPtimeMirrorUpdate s
  | .secPtimeLowRead => Sys2Proof.Machine.execSecPtimeLowRead s
  | .secPtimeHighRead => Sys2Proof.Machine.execSecPtimeHighRead s
  | .pwrOkQualify => Sys2Proof.Machine.execPwrOkQualify s
  | .zeroizeNAssert => Sys2Proof.Machine.execZeroizeNAssert s
  | .zeroizeNRelease => Sys2Proof.Machine.execZeroizeNRelease s
  | .hotInNAssert => Sys2Proof.Machine.execHotInNAssert s
  | .hotInNRelease => Sys2Proof.Machine.execHotInNRelease s
  | .thermTripNExternal => Sys2Proof.Machine.execThermTripNExternal s
  | .vio3v3Loss => Sys2Proof.Machine.execVio3v3Loss s
  | .perstNAssert => Sys2Proof.Machine.execPerstNAssert s
  | .perstNRelease => Sys2Proof.Machine.execPerstNRelease s
  | .sidebandUnqualified input => Sys2Proof.Machine.execSidebandUnqualified input s
  | .hotResetOrDlDown => Sys2Proof.Machine.execHotResetOrDlDown s
  | .flr => Sys2Proof.Machine.execFlr s
  | .configRequest access => Sys2Proof.Machine.execConfigRequest access s
  | .powerStateChange busMaster memSpace d3hot => Sys2Proof.Machine.execPowerStateChange busMaster memSpace d3hot s
  | .pcieLinkRetrain speed width => Sys2Proof.Machine.execPcieLinkRetrain speed width s
  | .registerWrite bar2 offset wide poisoned value => Sys2Proof.Machine.execRegisterWrite bar2 offset wide poisoned value s
  | .barBadAccess bar2 offset store => Sys2Proof.Machine.execBarBadAccess bar2 offset store s
  | .stagingAccess offset access => Sys2Proof.Machine.execStagingAccess offset access s
  | .msixVectorUnmask vector => Sys2Proof.Machine.execMsixVectorUnmask vector s
  | .vectorDelayExpiry vector => Sys2Proof.Machine.execVectorDelayExpiry vector s
  | .sqDoorbell ring value => Sys2Proof.Machine.execSqDoorbell ring value s
  | .cqDoorbell ring value => Sys2Proof.Machine.execCqDoorbell ring value s
  | .ringEnable ring value => Sys2Proof.Machine.execRingEnable ring value s
  | .ringDisable ring value => Sys2Proof.Machine.execRingDisable ring value s
  | .slateFetch r => Sys2Proof.Machine.execSlateFetch r s
  | .slatePhaseReread ring r => Sys2Proof.Machine.execSlatePhaseReread ring r s
  | .commandStart cid block => Sys2Proof.Machine.execCommandStart cid block s
  | .commandTimeout cid => Sys2Proof.Machine.execCommandTimeout cid s
  | .cqRecordWrite ring => Sys2Proof.Machine.execCqRecordWrite ring s
  | .nop cid => Sys2Proof.Machine.execNop cid s
  | .identify cid => Sys2Proof.Machine.execIdentify cid s
  | .setHostTime cid => Sys2Proof.Machine.execSetHostTime cid s
  | .cmdAbort cid => Sys2Proof.Machine.execCmdAbort cid s
  | .tenantOpen cid => Sys2Proof.Machine.execTenantOpen cid s
  | .tenantHandover cid => Sys2Proof.Machine.execTenantHandover cid s
  | .handoverSettleEnd settled fresh0 fresh1 => Sys2Proof.Machine.execHandoverSettleEnd settled fresh0 fresh1 s
  | .tenantPolicySet cid => Sys2Proof.Machine.execTenantPolicySet cid s
  | .jobOpen cid => Sys2Proof.Machine.execJobOpen cid s
  | .jobClose cid => Sys2Proof.Machine.execJobClose cid s
  | .takeOpen cid => Sys2Proof.Machine.execTakeOpen cid s
  | .takeOpenResume cid => Sys2Proof.Machine.execTakeOpenResume cid s
  | .takeClose cid => Sys2Proof.Machine.execTakeClose cid s
  | .takeCloseBarrier cid => Sys2Proof.Machine.execTakeCloseBarrier cid s
  | .takeAbort cid => Sys2Proof.Machine.execTakeAbort cid s
  | .setBudget cid => Sys2Proof.Machine.execSetBudget cid s
  | .regionRegister cid => Sys2Proof.Machine.execRegionRegister cid s
  | .regionRevoke cid => Sys2Proof.Machine.execRegionRevoke cid s
  | .regionFreed index => Sys2Proof.Machine.execRegionFreed index s
  | .connOpen cid => Sys2Proof.Machine.execConnOpen cid s
  | .connClose cid => Sys2Proof.Machine.execConnClose cid s
  | .disconnectFreeTimer conn => Sys2Proof.Machine.execDisconnectFreeTimer conn s
  | .wrPost cid => Sys2Proof.Machine.execWrPost cid s
  | .wrCancel cid => Sys2Proof.Machine.execWrCancel cid s
  | .wrStart conn => Sys2Proof.Machine.execWrStart conn s
  | .stagingMap cid => Sys2Proof.Machine.execStagingMap cid s
  | .scrubConfigure cid => Sys2Proof.Machine.execScrubConfigure cid s
  | .graphLoad cid => Sys2Proof.Machine.execGraphLoad cid s
  | .groupOpen cid => Sys2Proof.Machine.execGroupOpen cid s
  | .groupDrain cid => Sys2Proof.Machine.execGroupDrain cid s
  | .drainBarrierAccepted cid => Sys2Proof.Machine.execDrainBarrierAccepted cid s
  | .groupClose cid => Sys2Proof.Machine.execGroupClose cid s
  | .accConfigure cid => Sys2Proof.Machine.execAccConfigure cid s
  | .accCombine cid => Sys2Proof.Machine.execAccCombine cid s
  | .accCombineDone cid => Sys2Proof.Machine.execAccCombineDone cid s
  | .maskConfigure cid => Sys2Proof.Machine.execMaskConfigure cid s
  | .maskSeedsSubmit cid => Sys2Proof.Machine.execMaskSeedsSubmit cid s
  | .maskRegenTile ledger item => Sys2Proof.Machine.execMaskRegenTile ledger item s
  | .maskRemove cid => Sys2Proof.Machine.execMaskRemove cid s
  | .maskRemoveUnmask cid => Sys2Proof.Machine.execMaskRemoveUnmask cid s
  | .polyParamsLoad cid => Sys2Proof.Machine.execPolyParamsLoad cid s
  | .polyTableBuild cid => Sys2Proof.Machine.execPolyTableBuild cid s
  | .tableLimbBuilt heddle slot1 agree => Sys2Proof.Machine.execTableLimbBuilt heddle slot1 agree s
  | .tableBuildDone cid => Sys2Proof.Machine.execTableBuildDone cid s
  | .polyKeyLoad cid => Sys2Proof.Machine.execPolyKeyLoad cid s
  | .polyObjectFree cid => Sys2Proof.Machine.execPolyObjectFree cid s
  | .polyObjectErase object => Sys2Proof.Machine.execPolyObjectErase object s
  | .polyNtt cid => Sys2Proof.Machine.execPolyNtt cid s
  | .polyAdd cid => Sys2Proof.Machine.execPolyAdd cid s
  | .polyKeyswitch cid => Sys2Proof.Machine.execPolyKeyswitch cid s
  | .polyModred cid => Sys2Proof.Machine.execPolyModred cid s
  | .polyEncNoise cid => Sys2Proof.Machine.execPolyEncNoise cid s
  | .polyDecShare cid => Sys2Proof.Machine.execPolyDecShare cid s
  | .polyToShares cid => Sys2Proof.Machine.execPolyToShares cid s
  | .polyCommit cid => Sys2Proof.Machine.execPolyCommit cid s
  | .gatePolicySet cid => Sys2Proof.Machine.execGatePolicySet cid s
  | .gateRelease cid => Sys2Proof.Machine.execGateRelease cid s
  | .gateReleaseCommit cid => Sys2Proof.Machine.execGateReleaseCommit cid s
  | .vaultConfigure cid => Sys2Proof.Machine.execVaultConfigure cid s
  | .vaultLoad cid => Sys2Proof.Machine.execVaultLoad cid s
  | .vaultStep cid => Sys2Proof.Machine.execVaultStep cid s
  | .vaultExport cid => Sys2Proof.Machine.execVaultExport cid s
  | .attest cid => Sys2Proof.Machine.execAttest cid s
  | .challenge cid => Sys2Proof.Machine.execChallenge cid s
  | .ownerEnrol cid => Sys2Proof.Machine.execOwnerEnrol cid s
  | .keyUpdate cid => Sys2Proof.Machine.execKeyUpdate cid s
  | .devsetEnrol cid => Sys2Proof.Machine.execDevsetEnrol cid s
  | .keyStage cid => Sys2Proof.Machine.execKeyStage cid s
  | .keyCommit cid => Sys2Proof.Machine.execKeyCommit cid s
  | .getRandom cid => Sys2Proof.Machine.execGetRandom cid s
  | .cntRead cid => Sys2Proof.Machine.execCntRead cid s
  | .cntConfigure cid => Sys2Proof.Machine.execCntConfigure cid s
  | .dailiesConfigure cid => Sys2Proof.Machine.execDailiesConfigure cid s
  | .traceConfigure cid => Sys2Proof.Machine.execTraceConfigure cid s
  | .traceRead cid => Sys2Proof.Machine.execTraceRead cid s
  | .debugRead cid => Sys2Proof.Machine.execDebugRead cid s
  | .warpConfigure cid => Sys2Proof.Machine.execWarpConfigure cid s
  | .warpRetrain cid => Sys2Proof.Machine.execWarpRetrain cid s
  | .linkTest cid => Sys2Proof.Machine.execLinkTest cid s
  | .linkTestEnd cid lanes wireFail => Sys2Proof.Machine.execLinkTestEnd cid lanes wireFail s
  | .selfTest cid => Sys2Proof.Machine.execSelfTest cid s
  | .selfTestEnd cid failing failed elapsedMs => Sys2Proof.Machine.execSelfTestEnd cid failing failed elapsedMs s
  | .fwStage cid => Sys2Proof.Machine.execFwStage cid s
  | .fwActivate cid => Sys2Proof.Machine.execFwActivate cid s
  | .reelEnable value => Sys2Proof.Machine.execReelEnable value s
  | .reelDisable value => Sys2Proof.Machine.execReelDisable value s
  | .reelHeadWrite value => Sys2Proof.Machine.execReelHeadWrite value s
  | .hstReelLostRead half => Sys2Proof.Machine.execHstReelLostRead half s
  | .reelRecordWrite => Sys2Proof.Machine.execReelRecordWrite s
  | .rateLimitWindowEnd type srcClass srcInst => Sys2Proof.Machine.execRateLimitWindowEnd type srcClass srcInst s
  | .portEnable port value => Sys2Proof.Machine.execPortEnable port value s
  | .portDisable port value => Sys2Proof.Machine.execPortDisable port value s
  | .portLanesLocked port => Sys2Proof.Machine.execPortLanesLocked port s
  | .ethernetLaneFail port lanes fec => Sys2Proof.Machine.execEthernetLaneFail port lanes fec s
  | .ingPortDropsRead port half => Sys2Proof.Machine.execIngPortDropsRead port half s
  | .ingHsStatusRead half => Sys2Proof.Machine.execIngHsStatusRead half s
  | .ingRcptLateRead half => Sys2Proof.Machine.execIngRcptLateRead half s
  | .arpRequest port targetIp senderMac senderIp => Sys2Proof.Machine.execArpRequest port targetIp senderMac senderIp s
  | .neighbourSolicitation port target senderMac senderIp => Sys2Proof.Machine.execNeighbourSolicitation port target senderMac senderIp s
  | .write port packet => Sys2Proof.Machine.execWrite port packet s
  | .send port packet => Sys2Proof.Machine.execSend port packet s
  | .readReq port packet => Sys2Proof.Machine.execReadReq port packet s
  | .readResp port packet => Sys2Proof.Machine.execReadResp port packet s
  | .atomicAdd port packet => Sys2Proof.Machine.execAtomicAdd port packet s
  | .compareSwap port packet => Sys2Proof.Machine.execCompareSwap port packet s
  | .atomicResp port packet => Sys2Proof.Machine.execAtomicResp port packet s
  | .ackReceived port packet => Sys2Proof.Machine.execAckReceived port packet s
  | .nakReceived port packet => Sys2Proof.Machine.execNakReceived port packet s
  | .connectReq port packet => Sys2Proof.Machine.execConnectReq port packet s
  | .connectAccept port packet => Sys2Proof.Machine.execConnectAccept port packet s
  | .connectReject port packet => Sys2Proof.Machine.execConnectReject port packet s
  | .disconnect port packet => Sys2Proof.Machine.execDisconnect port packet s
  | .ackTimer conn => Sys2Proof.Machine.execAckTimer conn s
  | .retransmitTimerExpiry conn => Sys2Proof.Machine.execRetransmitTimerExpiry conn s
  | .connectRetryTimer conn => Sys2Proof.Machine.execConnectRetryTimer conn s
  | .halfOpenTimeout conn => Sys2Proof.Machine.execHalfOpenTimeout conn s
  | .reassemblyTimerExpiry conn msgId => Sys2Proof.Machine.execReassemblyTimerExpiry conn msgId s
  | .messageVisible conn => Sys2Proof.Machine.execMessageVisible conn s
  | .decapsulationDone => Sys2Proof.Machine.execDecapsulationDone s
  | .openAdmit => Sys2Proof.Machine.execOpenAdmit s
  | .segmentVerified msg segment => Sys2Proof.Machine.execSegmentVerified msg segment s
  | .messageCommit msg => Sys2Proof.Machine.execMessageCommit msg s
  | .secondPassTile msg segment => Sys2Proof.Machine.execSecondPassTile msg segment s
  | .sessionExpire index => Sys2Proof.Machine.execSessionExpire index s
  | .descentWritten group tile token seqs => Sys2Proof.Machine.execDescentWritten group tile token seqs s
  | .scaleConfirm group bankB => Sys2Proof.Machine.execScaleConfirm group bankB s
  | .scaleConfirmTimeout group slice => Sys2Proof.Machine.execScaleConfirmTimeout group slice s
  | .spillUpdateApply group bankTile seq => Sys2Proof.Machine.execSpillUpdateApply group bankTile seq s
  | .bankFinal group bankB => Sys2Proof.Machine.execBankFinal group bankB s
  | .bankZeroed group bankB => Sys2Proof.Machine.execBankZeroed group bankB s
  | .stationTileTimeout group slice => Sys2Proof.Machine.execStationTileTimeout group slice s
  | .sliceMigrationMerge group slice => Sys2Proof.Machine.execSliceMigrationMerge group slice s
  | .lateEpochTile group slice seq epoch => Sys2Proof.Machine.execLateEpochTile group slice seq epoch s
  | .gatRefusalsRead half => Sys2Proof.Machine.execGatRefusalsRead half s
  | .accCombineDropsRead half => Sys2Proof.Machine.execAccCombineDropsRead half s
  | .mskRegenRead half => Sys2Proof.Machine.execMskRegenRead half s
  | .polRefusalsRead half => Sys2Proof.Machine.execPolRefusalsRead half s
  | .polObjSelWrite value => Sys2Proof.Machine.execPolObjSelWrite value s
  | .secCountsRead half => Sys2Proof.Machine.execSecCountsRead half s
  | .workingKeyRemask => Sys2Proof.Machine.execWorkingKeyRemask s
  | .rngStartupTestDone samples kat => Sys2Proof.Machine.execRngStartupTestDone samples kat s
  | .rngStartupRepeat => Sys2Proof.Machine.execRngStartupRepeat s
  | .healthTestFail source adaptive => Sys2Proof.Machine.execHealthTestFail source adaptive s
  | .rngRetestTimer => Sys2Proof.Machine.execRngRetestTimer s
  | .rngRetest => Sys2Proof.Machine.execRngRetest s
  | .rngRetestDone samples kat => Sys2Proof.Machine.execRngRetestDone samples kat s
  | .rngReseed fresh0 fresh1 => Sys2Proof.Machine.execRngReseed fresh0 fresh1 s
  | .drbgReseedDue fresh0 fresh1 => Sys2Proof.Machine.execDrbgReseedDue fresh0 fresh1 s
  | .drbgGenerate => Sys2Proof.Machine.execDrbgGenerate s
  | .rngCountsRead half => Sys2Proof.Machine.execRngCountsRead half s
  | .budgetWindow reading => Sys2Proof.Machine.execBudgetWindow reading s
  | .kCalibration => Sys2Proof.Machine.execKCalibration s
  | .baseVoltageRecompute => Sys2Proof.Machine.execBaseVoltageRecompute s
  | .pwrThrottleCntRead half => Sys2Proof.Machine.execPwrThrottleCntRead half s
  | .memoryRefresh => Sys2Proof.Machine.execMemoryRefresh s
  | .scrubPass findings => Sys2Proof.Machine.execScrubPass findings s
  | .spareCopyDone stack => Sys2Proof.Machine.execSpareCopyDone stack s
  | .reshapeDone stack => Sys2Proof.Machine.execReshapeDone stack s
  | .memEccCountRead stack half => Sys2Proof.Machine.execMemEccCountRead stack half s
  | .memSramEccRead half => Sys2Proof.Machine.execMemSramEccRead half s
  | .memStagingMissRead half => Sys2Proof.Machine.execMemStagingMissRead half s
  | .shuttleReadCompletion reader offset result => Sys2Proof.Machine.execShuttleReadCompletion reader offset result s
  | .shuttleCompletionTimeout reader => Sys2Proof.Machine.execShuttleCompletionTimeout reader s
  | .dmaBarErrRead half => Sys2Proof.Machine.execDmaBarErrRead half s
  | .dmaBytesReadRead half => Sys2Proof.Machine.execDmaBytesReadRead half s
  | .dmaBytesWrittenRead half => Sys2Proof.Machine.execDmaBytesWrittenRead half s
  | .dmaPreemptRead half => Sys2Proof.Machine.execDmaPreemptRead half s
  | .warpTrainingDone link peer => Sys2Proof.Machine.execWarpTrainingDone link peer s
  | .warpLaneFail link lane => Sys2Proof.Machine.execWarpLaneFail link lane s
  | .linkFrameData link frame => Sys2Proof.Machine.execLinkFrameData link frame s
  | .linkFrameAck link frame => Sys2Proof.Machine.execLinkFrameAck link frame s
  | .linkFrameNak link frame => Sys2Proof.Machine.execLinkFrameNak link frame s
  | .warpReplayTimer link => Sys2Proof.Machine.execWarpReplayTimer link s
  | .warpCreditStarvation link => Sys2Proof.Machine.execWarpCreditStarvation link s
  | .wrpRetryRead link half => Sys2Proof.Machine.execWrpRetryRead link half s
  | .wrpLaneErrRead link lane half => Sys2Proof.Machine.execWrpLaneErrRead link lane half s
  | .faultDetected detector site => Sys2Proof.Machine.execFaultDetected detector site s
  | .handshakeWatchdog site => Sys2Proof.Machine.execHandshakeWatchdog site s
  | .coreTileTimeout core => Sys2Proof.Machine.execCoreTileTimeout core s
  | .handlerTimeout site => Sys2Proof.Machine.execHandlerTimeout site s
  | .recoveryDone site items steps => Sys2Proof.Machine.execRecoveryDone site items steps s
  | .cpHeartbeatMiss processor => Sys2Proof.Machine.execCpHeartbeatMiss processor s
  | .cpWatchdog processor => Sys2Proof.Machine.execCpWatchdog processor s
  | .cpRestartDone processor passed => Sys2Proof.Machine.execCpRestartDone processor passed s
  | .deviceWarmRestart => Sys2Proof.Machine.execDeviceWarmRestart s
  | .deviceWarmRestartEnd named health => Sys2Proof.Machine.execDeviceWarmRestartEnd named health s
  | .faultInject value => Sys2Proof.Machine.execFaultInject value s
  | .fltCountsRead half => Sys2Proof.Machine.execFltCountsRead half s
  | .fltCpRead half => Sys2Proof.Machine.execFltCpRead half s
  | .splEngineFaultsRead core half => Sys2Proof.Machine.execSplEngineFaultsRead core half s
  | .splReplaysRead core half => Sys2Proof.Machine.execSplReplaysRead core half s
  | .counterIncrement event inst job n => Sys2Proof.Machine.execCounterIncrement event inst job n s
  | .sampleRequest slot inst job skid station core seq => Sys2Proof.Machine.execSampleRequest slot inst job skid station core seq s
  | .dailiesLatch => Sys2Proof.Machine.execDailiesLatch s
  | .dailiesRecordWrite => Sys2Proof.Machine.execDailiesRecordWrite s
  | .cntDailiesHeadWrite value => Sys2Proof.Machine.execCntDailiesHeadWrite value s
  | .cntDailiesStatusRead half => Sys2Proof.Machine.execCntDailiesStatusRead half s
  | .cntTraceStatusRead half => Sys2Proof.Machine.execCntTraceStatusRead half s
  | .cntDeniedRead half => Sys2Proof.Machine.execCntDeniedRead half s
  | .tstSidebandCntRead input half => Sys2Proof.Machine.execTstSidebandCntRead input half s
  | .setEndpointId operation eid => Sys2Proof.Machine.execSetEndpointId operation eid s
  | .getEndpointId => Sys2Proof.Machine.execGetEndpointId s
  | .getMctpVersionSupport => Sys2Proof.Machine.execGetMctpVersionSupport s
  | .getMessageTypeSupport => Sys2Proof.Machine.execGetMessageTypeSupport s
  | .gettid => Sys2Proof.Machine.execGettid s
  | .settid tid => Sys2Proof.Machine.execSettid tid s
  | .getpldmversion type => Sys2Proof.Machine.execGetpldmversion type s
  | .getpldmtypes => Sys2Proof.Machine.execGetpldmtypes s
  | .getpldmcommands type => Sys2Proof.Machine.execGetpldmcommands type s
  | .getpdr record => Sys2Proof.Machine.execGetpdr record s
  | .getpdrrepositoryinfo => Sys2Proof.Machine.execGetpdrrepositoryinfo s
  | .getsensorreading id => Sys2Proof.Machine.execGetsensorreading id s
  | .setnumericeffectervalue id value => Sys2Proof.Machine.execSetnumericeffectervalue id value s
  | .getnumericeffectervalue id => Sys2Proof.Machine.execGetnumericeffectervalue id s
  | .idcode => Sys2Proof.Machine.execIdcode s
  | .samplePreload => Sys2Proof.Machine.execSamplePreload s
  | .extest => Sys2Proof.Machine.execExtest s
  | .extestPulse => Sys2Proof.Machine.execExtestPulse s
  | .extestTrain => Sys2Proof.Machine.execExtestTrain s
  | .clamp => Sys2Proof.Machine.execClamp s
  | .highz => Sys2Proof.Machine.execHighz s
  | .dbgRead addr => Sys2Proof.Machine.execDbgRead addr s
  | .scanEnter => Sys2Proof.Machine.execScanEnter s
  | .bypass => Sys2Proof.Machine.execBypass s
  | .testLogicReset => Sys2Proof.Machine.execTestLogicReset s
  | .referenceLost => Sys2Proof.Machine.execReferenceLost s
  | .referencePresent => Sys2Proof.Machine.execReferencePresent s
  | .malformedFrame port why => Sys2Proof.Machine.execMalformedFrame port why s
  | .nakRetryUsExpiry conn msgId => Sys2Proof.Machine.execNakRetryUsExpiry conn msgId s
  | .warpRetrainTimeout cid => Sys2Proof.Machine.execWarpRetrainTimeout cid s
  | .pwrOkRelease => Sys2Proof.Machine.execPwrOkRelease s
  | .vaultStepDone cid => Sys2Proof.Machine.execVaultStepDone cid s

end Sys2Proof.Machine
end

