-- ==== Sys2Proof/Safety.lean ====
section
/-! DEFINITION. The terms that claims use: a started command, open BARs, and the invariant that every step keeps. -/

namespace Sys2Proof.Machine

open Sys2Proof

/-- The outstanding command `cid` of an opcode has started and has not reached its commit point (R86). -/
def Started (s : State) (cid : Nat) (op : Opcode) (c : Cmd) : Prop :=
  s.cmd? cid = some c ∧ c.op = op ∧ (c.phase = .started ∨ c.phase = .working)

/-- A command just fetched from ring `n` that awaits nothing (R77). -/
def freshCmd (n : Nat) (slate : Bytes) (op : Opcode) : Cmd :=
  { ring := n, slate := slate, op := op, phase := .fetched, awaits := [], depBad := false, block := [], inputLen := 0, input := [],
    silent := false, work := .none }

/-- Registers can be read and written, and Vilmin has not halted after its ROM self-test (R368, R373, R426). -/
def RegistersOpen (s : State) : Prop := s.barOpen = true ∧ s.romDead = false

/-- A register with read-to-clear fields (R8, R370): a read returns what the register holds and clears the fields of the halves that it
covers. -/
def ReadToClear (i : Half → Instr) (value : State → Word64) (low high : State → State) : Prop :=
  ∀ s : State, RegistersOpen s →
    exec (i .both) s = .next (high (low (emit (.readData (value s)) s)))
    ∧ exec (i .low) s = .next (low (emit (.readData (value s &&& 0xFFFFFFFF)) s))
    ∧ exec (i .high) s = .next (high (emit (.readData (value s >>> 32)) s))

/-- What power, test and firmware can never take back: below FW_SVN every copy of the fuses keeps every field, and the security version
never falls (R277, R284). -/
def FusesKept (f : Fuses) (s : State) : Prop :=
  let g := s.trust.fuses
  g.one.take 0x200 = f.one.take 0x200 ∧ g.two.take 0x200 = f.two.take 0x200 ∧ g.three.take 0x200 = f.three.take 0x200 ∧ f.svn ≤ g.svn

/-- The invariant: unprotected memory is in its canonical form, there are 64 rings (R62), the event queue holds no more than its 1024
records (R109), and the fuses are those of `f` but for a risen security version. -/
def Good (f : Fuses) (s : State) : Prop :=
  s.mem.wf = true ∧ s.rings.length = 64 ∧ s.reel.queue.length ≤ 1024 ∧ FusesKept f s

end Sys2Proof.Machine
end

