-- ==== Sys2Proof/Certificates/Slice0/Obligations.lean ====
section
/-! DEFINITION. The statements for the provers, family by family. -/

open Sys2Proof Sys2Proof.Machine

/-! ## The queue of commands -/

/-- A step takes the command at the front of the queue and runs it on the state with the queue's rest; with no command waiting the
block stays as it is (log entry 1). -/
def Obligations.StepRunsTheFrontCommand : Prop :=
  (∀ (c : Instr) (rest : List Instr) (s : State), step { s with pending := c :: rest } = exec c { s with pending := rest })
  ∧ (∀ s : State, s.pending = [] → step s = .next s)

/-! ## Rings and the reel (chapters 03 and 04) -/

/-- A doorbell or head write in range moves its index and nothing else (R65 note 1, R67, R100).

A doorbell value at or beyond the queue size moves no index: from ENABLED it sets DOORBELL_RANGE and stops the ring in ERROR, and
on a DISABLED ring a doorbell sets DOORBELL_DISABLED; no other ring changes (R65, R67).
Completes here, with a next state as the conclusion: sqDoorbell, cqDoorbell, reelHeadWrite.
What the model chooses or infers here stands in log entry 107. -/
def Obligations.DoorbellsMoveOrStopTheirRing : Prop :=
  ((∀ (s : State) (n : Nat) (v : Word32), s.barOpen = true → (s.ring n).mode = .enabled →
     (v.setWidth 16 : BitVec 16).toNat < (s.ring n).sqSize →
     exec (.sqDoorbell n v) s = .next (s.updRing n (fun r => { r with tail := v.setWidth 16 })))
   ∧ (∀ (s : State) (n : Nat) (v : Word32), s.barOpen = true → (s.ring n).mode ≠ .disabled →
     (v.setWidth 16 : BitVec 16).toNat < (s.ring n).cqSize →
     ringDiff (v.setWidth 16) (s.ring n).head (s.ring n).cqSize ≤ ringDiff (s.ring n).cqTail (s.ring n).head (s.ring n).cqSize →
     exec (.cqDoorbell n v) s = .next (s.updRing n (fun r => { r with head := v.setWidth 16 })))
   ∧ (∀ (s : State) (v : Word32), s.barOpen = true → (v.setWidth 16 : BitVec 16).toNat < 2 ^ s.reel.log2.toNat →
     ringDiff (v.setWidth 16) s.reel.head (2 ^ s.reel.log2.toNat) ≤ ringDiff s.reel.tail s.reel.head (2 ^ s.reel.log2.toNat) →
     exec (.reelHeadWrite v) s = .next { s with reel := { s.reel with head := v.setWidth 16 } }))
  ∧ (∀ (s : State) (n : Nat) (v : Word32), s.barOpen = true → n < s.rings.length →
       ((s.ring n).mode = .enabled → (s.ring n).sqSize ≤ (v.setWidth 16 : BitVec 16).toNat →
         ∃ t, exec (.sqDoorbell n v) s = .next t ∧ (t.ring n).errors = (s.ring n).errors ||| 2 ∧ (t.ring n).mode = .error
           ∧ (t.ring n).tail = (s.ring n).tail ∧ (t.ring n).head = (s.ring n).head ∧ t.cmds = s.cmds ∧ t.mem = s.mem ∧ t.out = s.out
           ∧ ∀ m, m ≠ n → t.ring m = s.ring m)
       ∧ ((s.ring n).mode = .enabled → (s.ring n).cqSize ≤ (v.setWidth 16 : BitVec 16).toNat →
         ∃ t, exec (.cqDoorbell n v) s = .next t ∧ (t.ring n).errors = (s.ring n).errors ||| 2 ∧ (t.ring n).mode = .error
           ∧ (t.ring n).tail = (s.ring n).tail ∧ (t.ring n).head = (s.ring n).head ∧ t.cmds = s.cmds ∧ t.mem = s.mem ∧ t.out = s.out
           ∧ ∀ m, m ≠ n → t.ring m = s.ring m)
       ∧ ((s.ring n).mode = .disabled → (s.ring n).stretch = false →
         exec (.sqDoorbell n v) s = .next (s.updRing n (fun r => { r with errors := r.errors ||| 32 }))
         ∧ exec (.cqDoorbell n v) s = .next (s.updRing n (fun r => { r with errors := r.errors ||| 32 }))))

/-- Enabling and disabling a ring and the reel (R64, R65, R99): a valid configuration enables with the indices at 0 and the phases at
1; ENABLE 0 stops a ring, which is DISABLED at once when nothing is outstanding.
Completes here, with a next state as the conclusion: ringEnable, ringDisable, reelEnable, reelDisable.
What the model chooses or infers here stands in log entry 51. -/
def Obligations.EnablesAndDisables : Prop :=
  (∀ (s : State) (n : Nat) (v : Word32), s.barOpen = true → n < s.rings.length → (s.ring n).mode = .disabled →
    4 ≤ (v.extractLsb' 2 4).toNat → (v.extractLsb' 2 4).toNat ≤ 12 → 4 ≤ (v.extractLsb' 6 5).toNat → (v.extractLsb' 6 5).toNat ≤ 14 →
    (v.extractLsb' 2 4).toNat ≤ (v.extractLsb' 6 5).toNat → (s.ring n).sqBase ≠ 0 → (s.ring n).cqBase ≠ 0 →
    (v.getLsbD 1 = true → otherControlRings n s < 8) →
    exec (.ringEnable n v) s = .next (s.updRing n (fun r => { r with
      enable := true, control := v.getLsbD 1, sqLog2 := v.extractLsb' 2 4, cqLog2 := v.extractLsb' 6 5, weight := v.extractLsb' 11 4,
      vector := v.extractLsb' 16 8, irqEn := v.getLsbD 24, sqHead := 0, cqTail := 0, sqPhase := true, cqPhase := true,
      mode := .enabled, tail := 0, head := 0, reread := false, records := [], stretch := false, posted := false,
      discarding := false, discarded := 0 })))
  ∧ (∀ (s : State) (n : Nat) (v : Word32), s.barOpen = true → n < s.rings.length → (s.ring n).mode = .enabled →
    s.outstanding n ≠ 0 →
    exec (.ringDisable n v) s = .next (s.updRing n (fun r => { r with
      vector := v.extractLsb' 16 8, irqEn := v.getLsbD 24, mode := .stopping, enable := false })))
  ∧ (∀ (s : State) (n : Nat) (v : Word32), s.barOpen = true → n < s.rings.length → (s.ring n).mode = .enabled →
    s.outstanding n = 0 → (s.ring n).stretch = false →
    ∃ t, exec (.ringDisable n v) s = .next t ∧ (t.ring n).mode = .disabled ∧ (t.ring n).enable = false
      ∧ ∀ m, m ≠ n → t.ring m = s.ring m)
  ∧ (∀ (s : State) (v : Word32), s.barOpen = true → s.reel.enabled = false → 6 ≤ (v.extractLsb' 1 5).toNat →
    (v.extractLsb' 1 5).toNat ≤ 16 → s.reel.base ≠ 0 →
    exec (.reelEnable v) s = .next { s with reel := { s.reel with
      enable := true, enabled := true, log2 := v.extractLsb' 1 5, vector := v.extractLsb' 8 8, irqEn := v.getLsbD 16,
      critEn := v.getLsbD 17, critVector := v.extractLsb' 24 8, tail := 0, head := 0, phase := true, overflowing := false } })
  ∧ (∀ (s : State) (v : Word32), s.barOpen = true → s.reel.enabled = true →
    exec (.reelDisable v) s = .next { s with reel := { s.reel with
      enable := false, enabled := false, overflowing := false, vector := v.extractLsb' 8 8, irqEn := v.getLsbD 16,
      critEn := v.getLsbD 17, critVector := v.extractLsb' 24 8 } })

/-- A slate whose phase is right and which passes checks 2 to 4 becomes an outstanding command, and SQ_HEAD advances; the second read
of a slot does the same (R66, R77).
Completes here, with a next state as the conclusion: slateFetch, slatePhaseReread.
What the model chooses or infers here stands in log entry 10. -/
def Obligations.FetchedSlatesBecomeCommands : Prop :=
  (∀ (s : State) (n : Nat) (f : Front) (b : Bytes) (op : Opcode), s.serving = true → s.shuttleOpen = true →
    s.nextRing = some (n, f) → n < s.rings.length → b.length = 64 →
    s.inReach ((s.ring n).sqBase.toNat * 4096 + 64 * (s.ring n).sqHead.toNat) 64 = true →
    slatePhase b = (s.ring n).sqPhase → opcodeOf? (leAt b 0 2) = some op → ((s.ring n).control = true → op.row.control = true) →
    slateFault op b = none → slateDep b = false →
    ∃ t, exec (.slateFetch (.data b)) s = .next t
      ∧ t.cmd? s.front.nextCid = some (freshCmd n b op)
      ∧ (t.ring n).sqHead.toNat = ((s.ring n).sqHead.toNat + 1) % (s.ring n).sqSize % 65536
      ∧ t.front.nextCid = s.front.nextCid + 1 ∧ t.mem = s.mem ∧ t.out = s.out
      ∧ ∀ m, m ≠ n → t.ring m = s.ring m)
  ∧ (∀ (s : State) (n : Nat) (b : Bytes) (op : Opcode), s.serving = true → s.shuttleOpen = true → n < s.rings.length →
    (s.ring n).reread = true → (s.ring n).mode = .enabled → b.length = 64 →
    s.inReach ((s.ring n).sqBase.toNat * 4096 + 64 * (s.ring n).sqHead.toNat) 64 = true →
    slatePhase b = (s.ring n).sqPhase → opcodeOf? (leAt b 0 2) = some op → ((s.ring n).control = true → op.row.control = true) →
    slateFault op b = none → slateDep b = false →
    ∃ t, exec (.slatePhaseReread n (.data b)) s = .next t
      ∧ t.cmd? s.front.nextCid = some (freshCmd n b op)
      ∧ (t.ring n).reread = false ∧ (t.ring n).sqHead.toNat = ((s.ring n).sqHead.toNat + 1) % (s.ring n).sqSize % 65536
      ∧ t.mem = s.mem ∧ t.out = s.out ∧ ∀ m, m ≠ n → t.ring m = s.ring m)

/-- A slate is fetched from a ring only when its CQ has more free slots than the ring has outstanding commands; free slots are
(HEAD − CQ_TAIL − 1) mod CQ size; and a CQ that is not drained holds back its own ring only (R68).
What the model chooses or infers here stands in log entry 10. -/
def Obligations.FetchNeedsRoomInTheCompletionQueue : Prop :=
  (∀ (s t : State) (r : HostRead), exec (.slateFetch r) s = .next t →
    t = s ∨ ∃ n, (s.ring n).cqFree > s.outstanding n ∧ ∀ m, m ≠ n → t.ring m = s.ring m)
  ∧ (∀ r : Ring, r.head.toNat < r.cqSize → r.cqTail.toNat < r.cqSize →
    (r.cqFree : Int) = ((r.head.toNat : Int) - r.cqTail.toNat - 1) % r.cqSize)
  ∧ (∀ (s : State) (n m : Nat) (h : BitVec 16), m ≠ n →
    (s.updRing n (fun r => { r with head := h })).fetchable m = s.fetchable m)

/-- A control ring accepts only control-class opcodes, and a bulk ring every opcode (R71). -/
def Obligations.ControlRingsTakeControlOpcodes : Prop :=
  (∀ (s : State) (n : Nat) (b : Bytes) (op : Opcode), n < s.rings.length → opcodeOf? (leAt b 0 2) = some op → (s.ring n).control = true →
    op.row.control = false →
    (consumeSlate n b s).cmds = s.cmds
    ∧ ∃ d, ((consumeSlate n b s).ring n).records = (s.ring n).records ++
      [{ cid := s.front.nextCid, tag := slateTag b, status := 0x0006, opcode := leAt b 0 2, detail := d, result := 0,
         notify := slateNotify b }])
  ∧ (∀ (s : State) (n : Nat) (b : Bytes) (op : Opcode), opcodeOf? (leAt b 0 2) = some op → (s.ring n).control = false →
    n < s.rings.length → slateFault op b = none → ∃ c, (consumeSlate n b s).cmd? s.front.nextCid = some c ∧ c.op = op)
  ∧ ∀ op : Opcode, op.row.control = true ↔ op ∈ [.nop, .identify, .setHostTime, .cmdAbort, .setBudget, .challenge, .cntRead]

/-- A completion record goes out as one write of 32 bytes at slot CQ_TAIL, which then advances; the phase toggles at a wrap. An event
record goes out as one write of 64 bytes at slot TAIL. Only MSI-X messages may follow. The end of a rate window with a count posts a
summary, and a delay that expires signals its vector (R69, R70, R101, R112, R113).
Completes here, with a next state as the conclusion: vectorDelayExpiry, cqRecordWrite, reelRecordWrite, rateLimitWindowEnd.
What the model chooses or infers here stands in log entries 49 and 55. -/
def Obligations.RecordsAreWritten : Prop :=
  (∀ (s : State) (n : Nat) (w : WaitingRecord) (l : List WaitingRecord), n < s.rings.length → (s.ring n).records = w :: l →
    (s.ring n).cqFree ≠ 0 → s.shuttleOpen = true → s.eventsIssued w.cid = true →
    s.inReach ((s.ring n).cqBase.toNat * 4096 + 32 * (s.ring n).cqTail.toNat) 32 = true →
    ∃ t o, exec (.cqRecordWrite n) s = .next t
      ∧ t.out = s.out ++ .hostWrite ((s.ring n).cqBase.toNat * 4096 + 32 * (s.ring n).cqTail.toNat) (recordBytes n w s) false :: o
      ∧ (∀ x ∈ o, ∃ v a d, x = .msix v a d)
      ∧ (t.ring n).records = l ∧ (t.ring n).cqTail.toNat = ((s.ring n).cqTail.toNat + 1) % (s.ring n).cqSize % 65536
      ∧ ((t.ring n).cqPhase = (s.ring n).cqPhase ↔ ((s.ring n).cqTail.toNat + 1) % (s.ring n).cqSize ≠ 0)
      ∧ t.cmds = s.cmds ∧ t.mem = s.mem ∧ ∀ m, m ≠ n → t.ring m = s.ring m)
  ∧ (∀ (s : State) (e : Event) (l : List Event), s.reel.enabled = true → s.shuttleOpen = true → s.reel.overflowing = false →
    s.reel.owed = 0 → s.reel.queue = e :: l → 2 ≤ s.reel.free →
    s.inReach (s.reel.base.toNat * 4096 + 64 * s.reel.tail.toNat) 64 = true →
    ∃ t o, exec .reelRecordWrite s = .next t
      ∧ t.out = s.out ++ .hostWrite (s.reel.base.toNat * 4096 + 64 * s.reel.tail.toNat) (eventBytes e s.reel.phase) false :: o
      ∧ (∀ x ∈ o, ∃ v a d, x = .msix v a d)
      ∧ t.reel.queue = l ∧ t.reel.tail.toNat = (s.reel.tail.toNat + 1) % 2 ^ s.reel.log2.toNat % 65536
      ∧ t.rings = s.rings ∧ t.cmds = s.cmds ∧ t.mem = s.mem)
  ∧ (∀ (s : State) (w : RateWindow) (type cls inst : Nat),
    s.reel.windows.find? (fun w => w.type.code = type ∧ w.srcClass = cls ∧ w.srcInst = inst) = some w → w.count ≠ 0 →
    s.reel.queue.length < 1024 →
    ∃ t, exec (.rateLimitWindowEnd type cls inst) s = .next t
      ∧ { w with count := 0 } ∈ t.reel.windows
      ∧ t.reel.queue = s.reel.queue ++ [{ w.last with summary := true, suppressed := w.count, seq := s.reel.nextSeq
                                                      cid := if s.reel.enabled then w.last.cid else none }]
      ∧ t.reel.nextSeq = s.reel.nextSeq + 1 ∧ t.rings = s.rings ∧ t.mem = s.mem ∧ t.out = s.out)
  ∧ (∀ (s : State) (v : Nat), (unit s.reel.vectors v).pending ≠ 0 → s.pcie.msixEnable = true → s.pcie.functionMask = false →
    (unit s.pcie.table v).mask = false → s.shuttleOpen = true →
    ∃ t, exec (.vectorDelayExpiry v) s = .next t
      ∧ t.out = s.out ++ [.msix v (unit s.pcie.table v).addr (unit s.pcie.table v).data]
      ∧ (unit t.reel.vectors v).pending = 0 ∧ t.rings = s.rings ∧ t.mem = s.mem)

/-! ## Registers that clear when they are read -/

/-- The read-to-clear registers of the HST_, DMA_, ING_, ACC_, MSK_, POL_ and GAT_ pages: each read completes with what the register
holds, clears the fields of the halves that it covers, and changes nothing else (R8, R370).

The read-to-clear registers of the SEC_, RNG_, PWR_, MEM_, WRP_, FLT_, SPL_, CNT_ and TST_ pages, and the two reads of SEC_PTIME: the
low half latches the high half, and the high half is returned once (R8, R22, R370).
Completes here, with a next state as the conclusion: secPtimeLowRead, secPtimeHighRead, hstReelLostRead, ingPortDropsRead,
ingHsStatusRead, ingRcptLateRead, gatRefusalsRead, accCombineDropsRead, mskRegenRead, polRefusalsRead, secCountsRead, rngCountsRead,
pwrThrottleCntRead, memEccCountRead, memSramEccRead, memStagingMissRead, dmaBarErrRead, dmaBytesReadRead, dmaBytesWrittenRead,
dmaPreemptRead, wrpRetryRead, wrpLaneErrRead, fltCountsRead, fltCpRead, splEngineFaultsRead, splReplaysRead, cntDailiesStatusRead,
cntTraceStatusRead, cntDeniedRead, tstSidebandCntRead. -/
def Obligations.ReadsClearWhatTheyReturn : Prop :=
  (ReadToClear .hstReelLostRead (fun s => place 0 s.reel.lost ||| place 32 s.reel.suppressed)
     (fun s => { s with reel := { s.reel with lost := 0 } }) (fun s => { s with reel := { s.reel with suppressed := 0 } })
   ∧ ReadToClear .dmaBarErrRead (fun s => s.pcie.dmaBarErr)
     (fun s => { s with pcie := { s.pcie with barErrCount := 0 } }) id
   ∧ ReadToClear .dmaBytesReadRead (fun s => s.coarse s.pcie.bytesRead)
     (fun s => { s with pcie := { s.pcie with bytesRead := s.pcie.bytesRead &&& 0xFFFFFFFF00000000 } })
     (fun s => { s with pcie := { s.pcie with bytesRead := s.pcie.bytesRead &&& 0xFFFFFFFF } })
   ∧ ReadToClear .dmaBytesWrittenRead (fun s => s.coarse s.pcie.bytesWritten)
     (fun s => { s with pcie := { s.pcie with bytesWritten := s.pcie.bytesWritten &&& 0xFFFFFFFF00000000 } })
     (fun s => { s with pcie := { s.pcie with bytesWritten := s.pcie.bytesWritten &&& 0xFFFFFFFF } })
   ∧ ReadToClear .dmaPreemptRead State.dmaPreempt (fun s => { s with pcie := { s.pcie with preempts := 0 } })
     (fun s => { s with pcie := { s.pcie with maxWaitNs := 0 } })
   ∧ (∀ port, ReadToClear (.ingPortDropsRead port) (fun s => s.portDrops port)
     (fun s => s.updPort port (fun p => { p with icvFail := 0, noConn := 0 }))
     (fun s => s.updPort port (fun p => { p with malformed := 0, creditViolation := 0 })))
   ∧ ReadToClear .ingHsStatusRead State.hsStatus (fun s => { s with ingest := { s.ingest with hsRetry := 0 } }) id
   ∧ ReadToClear .ingRcptLateRead (fun s => place 0 (s.coarse s.ingest.late) ||| place 32 (s.coarse s.ingest.maxUs))
     (fun s => { s with ingest := { s.ingest with late := 0 } }) (fun s => { s with ingest := { s.ingest with maxUs := 0 } })
   ∧ ReadToClear .accCombineDropsRead State.combineDrops (fun s => { s with accum := { s.accum with dropCheck := 0 } })
     (fun s => { s with accum := { s.accum with dropLate := 0 } })
   ∧ ReadToClear .mskRegenRead State.mskRegen id (fun s => { s with masks := { s.masks with done := 0 } })
   ∧ ReadToClear .polRefusalsRead State.polRefusals (fun s => { s with poly := { s.poly with keyMismatch := 0, noiseExhausted := 0 } })
     (fun s => { s with poly := { s.poly with tableWaits := 0 } })
   ∧ ReadToClear .gatRefusalsRead State.gatRefusals
     (fun s => { s with gate := { s.gate with cohortRefused := 0, entropyRefused := 0 } })
     (fun s => { s with gate := { s.gate with saturated := 0 } }))
  ∧ (ReadToClear .secCountsRead State.secCounts id (fun s => { s with trust := { s.trust with keyRefused := 0 } })
     ∧ ReadToClear .rngCountsRead State.rngCounts (fun s => { s with rng := { s.rng with reseeds := 0 } })
       (fun s => { s with rng := { s.rng with generates := 0 } })
     ∧ ReadToClear .pwrThrottleCntRead State.throttleCnt
       (fun s => { s with power := { s.power with c1Windows := 0, c2Windows := 0 } })
       (fun s => { s with power := { s.power with thermalWindows := 0 } })
     ∧ (∀ b, ReadToClear (.memEccCountRead b) (fun s => s.eccCount b) (fun s => s.updStack b (fun k => { k with corrected := 0 }))
       (fun s => s.updStack b (fun k => { k with uncorrectable := 0, latePasses := 0 })))
     ∧ ReadToClear .memSramEccRead State.sramEcc (fun s => { s with mem := { s.mem with sramCorrected := 0 } })
       (fun s => { s with mem := { s.mem with sramUncorrectable := 0 } })
     ∧ ReadToClear .memStagingMissRead (fun s => place 0 (s.coarse s.mem.stagingMiss))
       (fun s => { s with mem := { s.mem with stagingMiss := 0 } }) id
     ∧ (∀ k, ReadToClear (.wrpRetryRead k) (fun s => (s.link k).retry) (fun s => s.updLink k (fun l => { l with replays := 0 }))
       (fun s => s.updLink k (fun l => { l with retrains := 0, starved := 0 })))
     ∧ (∀ k lane, ReadToClear (.wrpLaneErrRead k lane) (fun s => (s.link k).laneErrors lane)
       (fun s => s.updLink k (fun l => { l with laneErr := l.laneErr.modify lane (fun e => (0, e.2)) }))
       (fun s => s.updLink k (fun l => { l with laneErr := l.laneErr.modify lane (fun e => (e.1, 0)) })))
     ∧ ReadToClear .fltCountsRead State.fltCounts (fun s => { s with faults := { s.faults with engines := 0, coreRecoveries := 0 } })
       (fun s => { s with faults := { s.faults with fieldRecoveries := 0, migrations := 0 } })
     ∧ ReadToClear .fltCpRead State.fltCp (fun s => { s with faults := { s.faults with cpRestarts := 0, cpTakeovers := 0 } }) id
     ∧ (∀ c, ReadToClear (.splEngineFaultsRead c) (fun s => s.splEngineFaults c) (clearEngines c (fun i => decide (i < 4)))
       (clearEngines c (fun i => decide (4 ≤ i))))
     ∧ (∀ c, ReadToClear (.splReplaysRead c) (fun s => s.splReplays c) (fun s => s.updCore c (fun k => { k with tiles := 0 }))
       (fun s => s.updCore c (fun k => { k with rewinds := 0 })))
     ∧ ReadToClear .cntDailiesStatusRead (fun s => s.counters.dailiesStatus) id
       (fun s => { s with counters := { s.counters with missed := 0 } })
     ∧ ReadToClear .cntTraceStatusRead (fun s => s.counters.traceStatus) id
       (fun s => { s with counters := { s.counters with dropped := 0 } })
     ∧ ReadToClear .cntDeniedRead (fun s => place 0 s.counters.denied)
       (fun s => { s with counters := { s.counters with denied := 0 } }) id
     ∧ (∀ i, ReadToClear (.tstSidebandCntRead i) (fun s => s.side.countReg i)
       (fun s => { s with side := { s.side with counts := s.side.counts.modify i (fun _ => (0, 0)) } }) id)
     ∧ (∀ s : State, RegistersOpen s →
       exec .secPtimeLowRead s = .next
         { s with out := s.out ++ [.readData (s.time.ptime &&& 0xFFFFFFFF)]
                  time := { s.time with shadow := some (s.time.ptime.extractLsb' 32 32) } }
       ∧ exec .secPtimeHighRead s = .next
         { s with out := s.out ++ [.readData ((s.time.shadow.getD (s.time.ptime.extractLsb' 32 32)).setWidth 64)]
                  time := { s.time with shadow := none } }))

/-! ## The life of a command (chapters 03 and 15) -/

/-- NOP, IDENTIFY and SET_HOST_TIME complete with OK: NOP does nothing, IDENTIFY writes its 512 bytes, SET_HOST_TIME stores its claim
with PTIME (R77, R93, R95, R96).
Completes here, with a next state as the conclusion: nop, identify, setHostTime.
What the model chooses or infers here stands in log entry 49. -/
def Obligations.DeviceCommandsComplete : Prop :=
  (∀ (s : State) (cid : Nat) (c : Cmd), Started s cid .nop c → nonZero? c.slate 32 32 = none →
    exec (.nop cid) s = .next (complete cid .ok 0 0 s))
  ∧ (∀ (s : State) (cid : Nat) (c : Cmd), Started s cid .identify c → c.inl 0 8 % 64 = 0 → nonZero? c.slate 44 4 = none →
    nonZero? c.slate 48 16 = none → 512 ≤ c.inl 8 4 → s.inReach (c.inl 0 8) (c.inl 8 4) = true → s.shuttleOpen = true →
    (identityRecord s).length = 512
    ∧ exec (.identify cid) s = .next (complete cid .ok 0 512 (hostWrite (c.inl 0 8) (identityRecord s) false s)))
  ∧ (∀ (s : State) (cid : Nat) (c : Cmd), Started s cid .setHostTime c → nonZero? c.slate 40 24 = none →
    exec (.setHostTime cid) s = .next (complete cid .ok 0 (s.mirror 0).toNat
      { s with front := { s.front with hostTime := BitVec.ofNat 64 (c.inl 0 8), hostTimePtime := s.mirror 0 } }))

/-- A command completes once: it is outstanding no longer, its record stands last among its ring's, and time, groups, masks, the gate,
keys, power, memory but for the scratch it held, links, units and everything that left the device are as before (R80, R82, R83).

A command whose opcode's own checks fail completes with the status of the failure and no other effect on device state (R82).
What the model chooses or infers here stands in log entry 10. -/
def Obligations.CommandsEndInOneRecord : Prop :=
  (∀ (s : State) (cid : Nat) (c : Cmd) (st : Status) (detail result : Nat), s.cmd? cid = some c → c.silent = false →
     (s.ring c.ring).discarding = false → c.ring < s.rings.length →
     let t := complete cid st detail result s
     t.cmd? cid = none
     ∧ (t.ring c.ring).records = (s.ring c.ring).records ++
       [{ cid := cid, tag := slateTag c.slate, status := st.code, opcode := leAt c.slate 0 2, detail := BitVec.ofNat 32 detail,
          result := BitVec.ofNat 64 result, notify := slateNotify c.slate }]
     ∧ (∀ m, m ≠ c.ring → t.ring m = s.ring m)
     ∧ (∀ k d, k ≠ cid → s.cmd? k = some d → ∃ e, t.cmd? k = some e ∧ e.phase = d.phase ∧ e.slate = d.slate ∧ e.work = d.work
         ∧ cid ∉ e.awaits)
     ∧ t.time = s.time ∧ t.accum = s.accum ∧ t.masks = s.masks ∧ t.gate = s.gate ∧ t.trust = s.trust ∧ t.power = s.power
     ∧ t.mem = { s.mem with allocs := s.mem.allocs.filter (fun a => a.owner ≠ .scratch cid false ∧ a.owner ≠ .scratch cid true) }
     ∧ t.warp = s.warp ∧ t.faults = s.faults ∧ t.ingest = s.ingest ∧ t.out = s.out ∧ t.pending = s.pending)
  ∧ (∀ (s : State) (cid : Nat) (c : Cmd) (op : Opcode) (f : Nat → Cmd → State → Verdict) (st : Status) (d r : Nat),
       Started s cid op c → f cid c s = .refuse st d r →
       let t := runRow op f cid s
       t.cmd? cid = none ∧ t.accum = s.accum ∧ t.masks = s.masks ∧ t.gate = s.gate ∧ t.mem.cells = s.mem.cells ∧ t.power = s.power ∧ t.time = s.time
       ∧ t.ingest = s.ingest ∧ t.warp = s.warp ∧ t.out = s.out ∧ t.trust.tenant = s.trust.tenant ∧ t.trust.owner = s.trust.owner)

/-- COMMAND_START: a fetched command that no other command holds back starts, with or without a parameter block; COMMAND_TIMEOUT: a
command before its commit point completes with TIMEOUT, or with NO_ENTROPY while it waits for entropy; CMD_ABORT aborts the
outstanding commands of a ring and tag that are not past their commit point (R77, R83, R86, R88, R89).
Completes here, with a next state as the conclusion: commandStart, commandTimeout, cmdAbort.
What the model chooses or infers here stands in log entries 10, 48, 54 and 107. -/
def Obligations.CommandsStartAndEnd : Prop :=
  (∀ (s : State) (cid : Nat) (c k : Cmd) (r : HostRead) (role : Option Nat), s.cmd? cid = some c → c.phase = .fetched →
    s.serving = true → (c.depBad && slateNeedOk c.slate) = false → s.stateRefuses c = none →
    ((slateParamLen c.slate = 0 ∧ k = c ∧ s.startWaits cid c [] = false)
      ∨ (∃ b, r = .data b ∧ b ≠ [] ∧ b.length = slateParamLen c.slate ∧ k = { c with block := b } ∧ s.startWaits cid c b = false
          ∧ s.shuttleOpen = true ∧ s.inReach (slateParamPtr c.slate) b.length = true)) →
    s.trailerRefuses k = .inr role →
    let trust := match role with
      | none => s.trust
      | some i => (acceptCounter i k.counter (deliverMac (roleName i) s)).trust
    (∀ t, t = { s with cmds := Table.put s.cmds cid { k with phase := .started }, trust := trust, counters := t.counters, pcie := t.pcie
                       draws := t.draws } →
      t.groupFails { k with phase := .started } = none ∧ ∀ st d q, ownVerdict cid { k with phase := .started } t ≠ .refuse st d q) →
    (∀ q ∈ readRequests (128 * 2 ^ s.pcie.maxReadRequest.toNat) k.pieces, s.inReach q.1 q.2.1 = true) →
    ∃ t o, exec (.commandStart cid r) s = .next t ∧ t.cmd? cid = some { k with phase := .started, inputLen := piecesLen k.pieces }
      ∧ t.out = s.out ++ o ∧ (∀ x ∈ o, ∃ off a n, x = .hostRead (.command cid) off a n) ∧ (k.pieces = [] → o = [])
      ∧ t.trust = trust ∧ t.rings = s.rings ∧ t.mem = s.mem ∧ t.accum = s.accum ∧ t.time = s.time)
  ∧ (∀ (s : State) (cid : Nat) (c : Cmd), s.cmd? cid = some c → c.phase ≠ .committed → c.op.row.timeoutMs ≠ 0 →
    (s.drawn cid = true → exec (.commandTimeout cid) s = .next (releaseIdle (complete cid .timeout 0 0 s)))
    ∧ (s.drawn cid = false → c.op ≠ .gateRelease →
      exec (.commandTimeout cid) s = .next (releaseIdle (complete cid .noEntropy 0 0 s))))
  ∧ (∀ (s : State) (cid : Nat) (c : Cmd), Started s cid .cmdAbort c → c.inl 0 1 < 64 → nonZero? c.slate 33 3 = none →
    nonZero? c.slate 40 24 = none →
    let hit := (s.cmds.filter (fun e => e.2.ring = c.inl 0 1 ∧ slateTag e.2.slate = BitVec.ofNat 32 (c.inl 4 4)
      ∧ e.2.phase ≠ .committed ∧ e.1 ≠ cid)).map (·.1)
    exec (.cmdAbort cid) s = .next (complete cid .ok 0 (if hit.isEmpty then 0 else 1)
      (forCommand cid (fun s => releaseIdle (hit.foldl (fun s i => complete i .aborted 0 0 s) s)) s)))

/-- A read completion that comes next in address order is delivered to the command that asked for it, and is counted; a completion
timeout sets CPL_TIMEOUT with the read's address, and the command that waits completes with HOST_FAULT, DETAIL 4 (R376, R379).
Completes here, with a next state as the conclusion: shuttleReadCompletion, shuttleCompletionTimeout.
What the model chooses or infers here stands in log entries 49 and 96. -/
def Obligations.ReadsOfHostMemoryEnd : Prop :=
  (∀ (s : State) (cid off addr : Nat) (c : Cmd) (b : Bytes), s.pcie.ready = true → b ≠ [] →
    s.pcie.reads = [(.command cid, off, addr, b.length)] → s.pcie.buffer = [] → s.cmd? cid = some c → c.input.length = off →
    off < c.inputLen →
    ∃ t, exec (.shuttleReadCompletion (.command cid) off (.data b)) s = .next t
      ∧ t.cmd? cid = some { c with input := c.input ++ b } ∧ t.pcie.reads = []
      ∧ t.pcie.bytesRead = satAdd s.pcie.bytesRead b.length ∧ t.mem = s.mem ∧ t.out = s.out ∧ t.rings = s.rings)
  ∧ (∀ (s : State) (cid off addr n : Nat) (c : Cmd), s.pcie.reads.find? (fun e => e.1 = .command cid) = some (.command cid, off, addr, n) →
    s.cmd? cid = some c → c.input.length < c.inputLen →
    ∃ t, exec (.shuttleCompletionTimeout (.command cid)) s = .next t ∧ t.cmd? cid = none
      ∧ t.pcie.reads = s.pcie.reads.erase (.command cid, off, addr, n))
  ∧ (∀ (s : State) (cid off addr n : Nat), s.pcie.reads.find? (fun e => e.1 = .command cid) = some (.command cid, off, addr, n) →
    s.cmd? cid = none →
    exec (.shuttleCompletionTimeout (.command cid)) s = .next { s with pcie := { s.pcie with
      reads := s.pcie.reads.erase (.command cid, off, addr, n), err := s.pcie.err ||| 1, errAddr := BitVec.ofNat 64 addr } })

/-! ## Groups and takes (chapter 02) -/

/-- GROUP_OPEN places a group with both banks zeroed and sequence numbers from 0; GRAPH_LOAD replaces the job's graph; GROUP_CLOSE
erases the group; a zeroed bank is in ZERO (R38, R44 to R47, R51, R55).
Completes here, with a next state as the conclusion: graphLoad, groupOpen, groupClose, bankZeroed.
What the model chooses or infers here stands in log entry 72. -/
def Obligations.GroupsOpenAndClose : Prop :=
  (∀ (s u : State) (cid : Nat) (c : Cmd) (k : Group), Started s cid .groupOpen c → firstBad (groupChecks c s) = none →
    s.group? (c.inl 0 1) = none → (s.job? (c.inl 1 1)).isSome = true → placeBanks (c.inl 0 1) (groupOf c s) s = some (k, u) →
    ∃ t, exec (.groupOpen cid) s = .next (complete cid .ok 0 0 t) ∧ t.group? (c.inl 0 1) = some k
      ∧ k.nextSeq = 0 ∧ k.job = c.inl 1 1 ∧ k.count = c.inl 4 4 ∧ (k.bank false).mode = .zero ∧ (k.bank true).mode = .zero
      ∧ t.accum.jobs = u.accum.jobs ∧ t.mem = u.mem ∧ t.out = u.out)
  ∧ (∀ (s : State) (cid : Nat) (c : Cmd) (jb : Job), Started s cid .graphLoad c →
    c.job = 0xFF ∨ c.job = leAt c.body 2 1 → nonZero? c.slate 32 32 = none → firstBad (graphFields c.body) = none →
    firstBad (graphShape c.body) = none → firstBad (graphGroups s (leAt c.body 2 1) c.body) = none →
    s.job? (leAt c.body 2 1) = some jb → jb.filling = none →
    exec (.graphLoad cid) s = .next (complete cid .ok 0 0 (s.updJob (leAt c.body 2 1) (fun jb => { jb with
      graph := some { mode := modeOf (leAt c.body 3 1), nodes := (nodesOf c.body).map (·.2), edges := (edgesOf c.body).map (·.2),
                      layout := (layoutOf c.body).map (fun x => (x.2.1, x.2.2)), segments := leAt c.body 12 4 },
      mode := some (modeOf (leAt c.body 3 1)) }))))
  ∧ (∀ (s : State) (cid : Nat) (c : Cmd) (k : Group), Started s cid .groupClose c → nonZero? c.slate 32 32 = none →
    s.groupOf c.job c.group = some k → s.mayClose c.group k = true →
    exec (.groupClose cid) s = .next (complete cid .ok 0 0 (forCommand cid (closeGroup c.group k) s))
    ∧ (closeGroup c.group k s).group? c.group = none)
  ∧ (∀ (s : State) (g : Nat) (isB : Bool) (k : Group), s.group? g = some k → (k.bank isB).mode = .zeroing →
    exec (.bankZeroed g isB) s = .next (s.updBank g isB (fun _ => Bank.zeroed k.startScale)))

/-- A take opens on each group's ZERO bank, which becomes FILLING from the group's next sequence number; a take that waited does the
same when its banks are there. Groups of other jobs keep their banks (R52).

TAKE_CLOSE places its barrier: every FILLING bank of the job becomes DRAINING at the group's next sequence number, and the command
waits for those banks; a mode M job's seed ledger is formed. GROUP_DRAIN does the same for one group and fills its other bank with the
same take. TAKE_ABORT ends the job's open takes with ABORTED (R52, R53, R200).
Completes here, with a next state as the conclusion: takeOpen, takeOpenResume, takeClose, takeCloseBarrier, takeAbort, groupDrain,
drainBarrierAccepted.
What the model chooses or infers here stands in log entries 71, 77, 110 and 117. -/
def Obligations.TakesOpenCloseAndDrain : Prop :=
  (∀ (s : State) (cid : Nat) (c : Cmd) (jb : Job), Started s cid .takeOpen c → s.job? c.job = some jb →
     (∀ x, jb.lastTake = some x → x < c.inl 0 4) → nonZero? c.slate 36 28 = none → jb.filling = none → jb.graph.isSome = true →
     (∀ e ∈ s.jobGroups c.job, e.2.failed = none ∧ e.2.nextBank.isSome = true) →
     ∃ t mask, exec (.takeOpen cid) s = .next (complete cid .ok 0 mask t) ∧ exec (.takeOpenResume cid) s = .next (complete cid .ok 0 mask t)
       ∧ mask = ((s.jobGroups c.job).map (fun e => if e.2.nextBank = some true then 2 ^ e.1 else 0)).sum
       ∧ (∃ j, t.job? c.job = some j ∧ j.filling = some (c.inl 0 4) ∧ j.lastTake = some (c.inl 0 4) ∧ j.tokens = [])
       ∧ (∀ g k, s.group? g = some k → t.group? g = some (k.takeOpened c.job (c.inl 0 4)))
       ∧ t.mem = s.mem ∧ t.out = s.out ∧ t.ingest = s.ingest)
  ∧ ((∀ (s : State) (cid : Nat) (c : Cmd) (jb : Job) (take : Nat), Started s cid .takeClose c → nonZero? c.slate 32 32 = none →
       s.job? c.job = some jb → jb.filling = some take → s.drainWaits cid c.job = false → s.fillingBanks c.job ≠ [] →
       (jb.mode ≠ some .masked →
         exec (.takeClose cid) s = .next (commit cid (.draining (s.fillingBanks c.job) false 0) (closeBarrier c.job s))
         ∧ exec (.takeCloseBarrier cid) s = .next (commit cid (.draining (s.fillingBanks c.job) false 0) (closeBarrier c.job s)))
       ∧ (∀ l u, jb.mode = some .masked → [2 * c.job, 2 * c.job + 1].find? (fun l => !Table.has s.masks.ledgers l) = some l →
         formLedger c.job l jb take (closeBarrier c.job s) = some u →
         exec (.takeClose cid) s = .next (commit cid (.draining (s.fillingBanks c.job) false 0) u)
         ∧ exec (.takeCloseBarrier cid) s = .next (commit cid (.draining (s.fillingBanks c.job) false 0) u))
       ∧ (∀ g k, s.group? g = some k → (closeBarrier c.job s).group? g = some (k.drainFilling c.job)))
     ∧ (∀ (s : State) (cid : Nat) (c : Cmd) (k : Group) (b : Bool), Started s cid .groupDrain c → nonZero? c.slate 32 32 = none →
       s.groupOf c.job c.group = some k → k.failed = none → k.filling = some b → (k.bank (!b)).mode = .zero →
       let t := commit cid (.draining [(c.group, b)] false k.nextSeq) (s.updGroup c.group (fun q =>
         ((q.updBank b (fun x => { x with mode := .draining, stop := some q.nextSeq, cut := true })).fill (!b) (k.bank b).take).updBank (!b)
           (fun x => { x with cut := true })))
       exec (.groupDrain cid) s = .next t ∧ exec (.drainBarrierAccepted cid) s = .next t)
     ∧ (∀ (s : State) (cid : Nat) (c : Cmd) (jb : Job), Started s cid .takeAbort c → nonZero? c.slate 32 32 = none →
       s.job? c.job = some jb → (jb.filling.isSome = true ∨ s.drainingBanks c.job ≠ []) →
       exec (.takeAbort cid) s = .next (complete cid .aborted 0 0 (forCommand cid (abortTakes c.job) s))))

/-- A slice migrates: a tile timeout moves it to another active core, which is free; the merge ends the move and changes no element; a
tile of an earlier epoch after the merge fails the group (R57 to R61).
Completes here, with a next state as the conclusion: stationTileTimeout, sliceMigrationMerge, lateEpochTile.
What the model chooses or infers here stands in log entry 76. -/
def Obligations.SlicesMigrate : Prop :=
  (∀ (s : State) (gn j : Nat) (g : Group), s.group? gn = some g → j < g.slices.length → g.failed = none →
    (unit g.slices j).moves = [] → (s.activeCores.filter (· ≠ (unit g.slices j).core)) ≠ [] →
    s.timed gn j g (unit g.slices j).core = true →
    ∃ core, core ∈ s.activeCores ∧ core ≠ (unit g.slices j).core
      ∧ exec (.stationTileTimeout gn j) s = .next (startMove gn j core 1 { s with draws := s.draws + 1 }))
  ∧ (∀ (s : State) (gn j : Nat) (g : Group) (m : MoveStep) (rest : List MoveStep), s.group? gn = some g →
    (unit g.slices j).moves = m :: rest → s.oldDone gn g j m.boundary = true →
    ∃ t, exec (.sliceMigrationMerge gn j) s = .next t
      ∧ t.group? gn = some { g with slices := g.slices.set j { unit g.slices j with moves := rest } }
      ∧ t.faults.migrations = satAdd s.faults.migrations 1
      ∧ (∀ x, x ≠ gn → t.group? x = s.group? x) ∧ t.mem = s.mem ∧ t.out = s.out ∧ t.ingest = s.ingest)
  ∧ (∀ (s : State) (gn j seq epoch : Nat) (g : Group), s.group? gn = some g → j < g.slices.length → g.failed = none →
    (unit g.slices j).moves = [] → epoch < 65536 → (unit g.slices j).epoch < 65536 →
    0 < ((unit g.slices j).epoch + 65536 - epoch) % 65536 → ((unit g.slices j).epoch + 65536 - epoch) % 65536 < 32768 →
    exec (.lateEpochTile gn j seq epoch) s =
      .next (failGroup gn .seqGap ((g.bankOfSeq seq).getD false) (unit g.slices j).core seq j epoch s))

/-! ## Sealed updates (chapter 05) -/

/-- DECAPSULATION_DONE gives the oldest waiting envelope its session and message keys; OPEN_ADMIT reserves the splice slots of the next
message, or waits for them; SEGMENT_VERIFIED keeps a segment's plaintext once its tag and padding are right, and a segment whose tag
fails ends its message with nothing accumulated (R147, R148, R151, R154).
Completes here, with a next state as the conclusion: decapsulationDone, openAdmit, segmentVerified.
What the model chooses or infers here stands in log entry 10. -/
def Obligations.EnvelopesOpen : Prop :=
  (∀ (s : State) (i : Nat) (rest : List Nat) (m : Message) (jb : Job) (r : Region), s.ingest.hsQueue = i :: rest → s.msg? i = some m →
    s.job? m.job = some jb → Table.get? s.trans.regions m.region = some r → poisoned s.mem (r.base + m.raddr + 80) 1088 = false →
    let ct := memReads s.mem (r.base + m.raddr + 80) 1088
    let ks := sessionKey (kemOpen ((s.key? (.jobDk m.job)).getD []) ct) ct m.token m.job
    ∃ t, exec .decapsulationDone s = .next t
      ∧ t.msg? i = some { m with stage := .keyed, kSess := ks, kMsg := messageKey ks m.nonceBase m.job m.take 0 }
      ∧ t.ingest.hsQueue = rest ∧ t.ingest.keyOrder = s.ingest.keyOrder ++ [i] ∧ (∀ k, k ≠ i → t.msg? k = s.msg? k)
      ∧ t.accum = s.accum ∧ t.mem = s.mem ∧ t.trans = s.trans ∧ t.out = s.out)
  ∧ (∀ (s : State) (i : Nat) (rest : List Nat) (m : Message) (jb : Job) (k : Graph), s.ingest.keyOrder = i :: rest →
    s.msg? i = some m → s.job? m.job = some jb → jb.graph = some k → k.segments = m.segCount → m.len = s.envelopeLen k m.kem →
    let on (c : Nat) : Nat := ((s.routed m k).filter (fun x => x.core = c)).length
    ((∀ c < 36, on c ≤ 48 ∧ on c ≤ s.slotsFree c) →
      ∃ t, exec .openAdmit s = .next t ∧ t.msg? i = some { m with stage := .opening, large := false, tiles := s.routed m k }
        ∧ t.ingest.keyOrder = rest ∧ t.accum = s.accum ∧ t.mem = s.mem ∧ t.out = s.out)
    ∧ ((∃ c, c < 36 ∧ 48 < on c) →
      ∃ t, exec .openAdmit s = .next t ∧ t.msg? i = some { m with stage := .opening, large := true, tiles := [] }
        ∧ t.ingest.keyOrder = rest ∧ t.accum = s.accum ∧ t.mem = s.mem ∧ t.out = s.out)
    ∧ ((∀ c < 36, on c ≤ 48) → (∃ c, c < 36 ∧ s.slotsFree c < on c) → exec .openAdmit s = .next s))
  ∧ (∀ (s : State) (msg segment gn tile : Nat) (m : Message) (jb : Job) (k : Graph) (g : Group), s.msg? msg = some m →
    s.job? m.job = some jb → jb.graph = some k → s.segTile k segment = some (gn, tile) → s.group? gn = some g → m.stage = .opening →
    m.verified.contains segment = false → segment < m.segCount →
    (∀ pt, s.openSegment m k segment = some pt → zeroAt pt (s.validBytes g tile) (pt.length - s.validBytes g tile) = true →
      ∃ t n, exec (.segmentVerified msg segment) s = .next t ∧ t.msg? msg = some n ∧ n.verified = m.verified ++ [segment]
        ∧ n.stage = (if m.verified.length + 1 = m.segCount then .verified else .opening)
        ∧ n.tiles = m.tiles.map (fun x => if x.segment = segment then
            { x with data := pt.take (s.validBytes g tile), slot := some .opened } else x)
        ∧ t.accum = s.accum ∧ t.mem = s.mem)
    ∧ (s.openSegment m k segment = none →
      ∃ t, exec (.segmentVerified msg segment) s = .next t ∧ t.msg? msg = none ∧ t.accum = s.accum ∧ t.mem = s.mem))

/-- MESSAGE_COMMIT: the arbiter gives a verified message the next number of every group of its graph and takes its token, or refuses it
with nothing changed in any group; SECOND_PASS_TILE brings a committed large message's segment back, in the order of the commits on its core; SESSION_EXPIRE
removes a session at the end of its life, once no admitted message uses it (R48, R149, R152, R153).
Completes here, with a next state as the conclusion: messageCommit, secondPassTile, sessionExpire.
What the model chooses or infers here stands in log entry 61. -/
def Obligations.EnvelopesCommit : Prop :=
  (∀ (s : State) (msg : Nat) (m : Message) (jb : Job) (k : Graph), s.msg? msg = some m → m.stage = .verified → s.job? m.job = some jb →
    jb.graph = some k → (k.layout.map (·.1)).Nodup →
    (s.arbiterFault m jb = none →
      ∃ t, exec (.messageCommit msg) s = .next t
        ∧ (∀ gn g, s.group? gn = some g → gn ∈ k.layout.map (·.1) → ∃ h, t.group? gn = some h ∧ h.nextSeq = g.nextSeq + 1
            ∧ h.bankA.elems = g.bankA.elems ∧ h.bankB.elems = g.bankB.elems)
        ∧ (∀ gn, gn ∉ k.layout.map (·.1) → t.group? gn = s.group? gn)
        ∧ t.job? m.job = some { jb with tokens := jb.tokens ++ [m.token] }
        ∧ t.ingest.commits = s.ingest.commits + 1 ∧ (∀ n, t.msg? msg = some n → n.stage = .committed) ∧ t.mem = s.mem)
    ∧ (∀ st, s.arbiterFault m jb = some st →
      ∃ t, exec (.messageCommit msg) s = .next t ∧ t.msg? msg = none ∧ t.accum = s.accum ∧ t.ingest.commits = s.ingest.commits
        ∧ t.mem = s.mem))
  ∧ (∀ (s : State) (msg segment gn tile core epoch : Nat) (m : Message) (jb : Job) (k : Graph) (g : Group) (pt : Bytes),
    s.msg? msg = some m → s.job? m.job = some jb → jb.graph = some k → s.segTile k segment = some (gn, tile) → s.group? gn = some g →
    m.stage = .committed → m.large = true → m.verified.contains segment = false → m.flying.contains gn = true →
    s.routeOf m gn tile = (core, epoch) →
    (∀ e ∈ s.ingest.msgs, e.2.job = m.job → e.2.order < m.order → s.owesTile e.2 k core = false) →
    s.slotsFree core ≠ 0 → s.openSegment m k segment = some pt →
    ∃ t n, exec (.secondPassTile msg segment) s = .next t ∧ t.msg? msg = some n ∧ n.verified = m.verified ++ [segment]
      ∧ (∃ x ∈ n.tiles, x.group = gn ∧ x.tile = tile ∧ x.segment = segment ∧ x.core = core ∧ x.epoch = epoch ∧ x.mark = s.freeMark core
          ∧ x.slot = some .committed ∧ x.data = pt.take (s.validBytes g tile) ∧ x.done = [])
      ∧ t.accum = s.accum ∧ t.mem = s.mem)
  ∧ (∀ (s : State) (index : Nat) (e : Session) (jb : Job), Table.get? s.ingest.sessions index = some e → s.job? e.job = some jb →
    (s.time.ptime.toNat < e.created.toNat + jb.lifeS * 1000000000 → exec (.sessionExpire index) s = .next s)
    ∧ (e.created.toNat + jb.lifeS * 1000000000 ≤ s.time.ptime.toNat →
      (∀ m ∈ s.ingest.msgs, m.2.kem = true ∨ (m.2.stage ≠ .opening ∧ m.2.stage ≠ .verified) ∨ m.2.job ≠ e.job
        ∨ m.2.sessionRef.toNat ≠ index + 2 ^ 32 * e.gen.toNat) →
      exec (.sessionExpire index) s = .next { s with ingest := { s.ingest with sessions := Table.del s.ingest.sessions index } }))

/-! ## The reed (chapter 06) -/

/-- A modular element wraps at its width; an RNS61 element stays a residue below the prime that its group's set gives it; and the order
of two additions does not matter (R170). -/
def Obligations.ModularSumsDoNotDependOnOrder : Prop :=
  (∀ (g : Group) (q raw : Nat) (sc : Int) (clip : Word64) (el : Elem), isU g.format = true →
    addElem g q sc clip raw el = some { el with a := (el.a + raw) % (2 ^ (8 * g.w) : Int) })
  ∧ (∀ (g : Group) (q raw : Nat) (sc : Int) (clip : Word64) (el : Elem), isRns g.format = true → 0 ≤ el.a → el.a < q →
    ∃ e, addElem g q sc clip raw el = some e ∧ 0 ≤ e.a ∧ e.a < q ∧ e.a = (el.a + raw) % (q : Int))
  ∧ (∀ (s : State) (g : Group) (e : Nat) (p : ParamSet), s.paramSet? g.paramSet = some p →
    s.prime g e = unit p.primes (e / 2 ^ p.logN % p.limbs))
  ∧ (∀ (g : Group) (q r1 r2 : Nat) (sc : Int) (clip : Word64) (el : Elem),
    (isU g.format = true ∨ (isRns g.format = true ∧ 0 ≤ el.a ∧ el.a < q)) →
    (addElem g q sc clip r1 el).bind (addElem g q sc clip r2) = (addElem g q sc clip r2 el).bind (addElem g q sc clip r1))

/-- DESCENT_WRITTEN adds up to eight contributions at one token position of one bank, and changes no other group; where one of them
overflows, nothing is written and the slice reports it. SPILL_UPDATE_APPLY does the same for one tile of a spilled bank (R164, R165,
R181, R185).
Completes here, with a next state as the conclusion: descentWritten, spillUpdateApply.
What the model chooses or infers here stands in log entry 73. -/
def Obligations.DescentsAddContributions : Prop :=
  (∀ (s : State) (gn tile token : Nat) (seqs : List Nat) (g : Group) (isB : Bool) (rows : List (Nat × Nat × Message)),
    s.group? gn = some g → seqs.head?.bind g.bankOfSeq = some isB →
    let qs := if g.relaxed then seqs else sortBy id seqs
    let b := g.bank isB
    g.failed = none → g.spilled = false → qs.length ≤ 8 → ascending (sortBy id qs) = true → (∀ q ∈ qs, b.takes q = true) →
    tile < g.tiles → token < s.tokens g tile → (∀ r, b.reported (g.sliceOf tile) = some r → ∀ q ∈ qs, q < r) →
    (unit g.slices (g.sliceOf tile)).crosses qs = false →
    (g.relaxed = true ∨ ((∀ q ∈ qs, (unit g.slices (g.sliceOf tile)).buffers q = false) ∧ s.inOrder gn g isB tile qs = true)) →
    s.rows gn g tile token qs = some rows →
    (∀ b', rows.foldl (fun (a : Option Bank) x => a.bind (addToken s g x.2.2 gn tile token)) (some b) = some b' →
      ∃ t, exec (.descentWritten gn tile token seqs) s = .next t ∧ t.group? gn = some (g.updBank isB (fun _ => b'))
        ∧ (∀ k, k ≠ gn → t.group? k = s.group? k) ∧ t.accum.jobs = s.accum.jobs ∧ t.mem = s.mem)
    ∧ (∀ l x r b', rows = l ++ x :: r →
      l.foldl (fun (a : Option Bank) y => a.bind (addToken s g y.2.2 gn tile token)) (some b) = some b' →
      addToken s g x.2.2 gn tile token b' = none →
      exec (.descentWritten gn tile token seqs) s = .next (report gn isB (g.sliceOf tile) x.1 s)))
  ∧ (∀ (s : State) (gn bt seq m : Nat) (g : Group) (isB : Bool) (k : Message), s.group? gn = some g → g.bankOfSeq seq = some isB →
    s.holder gn seq = some (m, k) → g.failed = none → g.spilled = true → bt < g.bankTiles → seq = (g.bank isB).nextOf bt →
    (∀ x ∈ g.tokensOf bt, s.taken k gn g x.1 = true) →
    let j := g.sliceOf (((g.tokensOf bt).head?.map (·.1)).getD 0)
    (∀ r, (g.bank isB).reported j = some r → seq < r) → (g.relaxed = true ∨ (unit g.slices j).buffers seq = false) →
    (∀ b', (g.tokensOf bt).foldl (fun (a : Option Bank) x => a.bind (addToken s g k gn x.1 x.2)) (some (g.bank isB)) = some b' →
      ∃ t, exec (.spillUpdateApply gn bt seq) s = .next t
        ∧ t.group? gn = some (g.updBank isB (fun _ => { b' with nexts := Table.put b'.nexts bt (seq + 1) }))
        ∧ (∀ x, x ≠ gn → t.group? x = s.group? x) ∧ t.accum.jobs = s.accum.jobs ∧ t.mem = s.mem)
    ∧ ((g.tokensOf bt).foldl (fun (a : Option Bank) x => a.bind (addToken s g k gn x.1 x.2)) (some (g.bank isB)) = none →
      exec (.spillUpdateApply gn bt seq) s = .next (report gn isB j seq s)))

/-- SCALE_CONFIRM undoes the reported contribution and all later ones, halves the bank, lowers its exponent by one and lets them apply
again; with eight steps taken the group fails. SCALE_CONFIRM_TIMEOUT moves the slice as a tile timeout does. ACC_CONFIGURE sets a
group's FRAC and clip (R176, R181, R182, R408).
Completes here, with a next state as the conclusion: accConfigure, scaleConfirm, scaleConfirmTimeout.
What the model chooses or infers here stands in log entry 73. -/
def Obligations.TheScaleArbiterAndAccConfigure : Prop :=
  (∀ (s : State) (gn j star : Nat) (isB : Bool) (g : Group), s.group? gn = some g → (g.bank isB).candidate = some (j, star) →
    g.failed = none → s.confirmable gn g isB star = true →
    let b := g.bank isB
    let later := (s.inFlight gn).filter (fun e => b.takes e.2 ∧ star ≤ e.2)
    let back := later.foldl (fun b e => ((s.msg? e.1).map (fun k => undo s g gn k b)).getD b) b
    (b.steps ≠ 8 →
      ∃ t h, exec (.scaleConfirm gn isB) s = .next t ∧ t.group? gn = some h ∧ (h.bank isB).scale = b.scale - 1
        ∧ (h.bank isB).steps = b.steps + 1 ∧ (h.bank isB).reports = [] ∧ (h.bank isB).elems = (Bank.halve back).elems
        ∧ h.bank (!isB) = g.bank (!isB)
        ∧ (∀ m k, m ∈ later.map (·.1) → t.msg? m = some k → ∀ x ∈ k.tiles, x.group = gn → x.done = [])
        ∧ (∀ k, k ≠ gn → t.group? k = s.group? k) ∧ t.mem = s.mem ∧ t.out = s.out)
    ∧ (b.steps = 8 →
      ∃ t h, exec (.scaleConfirm gn isB) s = .next t ∧ t.group? gn = some h ∧ h.failed = some .scaleExhausted))
  ∧ (∀ (s : State) (gn j : Nat) (g : Group), s.group? gn = some g → (g.bankA.reports ≠ [] ∨ g.bankB.reports ≠ []) →
    exec (.scaleConfirmTimeout gn j) s = exec (.stationTileTimeout gn j) s
    ∧ (j < g.slices.length → g.failed = none → (unit g.slices j).moves = [] →
      (s.activeCores.filter (· ≠ (unit g.slices j).core)) ≠ [] → s.timed gn j g (unit g.slices j).core = true →
      ∃ core, core ∈ s.activeCores ∧ core ≠ (unit g.slices j).core
        ∧ exec (.scaleConfirmTimeout gn j) s = .next (startMove gn j core 1 { s with draws := s.draws + 1 })))
  ∧ (∀ (s : State) (cid : Nat) (c : Cmd) (g : Group) (jb : Job), Started s cid .accConfigure c → c.inl 0 1 < 64 →
    s.group? (c.inl 0 1) = some g → g.failed = none → s.job? g.job = some jb → jb.filling = none → c.inl 2 1 ≤ maxFrac g.format →
    nonZero? c.slate 35 5 = none → nonZero? c.slate 48 16 = none →
    ((c.inl 1 1 = 0 ∧ c.inl 8 8 = 0)
      ∨ (c.inl 1 1 = 1 ∧ (dec64 (BitVec.ofNat 64 (c.inl 8 8))).finite = true
        ∧ (dec64 (BitVec.ofNat 64 (c.inl 8 8))).le (dec64 fzero) = false ∧ jb.mode = some .trusted ∧ isU g.format = false
        ∧ isRns g.format = false ∧ ∃ k, jb.graph = some k ∧ k.nodes.any (fun n => n.station == 4) = true)) →
    exec (.accConfigure cid) s = .next (complete cid .ok 0 0 (s.updGroup (c.inl 0 1) (fun g => { g with
      frac := c.inl 2 1, clip := decide (c.inl 1 1 = 1), clipNorm := BitVec.ofNat 64 (c.inl 8 8) }))))

/-! ## Partials and masks (chapters 05 and 07) -/

/-- BANK_FINAL: a drained bank becomes FINAL with its elements as they are while a station still reads it, and goes on to ZEROING where
none does; a command that waited for it alone completes. ACC_COMBINE waits for the tiles of the connections it names;
ACC_COMBINE_DONE adds them to the bank, or fails the group where no exponent fits (R51, R54, R188 to R192).
Completes here, with a next state as the conclusion: accCombine, accCombineDone, bankFinal.
What the model chooses or infers here stands in log entries 34, 35 and 82. -/
def Obligations.BanksEndAndCombine : Prop :=
  (∀ (s : State) (gn : Nat) (isB : Bool) (g : Group), s.group? gn = some g → s.drained gn isB = true →
    ∃ t h, exec (.bankFinal gn isB) s = .next t ∧ t.group? gn = some h
      ∧ (s.consumers gn ≠ [] → 12 ∉ s.consumers gn → (h.bank isB).mode = .final ∧ (h.bank isB).elems = (g.bank isB).elems)
      ∧ (s.consumers gn = [] → s.combining gn isB = false → (h.bank isB).mode = .zeroing ∧ (h.bank isB).elems = [])
      ∧ (∀ cid c l r, s.cmd? cid = some c → c.work = .draining [(gn, isB)] l r → t.cmd? cid = none)
      ∧ (∀ x, x ≠ gn → t.group? x = s.group? x))
  ∧ (∀ (s : State) (cid : Nat) (c : Cmd) (g : Group) (k : Graph) (jb : Job), Started s cid .accCombine c →
    (∀ b x l, c.work ≠ .combining b x l) →
    let n := c.par 1 1
    let conns := (List.range n).map (fun i => c.par (16 + 8 * i) 2)
    nonZero? c.slate 32 32 = none → c.par 0 1 ≤ 1 → 1 ≤ n → n ≤ 64 → c.body.length = 16 + 8 * n → nonZero? c.block 2 2 = none →
    nonZero? c.block 8 8 = none → (∀ i < n, nonZero? c.block (16 + 8 * i + 2) 6 = none) → conns.Nodup →
    s.groupOf c.job c.group = some g → g.failed = none → (g.bank (decide (c.par 0 1 = 1))).mode = .final →
    s.job? c.job = some jb → jb.graph = some k → k.serves 8 c.group = true →
    (∀ x ∈ conns, ∃ q, s.conn? x = some q ∧ q.phase = .opened ∧ q.job = c.job ∧ s.combinerOf q.id = none) →
    ∃ t d l, exec (.accCombine cid) s = .next t ∧ t.cmd? cid = some d ∧ d.work = .combining (decide (c.par 0 1 = 1)) (c.par 4 4) l
      ∧ l.map (·.conn) = conns ∧ t.accum.held = s.accum.held.filter (fun p => !(conns.map (fun x => ((s.conn? x).map (·.id)).getD 0)).contains p.connId)
      ∧ t.accum.groups = s.accum.groups ∧ t.mem = s.mem ∧ t.out = s.out)
  ∧ (∀ (s : State) (cid take : Nat) (c : Cmd) (isB : Bool) (sources : List CombineSource) (g : Group), s.cmd? cid = some c →
    c.phase = .committed → c.work = .combining isB take sources → s.group? c.group = some g →
    (∀ bank, sources.foldl (fun (m : Option Bank) x => m.bind (fun b => s.combineSource g b x)) (some (g.bank isB)) = some bank →
      ∃ u h, exec (.accCombineDone cid) s = .next (afterCombine c.group isB
          (complete cid (if (h.bank isB).longSum then .longSum else .ok) 0 (h.bank isB).count u))
        ∧ u.group? c.group = some h ∧ (h.bank isB).elems = bank.elems ∧ (h.bank isB).scale = bank.scale
        ∧ (h.bank isB).combined = true
        ∧ (h.bank isB).cohort = (g.bank isB).cohort + (sources.map (fun x => (x.head.map (·.1)).getD 0)).sum
        ∧ (∀ x, x ≠ c.group → u.group? x = s.group? x) ∧ u.mem = s.mem ∧ u.out = s.out)
    ∧ (sources.foldl (fun (m : Option Bank) x => m.bind (fun b => s.combineSource g b x)) (some (g.bank isB)) = none →
      ∃ t h, exec (.accCombineDone cid) s = .next t ∧ t.group? c.group = some h ∧ h.failed = some .scaleExhausted))

/-- MASK_CONFIGURE sets a mode M job's keystream and threshold; MASK_SEEDS_SUBMIT enters valid records in the ledger;
MASK_REGEN_TILE adds one tile of a mask to the group's mask sum, or subtracts it, modulo the element width, and changes no other element
(R199, R203 to R205).

MASK_REMOVE seals the take's ledger once every committed client of a FINAL bank has a self seed in it; MASK_REMOVE_UNMASK leaves
B − A modulo the element width at the gate, in an unreleased item with the descriptors of its tiles, and completes (R207, R208).
Completes here, with a next state as the conclusion: maskConfigure, maskSeedsSubmit, maskRegenTile, maskRemove, maskRemoveUnmask.
What the model chooses or infers here stands in log entry 71. -/
def Obligations.MasksAreRebuiltAndRemoved : Prop :=
  ((∀ (s : State) (cid : Nat) (c : Cmd) (jb : Job), Started s cid .maskConfigure c → c.inl 0 1 ≤ 1 → 2 ≤ c.inl 1 1 → c.inl 1 1 ≤ 128 →
     nonZero? c.slate 34 30 = none → s.job? c.job = some jb → jb.mode = some .masked → jb.filling = none →
     exec (.maskConfigure cid) s = .next (complete cid .ok 0 0 (s.updJob c.job (fun jb => { jb with
       prg := c.inl 0 1, thresh := c.inl 1 1 }))))
   ∧ (∀ (s : State) (cid l : Nat) (c : Cmd) (jb : Job) (k : Ledger) (ps : List Piece) (rs : List SeedRecord),
     Started s cid .maskSeedsSubmit c → c.inlZero 0 32 = true → scatterAt c.body 0 = .inr (ps, c.body.length) →
     piecesLen ps ≤ c.input.length →
     let b := c.input
     let n := leAt b 4 4
     16 ≤ b.length → zeroAt b 8 8 = true → 1 ≤ n → n ≤ 65536 → seedRecords n (b.drop 16) = (rs, []) → rs.length = n →
     s.job? c.job = some jb → jb.mode = some .masked → s.ledgerOf c.job (leAt b 0 4) = some (l, k) → k.thresh ≠ 0 →
     k.isSealed = false → (∀ r ∈ rs, r.valid (some k.thresh) = true ∧ r.agrees k.thresh = true) →
     (∀ i < rs.length, ∀ r, rs[i]? = some r → seedRepeats k (rs.take i) r = false ∧ seedReason k (rs.take i) r = none) →
     k.selfs.length + (rs.filter (fun r => r.kind = 1)).length ≤ 16777216 →
     k.pairs.length + (rs.filter (fun r => r.kind = 2)).length ≤ 33554432 →
     exec (.maskSeedsSubmit cid) s = .next (complete cid .ok 0 n (takeRecords l c.job k rs s))
     ∧ ∃ k', Table.get? (takeRecords l c.job k rs s).masks.ledgers l = some k'
       ∧ k'.selfs = k.selfs ++ (rs.filter (fun r => r.kind = 1)).map (·.token)
       ∧ k'.pairs = k.pairs ++ (rs.filter (fun r => r.kind = 2)).map (fun r => (r.token, r.peer)))
   ∧ (∀ (s : State) (l i : Nat) (k : Ledger) (it : RegenItem) (g : Group), Table.get? s.masks.ledgers l = some k →
     k.items[i]? = some it → s.group? it.group = some g →
     let lo := it.next * g.per
     let hi := min g.count (lo + g.per)
     let q := 2 ^ (8 * g.w)
     ∃ t k', exec (.maskRegenTile l i) s = .next t ∧ Table.get? t.masks.ledgers l = some k'
       ∧ (∀ e, lo ≤ e → e < hi → k'.sum it.group e = (k.sum it.group e
           + (if it.negative then q - maskElem k.prg g.w it.key e else maskElem k.prg g.w it.key e)) % q)
       ∧ (∀ x, x.1 ≠ it.group ∨ x.2.1 < lo ∨ hi ≤ x.2.1 → (x ∈ k'.sums ↔ x ∈ k.sums))
       ∧ (it.next + 1 < it.last → k'.items = k.items.set i { it with next := it.next + 1 })
       ∧ (it.last ≤ it.next + 1 → k'.items = k.items.eraseIdx i)
       ∧ (∀ m, m ≠ l → Table.get? t.masks.ledgers m = Table.get? s.masks.ledgers m)
       ∧ t.masks.done = satAdd s.masks.done 1 ∧ t.accum = s.accum ∧ t.gate = s.gate ∧ t.mem = s.mem ∧ t.out = s.out))
  ∧ ((∀ (s : State) (cid l : Nat) (c : Cmd) (g : Group) (jb : Job) (gr : Graph) (k : Ledger), Started s cid .maskRemove c →
       s.groupOf c.job c.group = some g → c.inl 0 1 ≤ 1 → nonZero? c.slate 33 3 = none → nonZero? c.slate 40 24 = none →
       g.failed = none → s.job? c.job = some jb → jb.mode = some .masked → jb.graph = some gr → gr.serves 6 c.group = true →
       let isB := decide (c.inl 0 1 = 1)
       (g.bank isB).mode = .final → (g.bank isB).take = c.inl 4 4 → (g.bank isB).cut = false →
       s.ledgerOf c.job (c.inl 4 4) = some (l, k) → k.selfs.length = (g.bank isB).count → k.removed.contains (c.group, isB) = false →
       exec (.maskRemove cid) s = .next (commit cid (.unmasking isB (c.inl 4 4)) { s with masks := { s.masks with
         ledgers := Table.put s.masks.ledgers l { k with isSealed := true, removed := k.removed ++ [(c.group, isB)] } } }))
     ∧ (∀ (s : State) (cid l take : Nat) (c : Cmd) (g : Group) (k : Ledger) (isB : Bool), s.cmd? cid = some c →
       c.work = .unmasking isB take → s.group? c.group = some g → s.ledgerOf c.job take = some (l, k) →
       (∀ it ∈ k.items, it.group ≠ c.group) →
       let q := 2 ^ (8 * g.w)
       ∃ t it, exec (.maskRemoveUnmask cid) s = .next (finishStation c.group isB 6 t) ∧ t.cmd? cid = none
         ∧ Table.get? t.gate.items (itemKey c.group isB) = some it ∧ it.released = false ∧ it.job = g.job
         ∧ (∀ e, e < g.count → ((Table.get? it.elems e).getD { a := 0, x := 0, y := 0 }).a
             = ((((g.bank isB).elem e).a.toNat + (q - k.sum c.group e)) % q : Nat))
         ∧ it.descs = (List.range g.bankTiles).map (unmaskedDesc c.group g (g.bank isB))
         ∧ t.accum = s.accum ∧ t.mem.cells = s.mem.cells ∧ t.out = s.out))

/-! ## The release gate (chapter 09) -/

/-- GATE_POLICY_SET stores the policy of its block for one group, or for every group of the job and those it opens later. GATE_RELEASE
finishes an item, repeats a kept output, or asks for its noise seeds and waits for its commit point (R254, R260, R261).

GATE_RELEASE_COMMIT: with its seeds there, the first release writes header and noised data to its region or to a vault slot, keeps
the output for REPEAT and marks the item released; a sealed output takes the job's next release counter. A committed release that waited
writes its output, or ends with the refusal of its region and leaves its item as it was (R257, R262 to R265, R274).
Completes here, with a next state as the conclusion: gatePolicySet, gateRelease, gateReleaseCommit.
What the model chooses or infers here stands in log entries 34 and 82. -/
def Obligations.PoliciesGovernReleases : Prop :=
  ((∀ (s : State) (cid : Nat) (c : Cmd) (jb : Job), Started s cid .gatePolicySet c →
     let p := policyOf c.block
     nonZero? c.slate 32 32 = none → c.body.length = 32 → c.par 0 1 = 1 → c.par 1 1 ≤ 1 → c.par 2 1 < 8 → c.par 3 1 < 4 →
     1 ≤ p.minCohort → c.par 14 2 = 0 → (p.noisy = true ↔ p.sigmaNum ≠ 0) → p.sigmaNum ≤ p.sigmaDen * 2 ^ 32 → 1 ≤ p.sigmaDen →
     -60 ≤ p.unitExp → p.unitExp ≤ 60 → nonZero? c.block 21 11 = none → s.job? c.job = some jb →
     (c.group ≠ 0xFF → (s.groupOf c.job c.group).isSome = true →
       exec (.gatePolicySet cid) s = .next (complete cid .ok 0 0 { s with gate := { s.gate with
         policies := Table.put s.gate.policies c.group p } }))
     ∧ (c.group = 0xFF →
       ∃ t, exec (.gatePolicySet cid) s = .next t ∧ Table.get? t.gate.defaults c.job = some p
         ∧ (∀ g k, s.group? g = some k → k.job = c.job → Table.get? t.gate.policies g = some p)
         ∧ t.gate.items = s.gate.items ∧ t.accum = s.accum ∧ t.mem = s.mem ∧ t.out = s.out))
   ∧ (∀ (s : State) (cid : Nat) (c : Cmd) (jb : Job) (it : GateItem) (p : GatePolicy), Started s cid .gateRelease c →
     (∀ n d, c.work ≠ .seeds n d) → firstBad (releaseFields c) = none → s.releaseItem c = .inr (jb, it, p) →
     (c.outDest = 2 → exec (.gateRelease cid) s = .next (complete cid .ok 0 0 (forCommand cid (releaseEnds c) s)))
     ∧ (c.outDest ≠ 2 → s.releaseFault c it p = none → c.repeats = true → s.outputWaits c = false →
       ∀ r, s.outRegion c.job (BitVec.ofNat 32 (c.inl 8 4)) (c.inl 16 8) it.kept.length = .inr r →
       exec (.gateRelease cid) s = .next (complete cid .ok 0 it.kept.length
         (forCommand cid (fun s => releaseEnds c (regionWrite r (c.inl 16 8) it.kept s)) s)))
     ∧ (c.outDest ≠ 2 → s.releaseFault c it p = none → c.repeats = false → s.releaseTiles c p = 0 →
       exec (.gateRelease cid) s = .next (setWork cid (.seeds p.sigmaNum p.sigmaDen) s))
     ∧ (c.outDest ≠ 2 → s.releaseFault c it p = none → c.repeats = false → s.releaseTiles c p ≠ 0 → s.rng.mode ≠ .failed →
       s.rng.mode ≠ .retesting → (s.rng.mode = .unseeded → slateNoWait c.slate = false) →
       exec (.gateRelease cid) s = .next (setWork cid (.seeds p.sigmaNum p.sigmaDen)
         (request 3 (.command cid) (32 * s.releaseTiles c p) 32 s)))))
  ∧ (∀ (s : State) (cid num den : Nat) (c : Cmd) (jb : Job) (it : GateItem) (p : GatePolicy) (seeds : List Bytes),
       Started s cid .gateRelease c → c.work = .seeds num den → s.releaseItem c = .inr (jb, it, p) → s.releaseFault c it p = none →
       s.outputWaits c = false →
       ((s.releaseTiles c p = 0 ∧ seeds = []) ∨ (s.releaseTiles c p ≠ 0 ∧ num = p.sigmaNum ∧ den = p.sigmaDen
         ∧ ∃ q, s.granted cid = some q ∧ q.left = 0 ∧ seeds = chunks 32 (s.releaseTiles c p) q.got)) →
       let e := s.releasedElems c it p seeds
       let data := s.releaseOutput c jb (s.releaseHeader c it p e.2 jb.rctr) (s.releaseData c it e.1)
       (c.outDest ≠ 1 → ∃ r, s.outRegion c.job (BitVec.ofNat 32 (c.inl 8 4)) (c.inl 16 8) data.length = .inr r) →
       ∃ u k n, exec (.gateReleaseCommit cid) s
           = .next (complete cid .ok 0 n (Sys2Proof.Machine.ofCommand cid s.reel.queue.length (releaseEnds c u)))
         ∧ u.gateItem c = some k ∧ k.released = true
         ∧ (c.outDest = 1 → n = e.1.length ∧ k.kept = [] ∧ k.slot = some (c.inl 3 1) ∧ k.cohort = s.itemCohort c it
           ∧ u.mem = s.mem ∧ u.out = s.out)
         ∧ (c.outDest ≠ 1 → n = data.length ∧ k.kept = data ∧ k.isSealed = c.sealed
           ∧ (∀ r, s.outRegion c.job (BitVec.ofNat 32 (c.inl 8 4)) (c.inl 16 8) data.length = .inr r →
               (r.space ≠ .host → u.mem = memStore s.mem (r.base + c.inl 16 8) data ∧ u.out = s.out)
               ∧ (r.space = .host → s.shuttleOpen = true → s.inReach (r.base + c.inl 16 8) data.length = true →
                   u.mem = s.mem ∧ u.out = s.out ++ [.hostWrite (r.base + c.inl 16 8) data (s.pcie.roBulk && s.pcie.relaxedOrdering)])))
         ∧ (c.outDest ≠ 1 → c.sealed = true → s.job? c.job = some jb → ∃ j, u.job? c.job = some j ∧ j.rctr = jb.rctr + 1)
         ∧ u.accum.groups = s.accum.groups)
  ∧ (∀ (s : State) (cid : Nat) (c : Cmd) (out : Bytes), s.cmd? cid = some c → c.op = .gateRelease → c.phase = .committed →
       c.work = .writing out → s.faults.outOfService = false → s.outputWaits c = false →
       (∀ r, s.outRegion c.job (BitVec.ofNat 32 (c.inl 8 4)) (c.inl 16 8) out.length = .inr r →
         exec (.gateReleaseCommit cid) s = .next (complete cid .ok 0 out.length (releaseEnds c (regionWrite r (c.inl 16 8) out s))))
       ∧ (∀ st, s.outRegion c.job (BitVec.ofNat 32 (c.inl 8 4)) (c.inl 16 8) out.length = .inl st →
         exec (.gateReleaseCommit cid) s = .next (complete cid st 0 0 s)))

/-- A release of fewer contributions than the policy's least cohort, or one that any other check of R261 refuses, writes nothing to
memory or to the host and leaves every item as it was, at the command and up to its commit point (R252, R261, R266).
What the model chooses or infers here stands in log entry 37. -/
def Obligations.NothingIsReleasedBelowItsCohort : Prop :=
  ∀ (s t : State) (cid : Nat) (c : Cmd) (jb : Job) (it : GateItem) (p : GatePolicy), s.cmd? cid = some c → c.phase ≠ .committed →
    s.releaseItem c = .inr (jb, it, p) → c.outDest ≠ 2 →
    ((c.repeats = false ∧ s.itemCohort c it < p.minCohort) ∨ (s.releaseFault c it p).isSome = true) →
    (exec (.gateRelease cid) s = .next t ∨ exec (.gateReleaseCommit cid) s = .next t) →
    t.mem.cells = s.mem.cells ∧ t.out = s.out ∧ t.gate.items = s.gate.items ∧ t.gate.polyItems = s.gate.polyItems ∧ t.accum = s.accum
    ∧ t.rng.requests.filter (fun q => q.consumer ≠ .command cid) = s.rng.requests.filter (fun q => q.consumer ≠ .command cid)

/-! ## The heddle (chapter 08) -/

/-- POLY_PARAMS_LOAD stores a set that nothing uses. POLY_TABLE_BUILD of a defined version is accepted, and every heddle in service
without it places its build; a limb built twice with equal results counts, and the last makes the slot READY; with every heddle READY the
command completes with their number (R218, R219, R222).

POLY_KEY_LOAD places a key whose hash, length and seal are right; a free admits no new users and completes with the object's last
user; an object being freed is erased when it has none left; POL_OBJ_SEL takes its fields (R230 to R232, R249).
Completes here, with a next state as the conclusion: polyParamsLoad, polyTableBuild, tableLimbBuilt, tableBuildDone, polyKeyLoad,
polyObjectFree, polyObjectErase, polObjSelWrite.
What the model chooses or infers here stands in log entries 79, 81 and 114. -/
def Obligations.SetsTablesKeysAndObjects : Prop :=
  ((∀ (s : State) (cid : Nat) (c : Cmd), Started s cid .polyParamsLoad c →
     let k := paramSetOf c.body
     let total := k.limbs + k.special
     nonZero? c.slate 32 32 = none → 0x100 ≤ c.par 0 2 → c.par 0 2 ≤ 0xFFFE → 10 ≤ k.logN → k.logN ≤ 17 → 1 ≤ k.limbs → k.limbs ≤ 64 →
     total ≤ 64 → c.body.length = 64 + 8 * total → k.ingestForm ≤ 1 → k.ingestDomain ≤ 1 → 1 ≤ k.eta → k.eta ≤ 16 →
     (k.ingestDomain = 1 ↔ k.ingestVer ≠ 0) → nonZero? c.block 14 2 = none → 2 ≤ k.t → k.t < unit k.primes 0 →
     nonZero? c.block 32 32 = none → k.primes.Nodup →
     (∀ q ∈ k.primes, 2 ^ 20 < q ∧ q < 2 ^ 61 ∧ q % 2 ^ (k.logN + 1) = 1 ∧ isPrime q = true) →
     s.setUsed (c.par 0 2) = false → ((s.paramSet? (c.par 0 2)).isSome = true ∨ s.poly.sets.length < 16) →
     ∃ r, exec (.polyParamsLoad cid) s = .next (complete cid .ok 0 r { s with poly := { s.poly with
       sets := Table.put s.poly.sets (c.par 0 2) k } }))
   ∧ (∀ (s : State) (cid : Nat) (c : Cmd) (p : ParamSet), Started s cid .polyTableBuild c → nonZero? c.slate 32 32 = none →
     s.paramSet? (c.par 0 2) = some p → c.par 2 2 ≠ 0 → nonZero? c.block 5 11 = none →
     (Table.has p.versions (c.par 2 2) = true → c.par 4 1 = 0 → c.body.length = 16 →
       exec (.polyTableBuild cid) s = .next (commit cid (.tables (c.par 0 2) (c.par 2 2) s.time.ptime.toNat)
         (buildEverywhere (c.par 0 2) (c.par 2 2) s)))
     ∧ (∀ roots, Table.has p.versions (c.par 2 2) = false → c.auth = true → c.par 4 1 = p.limbs + p.special →
       c.body.length = 16 + 8 * c.par 4 1 → roots = (List.range (c.par 4 1)).map (fun i => c.par (16 + 8 * i) 8) →
       (∀ i < c.par 4 1, expMod (unit p.primes i) (c.par (16 + 8 * i) 8) (2 ^ p.logN) = unit p.primes i - 1) → p.versions.length < 8 →
       exec (.polyTableBuild cid) s = .next (commit cid (.tables (c.par 0 2) (c.par 2 2) s.time.ptime.toNat)
         (buildEverywhere (c.par 0 2) (c.par 2 2) (s.updPoly (fun k =>
           let q := { p with versions := Table.put p.versions (c.par 2 2) (roots.mapIdx (fun i r => r % unit p.primes i)) }
           { k with sets := Table.put k.sets (c.par 0 2) q }))))))
   ∧ (∀ (s : State) (h : Nat) (one : Bool) (p : ParamSet), h < s.poly.heddles.length → (unit s.poly.heddles h).inService = true →
     ((unit s.poly.heddles h).slot one).state = .building → Table.get? s.poly.sets ((unit s.poly.heddles h).slot one).set = some p →
     let k := (unit s.poly.heddles h).slot one
     ∃ t, exec (.tableLimbBuilt h one true) s = .next t
       ∧ (k.built + 1 < p.limbs + p.special → (unit t.poly.heddles h).slot one = { k with
           built := k.built + 1
           entries := k.entries ++ [twiddles (unit p.primes k.built) (unit ((Table.get? p.versions k.ver).getD []) k.built)] })
       ∧ (p.limbs + p.special ≤ k.built + 1 → ((unit t.poly.heddles h).slot one).state = .ready
           ∧ ((unit t.poly.heddles h).slot one).set = k.set ∧ ((unit t.poly.heddles h).slot one).ver = k.ver)
       ∧ (unit t.poly.heddles h).slot (!one) = (unit s.poly.heddles h).slot (!one)
       ∧ (∀ i, i ≠ h → unit t.poly.heddles i = unit s.poly.heddles i) ∧ t.cmds = s.cmds ∧ t.mem = s.mem ∧ t.out = s.out)
   ∧ (∀ (s : State) (cid set ver since : Nat) (c : Cmd), s.cmd? cid = some c → c.work = .tables set ver since → c.silent = false →
     (s.ring c.ring).discarding = false → c.ring < s.rings.length → (∀ e ∈ s.heddlesIn, e.2.holds .ready set ver = true) →
     ∃ t, exec (.tableBuildDone cid) s = .next t ∧ t.cmd? cid = none
       ∧ (∃ w, (t.ring c.ring).records = (s.ring c.ring).records ++ [w] ∧ w.status = 0
           ∧ w.result = BitVec.ofNat 64 s.heddlesIn.length)
       ∧ t.mem.cells = s.mem.cells ∧ t.out = s.out ∧ t.accum = s.accum))
  ∧ ((∀ (s u : State) (cid : Nat) (c : Cmd) (p : ParamSet) (ps : List Piece) (used : Nat) (data : Bytes),
       Started s cid .polyKeyLoad c → c.par 0 1 = 0 → firstBad (keyChecks c s) = none → (s.job? c.job).isSome = true →
       Table.has s.poly.objects (objId c.job (c.par 2 2)) = false → scatterAt c.body 128 = .inr (ps, used) → c.body.length = 128 + used →
       piecesLen ps ≤ c.input.length → s.paramSet? (c.par 4 2) = some p → sha256 c.input = c.parB 16 32 →
       c.input.length = 8 * keyResidues p (c.par 1 1) (c.par 8 1) + (if c.par 1 1 = 4 then 28 else 0) →
       (if c.par 1 1 = 4 then gcmOpen (s.using (.keyImport c.job)) (c.input.take 12) (ascii "LN7300-SKS" ++ toBE 2 (c.par 4 2) ++ c.parB 48 (c.par 9 1))
         (c.input.drop 12) else some c.input) = some data →
       putObject c.job (c.par 2 2) (keyObject c p data).tiled s = some u →
       exec (.polyKeyLoad cid) s
         = .next (complete cid .ok 0 (c.par 2 2) (if c.par 1 1 = 4 then loadNamed (.keyImport c.job) u else u))
       ∧ ∃ o, Table.get? u.poly.objects (objId c.job (c.par 2 2)) = some o ∧ o.data = (keyObject c p data).data ∧ o.kind = c.par 1 1
         ∧ o.headers.length = (keyObject c p data).keyTiles
         ∧ ∀ i, i < o.headers.length → headerOk (keyTagOf (c.parB 48 (c.par 9 1))) (o.headers.getD i []) = true)
     ∧ (∀ (s : State) (cid : Nat) (c : Cmd) (o : PolyObject), Started s cid .polyKeyLoad c → c.par 0 1 = 1 →
       firstBad (keyChecks c s) = none → (s.job? c.job).isSome = true → s.object? c.job (c.par 2 2) = some o →
       let id := objId c.job (c.par 2 2)
       ∃ t, exec (.polyObjectFree cid) s = .next t ∧ exec (.polyKeyLoad cid) s = .next t
         ∧ (o.users ≠ [] → t.cmd? cid = some { c with phase := .committed, work := .freeing id }
             ∧ Table.get? t.poly.objects id = some { o with freeing := true } ∧ t.mem = s.mem)
         ∧ (o.users = [] → t.cmd? cid = none ∧ Table.get? t.poly.objects id = none))
     ∧ (∀ (s : State) (id : Nat) (o : PolyObject), Table.get? s.poly.objects id = some o → o.freeing = true → o.users = [] →
       ∃ t, exec (.polyObjectErase id) s = .next t ∧ Table.get? t.poly.objects id = none
         ∧ (∀ a ∈ t.mem.allocs, a ∈ s.mem.allocs ∧ a.owner ≠ .object id)
         ∧ (∀ a ∈ s.mem.allocs, a.owner ≠ .object id → (∀ cid b, a.owner ≠ .scratch cid b) → a ∈ t.mem.allocs)
         ∧ t.mem.cells = s.mem.cells
         ∧ (∀ cid c, s.cmd? cid = some c → c.work = .freeing id → t.cmd? cid = none))
     ∧ (∀ (s : State) (v : Word32), RegistersOpen s →
       exec (.polObjSelWrite v) s = .next { s with poly := { s.poly with
         selJob := v.extractLsb' 0 4, selHandle := v.extractLsb' 4 12, selGroup := v.extractLsb' 16 6, selBank := v.getLsbD 22 } }))

/-- A POLY operation that passes every check of R238 is set to work; one that draws random values asks for them first, and goes on to
work with the whole draw (R237, R238, R247).

POLY_COMMIT replaces the destination's data and descriptor in one action, gives the result its noise, level and domain, brings it to
the gate where TO_GATE asks, and completes (R235, R239, R240, R248).
Completes here, with a next state as the conclusion: polyNtt, polyAdd, polyKeyswitch, polyModred, polyEncNoise, polyDecShare,
polyToShares, polyCommit.
What the model chooses or infers here stands in log entries 36, 37, 38, 39, 80, 115 and 116. -/
def Obligations.PolyCommandsRun : Prop :=
  (∀ (s : State) (cid : Nat) (c : Cmd) (op : Opcode) (i : Instr),
     (op, i) ∈ [(Opcode.polyNtt, Instr.polyNtt cid), (.polyAdd, .polyAdd cid), (.polyKeyswitch, .polyKeyswitch cid),
       (.polyModred, .polyModred cid), (.polyEncNoise, .polyEncNoise cid), (.polyDecShare, .polyDecShare cid),
       (.polyToShares, .polyToShares cid)] →
     Started s cid op c →
     (∀ (u : State) (a : PolyObject) (p : ParamSet), (∀ r x y n d, c.work ≠ .poly r x y n d) →
       firstBad (polyFields c ++ s.polyRange c) = none →
       (s.job? c.job).bind (·.mode) = some .homomorphic → polyKindsOk c s = true → polyGroupFault c s = none →
       s.operand c 4 = some a → s.paramSet? a.paramSet = some p →
       let b := if op = .polyAdd then s.operand c 8 else none
       let key := if op.keyKind = 0 then none else s.object? c.job (c.inl 12 2)
       let ver := c.inl 14 2
       let set := a.paramSet
       let out := outDomain c a
       s.tableFault set ver (a.ntt || (b.map (·.ntt)).getD false || out || key.isSome) = none → (a.ntt = true → a.tableVer = ver) →
       (∀ x, b = some x → (x.ntt = true → x.tableVer = ver) ∧ x.paramSet = set ∧ x.level = a.level ∧ x.ntt = a.ntt ∧ x.count = a.count
         ∧ x.keyTag = a.keyTag) →
       (∀ x, key = some x → x.paramSet = set ∧ x.tableVer = ver ∧ x.keyTag = a.keyTag) →
       (op = .polyNtt → a.ntt = decide (c.inl 16 4 = 1)) →
       (resultNoise c p (some a) b key).1 ≤ 65535 → (∀ x ∈ noiseSteps c p a, x ≤ 65535) → (∀ x, b = some x → x.noise ≤ 65535) →
       256 ≤ p.budget (resultNoise c p (some a) b key).2 (resultNoise c p (some a) b key).1 →
       takeScratch cid (resultBytes c p a (resultNoise c p (some a) b key).2) s = some u →
       let v := waitItems a.count set ver (joinUsers cid c set ver u)
       (op.draws = false → exec i s = .next (setWork cid (.poly (v.drawn cid) set ver 0 1) v))
       ∧ (op.draws = true → s.rng.mode ≠ .failed → s.rng.mode ≠ .retesting → (s.rng.mode = .unseeded → slateNoWait c.slate = false) →
           let e := if op = .polyEncNoise then s.encSigma a else (0, 1)
           let w := askValues cid c p a.count e.1 v
           exec i s = .next (setWork cid (.poly (w.drawn cid) set ver e.1 e.2) w)))
     ∧ (∀ set ver num den : Nat, c.work = .poly false set ver num den → s.drawn cid = true →
       exec i s = .next (setWork cid (.poly true set ver num den) s)))
  ∧ (∀ (s u : State) (cid set ver num den : Nat) (c : Cmd) (a : PolyObject) (p : ParamSet) (tables : List (List Nat)), s.cmd? cid = some c →
       c.work = .poly true set ver num den → s.held c 4 = some a → s.paramSet? set = some p → s.tables? set ver = some tables →
       let b := if c.op = .polyAdd then s.held c 8 else none
       let key := if c.op.keyKind = 0 then none else Table.get? s.poly.objects (objId c.job (c.inl 12 2))
       (∀ i, key.bind (fun k => k.badTile p a) = some i →
         exec (.polyCommit cid) s = .next (complete cid .keyMismatch i 0 (polyRefused .keyMismatch s))) ∧
       (key.bind (fun k => k.badTile p a) = none →
       let x := polyData c p tables a b key (s.polyDraw cid c p (if c.op.draws then a.count else 0) num) num den
       let dest := polyObject c p ver a b key x.1 num den
       (c.op ≠ .polyToShares → putResult cid false c.job (c.inl 0 2) dest s = some u) →
       (c.op = .polyToShares → c.dest2 ≠ c.inl 0 2 ∧ (putResult cid false c.job (c.inl 0 2) dest s).bind
         (putResult cid true c.job c.dest2 { dest with kind := 6, ntt := false, tableVer := 0, data := x.2 }) = some u) →
       ∃ t o, exec (.polyCommit cid) s = .next t ∧ t.cmd? cid = none ∧ Table.get? t.poly.objects (objId c.job (c.inl 0 2)) = some o
         ∧ o.data = x.1 ∧ o.kind = c.op.destKind a.kind ∧ o.ntt = outDomain c a ∧ o.noise = (resultNoise c p (some a) b key).1
         ∧ o.level = (resultNoise c p (some a) b key).2
         ∧ (c.op = .polyToShares → (c.freeSrc = true → c.dest2 ≠ (c.src 4).2 ∧ c.dest2 ≠ (c.src 8).2) →
             ∃ w, Table.get? t.poly.objects (objId c.job c.dest2) = some w ∧ w.data = x.2 ∧ w.kind = 6)
         ∧ (c.toGate = true → ∃ it, Table.get? t.gate.polyItems (objId c.job (c.inl 0 2)) = some it ∧ it.released = false
             ∧ it.dest = some dest
             ∧ it.descs.take (polyTiles c dest).length = polyTiles c dest)
         ∧ t.mem.cells = s.mem.cells ∧ t.out = s.out))

/-! ## The model vault (chapter 09) -/

/-- VAULT_CONFIGURE creates, changes or erases a slot of its job; VAULT_LOAD gives a slot the state of a wrapped model whose tag a key of
this device opens (R267 to R270).

VAULT_STEP runs on a released item that DEST 1 gave its slot; at its end the slot is replaced in one action, its take is kept against
a second step, and the released elements are dropped. VAULT_EXPORT writes the slot to a region, wrapped to the set or to the model owner
(R271, R272).
Completes here, with a next state as the conclusion: vaultConfigure, vaultLoad, vaultStep, vaultExport, vaultStepDone.
What the model chooses or infers here stands in log entry 83. -/
def Obligations.VaultSlotsLoadStepAndExport : Prop :=
  ((∀ (s : State) (cid : Nat) (c : Cmd) (jb : Job), Started s cid .vaultConfigure c → nonZero? c.slate 32 32 = none →
     c.body.length = 1248 → c.par 0 1 < 8 → c.par 1 1 ≤ 2 → nonZero? c.block 49 15 = none → s.job? c.job = some jb →
     (∀ u, c.par 1 1 = 0 → firstBad (vaultFields c) = none → s.vaultSlot? (c.par 0 1) = none →
       placeSlot (c.par 0 1) (c.par 2 1) (c.par 4 4) s = some u →
       exec (.vaultConfigure cid) s = .next (complete cid .ok 0 0
         (u.setSlot (c.par 0 1) (some (configuredSlot c (freshSlot (c.parB 64 1184)))))))
     ∧ (∀ k, c.par 1 1 = 1 → s.vaultSlot? (c.par 0 1) = some k → k.job = c.job →
       firstBad (vaultFields c) = none →
       let u := eraseSlot (c.par 0 1) s
       exec (.vaultConfigure cid) s = .next (complete cid .ok 0 0 u) ∧ u.vaultSlot? (c.par 0 1) = none
         ∧ u.mem.allocs = s.mem.allocs.filter (fun a => a.owner ≠ .vault (c.par 0 1)) ∧ u.mem.cells = s.mem.cells
         ∧ (∀ i, i ≠ c.par 0 1 → u.vaultSlot? i = s.vaultSlot? i))
     ∧ (∀ k, c.par 1 1 = 2 → firstBad (vaultFields c) = none → s.vaultSlot? (c.par 0 1) = some k → k.job = c.job →
       k.opt = c.par 2 1 → k.elems = c.par 4 4 →
       exec (.vaultConfigure cid) s = .next (complete cid .ok 0 0 (s.setSlot (c.par 0 1) (some (configuredSlot c k))))))
   ∧ (∀ (s : State) (cid n : Nat) (c : Cmd) (ps : List Piece) (k : VaultSlot) (body : Bytes), Started s cid .vaultLoad c →
     nonZero? c.slate 32 32 = none → 24 ≤ c.body.length → c.par 0 1 < 8 → nonZero? c.block 1 15 = none →
     scatterAt c.body 16 = .inr (ps, n) → c.body.length = 16 + n → piecesLen ps ≤ c.input.length → modelHeaderOk c.input = true →
     s.vaultSlot? (c.par 0 1) = some k → k.isFor c = true → byteAt c.input 5 ≠ 3 →
     (byteAt c.input 5 = 1 → slice c.input 24 16 = fitBytes 16 s.setId) → leAt c.input 8 4 = k.elems → byteAt c.input 7 = k.opt →
     s.openModel k c.input = some body →
     exec (.vaultLoad cid) s = .next (complete cid .ok 0 0 (s.setSlot (c.par 0 1) (some (loadedSlot k c.input body))))))
  ∧ ((∀ (s : State) (cid : Nat) (c : Cmd) (x : VaultSlot × Group × GateItem), Started s cid .vaultStep c → c.work ≠ .stepping →
       c.inl 0 1 < 8 → c.inl 1 1 ≤ 1 → nonZero? c.slate 34 2 = none → nonZero? c.slate 40 24 = none → s.stepTarget c = .inr x →
       exec (.vaultStep cid) s = .next (setWork cid .stepping s))
     ∧ (∀ (s : State) (cid : Nat) (c : Cmd) (k k' : VaultSlot) (g : Group) (it : GateItem), Started s cid .vaultStep c →
       c.work = .stepping → s.stepTarget c = .inr (k, g, it) → c.inl 0 1 < s.gate.slots.length → vaultStepped g it k = some k' →
       ∃ t, exec (.vaultStepDone cid) s = .next t ∧ t.cmd? cid = none ∧ t.vaultSlot? (c.inl 0 1) = some k'
         ∧ k'.lastTake = c.inl 4 4 ∧ k'.t = k.t + 1
         ∧ Table.get? t.gate.items (itemKey c.group (c.inl 1 1 == 1)) = some { it with elems := [], slot := none }
         ∧ (∀ i, i ≠ c.inl 0 1 → t.vaultSlot? i = s.vaultSlot? i) ∧ t.accum = s.accum ∧ t.mem.cells = s.mem.cells ∧ t.out = s.out)
     ∧ (∀ (s : State) (cid : Nat) (c : Cmd) (k : VaultSlot) (r : Region), Started s cid .vaultExport c → nonZero? c.slate 32 32 = none →
       c.body.length = 32 → c.par 0 1 < 8 → c.par 2 1 < 4 → nonZero? c.block 3 1 = none → nonZero? c.block 16 16 = none →
       s.vaultSlot? (c.par 0 1) = some k → k.isFor c = true →
       s.outRegion k.job (BitVec.ofNat 32 (c.par 4 4)) (c.par 8 8) (modelLen (c.par 1 1) (c.par 2 1) k.opt k.elems) = .inr r →
       (r.space = .host → s.shuttleOpen = true) →
       (c.par 1 1 = 1 → (s.key? .wrap).isSome = true →
         exec (.vaultExport cid) s = .next (complete cid .ok 0 0 (regionWrite r (c.par 8 8) (s.wrapToSet k (c.par 2 1))
           { loadNamed .wrap s with gate := { s.gate with wctr := s.gate.wctr + 1 } })))
       ∧ (∀ q, c.par 1 1 = 3 → s.granted cid = some q → q.left = 0 →
         exec (.vaultExport cid) s = .next (complete cid .ok 0 0
           (regionWrite r (c.par 8 8) (s.wrapToOwner k (c.par 2 1) (q.got.take 32)) s)))
       ∧ (c.par 1 1 = 3 → s.granted cid = none → s.rng.mode = .ready →
         exec (.vaultExport cid) s = .next (setWork cid .none (request 2 (.command cid) 32 65536 s)))))

/-! ## Vilmin: attestation, keys and firmware (chapter 10) -/

/-- ATTEST writes the signed statement, with the certificate where it is asked for, and CHALLENGE writes 48 bytes under the pairing
secret of a role that is installed; nothing else changes (R287 to R289).

FW_STAGE stores a signed image for this device, of no older security version, in the inactive slot; FW_ACTIVATE makes it the active
one and a warm restart falls due; WORKING_KEY_REMASK leaves the key as it was (R279, R281, R283, R284).
Completes here, with a next state as the conclusion: attest, challenge, fwStage, fwActivate, workingKeyRemask.
What the model chooses or infers here stands in log entries 92 and 118. -/
def Obligations.AttestationFirmwareAndTheWorkingKey : Prop :=
  ((∀ (s : State) (cid : Nat) (c : Cmd), Started s cid .attest c → nonZero? c.slate 32 32 = none → c.body.length = 64 →
     leAt c.block 32 8 % 64 = 0 → nonZero? c.block 44 4 = none → c.par 48 1 < 2 → nonZero? c.block 49 15 = none →
     let m := attestBody s (c.parB 0 32) (c.par 48 1)
     let whole := m ++ identitySign s m ++ (if c.par 48 1 = 1 then fitBytes 29952 s.trust.flash.cert else [])
     whole.length ≤ leAt c.block 40 4 → s.inReach (leAt c.block 32 8) (leAt c.block 40 4) = true → s.shuttleOpen = true →
     exec (.attest cid) s = .next (complete cid .ok 0 whole.length (hostWrite (leAt c.block 32 8) whole true s)))
   ∧ (∀ (s : State) (cid : Nat) (c : Cmd) (n : KeyName), Started s cid .challenge c → nonZero? c.slate 32 32 = none →
     c.body.length = 64 → c.par 0 1 = 1 ∨ c.par 0 1 = 2 → nonZero? c.block 1 7 = none → leAt c.block 40 8 % 64 = 0 →
     nonZero? c.block 52 4 = none → nonZero? c.block 56 8 = none → s.pairing? (c.par 0 1) = some n →
     48 ≤ leAt c.block 48 4 → s.inReach (leAt c.block 40 8) (leAt c.block 48 4) = true → s.shuttleOpen = true →
     let head := toLE 8 s.time.ptime.toNat ++ [BitVec.ofNat 8 s.stateCode, if s.trust.tenant.isSome then 1 else 0] ++ zeros 6
     let mac := s.mac n (ascii "LN7300-CHAL" ++ s.identityHash ++ c.parB 8 32 ++ head)
     exec (.challenge cid) s = .next (complete cid .ok 0 48 (hostWrite (leAt c.block 40 8) (head ++ mac) false (deliverMac n s)))
     ∧ (deliverMac n s).trust.store = s.trust.store ∧ (deliverMac n s).trust.tenant = s.trust.tenant))
  ∧ ((∀ (s : State) (cid n : Nat) (c : Cmd) (ps : List Piece), Started s cid .fwStage c → nonZero? c.slate 32 32 = none →
       scatterAt c.body 0 = .inr (ps, n) → piecesLen ps ≤ c.input.length → imageShape c.input = true →
       imageOrdered s.trust.fuses c.input = true →
       (s.trust.fuses.svn ≤ imageSvnOf c.input →
         exec (.fwStage cid) s = .next (if imageSigned s.trust.fuses c.input = true then
             complete cid .ok 0 (leAt c.input 8 4) { s with trust := { s.trust with flash := s.trust.flash.stage c.input } }
           else complete cid .sigInvalid 0 0 s)
         ∧ (s.trust.flash.stage c.input).activeImage = s.trust.flash.activeImage)
       ∧ (imageSvnOf c.input < s.trust.fuses.svn → ∃ t, exec (.fwStage cid) s = .next t ∧ t.trust = s.trust))
     ∧ (∀ (s : State) (cid : Nat) (c : Cmd), Started s cid .fwActivate c → nonZero? c.slate 32 32 = none → s.trust.flash.staged = true →
       s.trust.tenant = none → s.trust.handover = none → s.faults.warm = none →
       ∃ t w, exec (.fwActivate cid) s = .next t ∧ t.trust.flash = { s.trust.flash with active := !s.trust.flash.active, staged := false }
         ∧ t.faults.warm = some w ∧ t.trust.fuses = s.trust.fuses
         ∧ t.cmd? cid = some { c with phase := .committed, work := .none } ∧ t.mem = s.mem)
     ∧ (∀ s : State, s.rng.bootSeeded = true → s.trust.shareA.length = 32 → s.trust.shareB.length = 32 →
       ∃ t, exec .workingKeyRemask s = .next t ∧ t.trust.workingKey = s.trust.workingKey ∧ t.trust.shareB.length = 32
         ∧ t.trust.maskPos = s.trust.maskPos + 32 ∧ t.mem = s.mem ∧ t.out = s.out))

/-- TENANT_OPEN, with a capsule that opens under the enrolment pair, installs the tenant with its secret, policy and a standalone binding
key, consumes the pair and asks for a new one; TENANT_POLICY_SET replaces the policy; OWNER_ENROL installs the model owner (R291 to
R294).
Completes here, with a next state as the conclusion: tenantOpen, tenantPolicySet, ownerEnrol.
What the model chooses or infers here stands in log entries 93 and 118. -/
def Obligations.TenantsAndOwnersAreInstalled : Prop :=
  (∀ (s : State) (cid : Nat) (c : Cmd) (ek dk m : Bytes), Started s cid .tenantOpen c → nonZero? c.slate 32 32 = none →
    c.body.length = 1288 → c.par 0 1 = 1 → nonZero? c.block 1 7 = none → s.trust.tenant = none → s.trust.handover = none →
    s.trust.enrol = some ek → s.key? .enrolDk = some dk → c.parB 1112 32 = sha256 ek →
    gcmOpen (hkdf (kemOpen dk (c.parB 24 1088)) (sha256 (c.parB 24 1088)) (ascii "LN7300-TOPEN" ++ s.identityHash)) (zeros 12)
      (c.block.take 1144) (c.parB 1144 144) = some m →
    byteAt m 32 < 2 → nonZero? m 33 31 = none → firstBad (policyChecks m 64 (blockAt 1144)) = none →
    let t : Tenant := { id := c.parB 8 16, openHash := sha256 ek, policy := slice m 64 64, counter := 0, uctr := 0 }
    let bk := s.standaloneBk (m.take 32)
    ∃ u, exec (.tenantOpen cid) s = .next u ∧ u.cmd? cid = none ∧ u.trust.tenant = some t
      ∧ u.key? .binding = some bk ∧ u.key? .wrap = some (hkdf bk s.identityHash (ascii "LN7300-VW")) ∧ u.key? .tenantRoot = some (m.take 32)
      ∧ u.key? .cmdT = some (hkdf (m.take 32) (sha256 ek) (ascii "LN7300-CMDT"))
      ∧ u.key? .delivery = some (hkdf (m.take 32) (sha256 ek) (ascii "LN7300-DLV")) ∧ u.key? .enrolDk = none
      ∧ u.trust.kgen = 0 ∧ u.trust.set = none ∧ u.trust.enrol = none
      ∧ (u.trust.owner = if byteAt m 32 = 1 then some { ownHash := sha256 ek, counter := 0 } else none)
      ∧ (byteAt m 32 = 1 → u.key? .ownerRoot = some (m.take 32))
      ∧ (s.side.qualified.getLsbD 0 = false → s.entropyFailed = false → ∃ q ∈ u.rng.requests, q.consumer = .enrol)
      ∧ u.trust.fuses = s.trust.fuses ∧ u.accum = s.accum ∧ u.mem.cells = s.mem.cells ∧ u.out = s.out)
  ∧ (∀ (s : State) (cid : Nat) (c : Cmd), Started s cid .tenantPolicySet c → nonZero? c.slate 32 32 = none → c.body.length = 64 →
    firstBad (policyChecks c.body 0 64) = none →
    exec (.tenantPolicySet cid) s = .next (complete cid .ok 0 0 { s with trust := { s.trust with
      tenant := s.trust.tenant.map (fun x => { x with policy := c.body }) } }))
  ∧ (∀ (s : State) (cid : Nat) (c : Cmd) (t : Tenant) (ek dk mrs : Bytes), Started s cid .ownerEnrol c →
    nonZero? c.slate 32 32 = none → c.body.length = 1248 → c.par 0 1 = 1 → nonZero? c.block 1 7 = none → s.trust.tenant = some t →
    c.parB 8 32 = s.identityHash → c.parB 1216 32 = s.mac .update (c.block.take 1216) → t.uctr < c.par 40 8 → s.vaultFree = true →
    s.trust.enrol = some ek → s.key? .enrolDk = some dk → c.parB 48 32 = sha256 ek →
    gcmOpen (hkdf (kemOpen dk (c.parB 80 1088)) (sha256 (c.parB 80 1088)) (ascii "LN7300-OWNER" ++ s.identityHash)) (zeros 12)
      (c.block.take 80) (c.parB 1168 48) = some mrs →
    ∃ u, exec (.ownerEnrol cid) s = .next u ∧ u.cmd? cid = none
      ∧ u.trust.owner = some { ownHash := sha256 ek, counter := 0 } ∧ u.trust.enrol = none
      ∧ u.key? .ownerRoot = some mrs ∧ u.key? .cmdM = some (hkdf mrs (sha256 ek) (ascii "LN7300-CMDM"))
      ∧ u.key? .pairM = some (hkdf mrs (sha256 ek) (ascii "LN7300-PAIRM")) ∧ u.key? .enrolDk = none
      ∧ u.key? .binding = s.key? .binding
      ∧ u.trust.tenant = some { t with uctr := c.par 40 8 } ∧ u.trust.fuses = s.trust.fuses ∧ u.accum = s.accum
      ∧ u.mem.cells = s.mem.cells ∧ u.out = s.out)

/-- A key message whose identity hash, MAC and counter are right takes its counter, and then: KEY_UPDATE replaces a standalone binding
key or stages a job's pair, DEVSET_ENROL enters or leaves a set, KEY_STAGE stages a set key and writes its proof, and KEY_COMMIT puts the
staged key into service (R296 to R300).
Completes here, with a next state as the conclusion: keyUpdate, devsetEnrol, keyStage, keyCommit.
What the model chooses or infers here stands in log entries 93 and 118. -/
def Obligations.KeyMessagesTakeEffect : Prop :=
  (∀ (s : State) (cid : Nat) (c : Cmd) (t : Tenant) (bk : Bytes), Started s cid .keyUpdate c → c.phase = .started →
    nonZero? c.slate 32 32 = none → c.body.length = 128 → c.par 0 1 = 1 → c.par 1 1 = 1 → c.par 2 1 = 0xFF →
    nonZero? c.block 3 5 = none → c.job = 0xFF → s.trust.tenant = some t → c.parB 8 32 = s.identityHash →
    c.parB 96 32 = s.mac .update (c.block.take 96) → t.uctr < c.par 40 8 → s.trust.set = none →
    openField c { t with uctr := c.par 40 8 } "KUPD" 48 s = some bk →
    ∃ u, exec (.keyUpdate cid) s = .next u ∧ u.cmd? cid = none ∧ u.key? .binding = some bk ∧ u.key? .wrap = some (s.wrapKey bk)
      ∧ u.key? .prevBinding = s.key? .binding
      ∧ u.trust.kgen = s.trust.kgen + 1 ∧ u.trust.tenant = some { t with uctr := c.par 40 8 } ∧ u.mem.cells = s.mem.cells ∧ u.out = s.out)
  ∧ (∀ (s : State) (cid : Nat) (c : Cmd) (t : Tenant) (jb : Job), Started s cid .keyUpdate c → c.phase = .started →
    nonZero? c.slate 32 32 = none → c.body.length = 128 → c.par 0 1 = 1 → c.par 1 1 = 2 → c.par 2 1 < 16 →
    nonZero? c.block 3 5 = none → nonZero? c.block 48 48 = none → c.job = 0xFF ∨ c.job = c.par 2 1 → s.trust.tenant = some t →
    c.parB 8 32 = s.identityHash → c.parB 96 32 = s.mac .update (c.block.take 96) → t.uctr < c.par 40 8 →
    s.job? (c.par 2 1) = some jb → s.granted cid = none → s.rng.mode = .ready →
    ∃ u, exec (.keyUpdate cid) s = .next u ∧ u.cmd? cid = some { c with phase := .working, work := .none }
      ∧ u.rng.requests = s.rng.requests ++
          [{ level := 2, consumer := .command cid, size := 64, left := 64, got := [], piece := 65536, draw := none }]
      ∧ u.trust.tenant = some { t with uctr := c.par 40 8 } ∧ u.accum = s.accum ∧ u.mem = s.mem ∧ u.out = s.out)
  ∧ (∀ (s : State) (cid : Nat) (c : Cmd) (jb : Job) (q : RngRequest), Started s cid .keyUpdate c → c.phase = .working →
    s.job? (c.par 2 1) = some jb → s.granted cid = some q → q.left = 0 →
    ∃ u, exec (.keyUpdate cid) s = .next u ∧ u.cmd? cid = none
      ∧ u.job? (c.par 2 1) = some { jb with staged := some (kemPair (q.got.take 64)).1 }
      ∧ u.key? (.stagedDk (c.par 2 1)) = some (kemPair (q.got.take 64)).2
      ∧ (∀ n, n ≠ .stagedDk (c.par 2 1) → u.key? n = s.key? n)
      ∧ u.trust.tenant = s.trust.tenant ∧ u.trust.kgen = s.trust.kgen ∧ u.mem.cells = s.mem.cells ∧ u.out = s.out)
  ∧ (∀ (s : State) (cid : Nat) (c : Cmd) (t : Tenant), Started s cid .devsetEnrol c → nonZero? c.slate 32 32 = none →
    c.body.length = 176 → c.par 0 1 = 1 → c.par 2 2 < c.par 4 2 → 2 ≤ c.par 4 2 → c.par 4 2 ≤ 512 → nonZero? c.block 6 2 = none →
    c.parZero 8 16 = false → s.trust.tenant = some t → c.parB 24 32 = s.identityHash →
    c.parB 144 32 = s.mac .update (c.block.take 144) → t.uctr < c.par 56 8 → s.vaultFree = true →
    (∀ bk, c.par 1 1 = 0 → s.trust.set = none → openField c { t with uctr := c.par 56 8 } "DSET" 64 s = some bk →
      ∃ u, exec (.devsetEnrol cid) s = .next u ∧ u.cmd? cid = none ∧ u.key? .binding = some bk ∧ u.trust.kgen = 1
        ∧ u.trust.set = some { id := c.parB 8 16, member := c.par 2 2, members := c.par 4 2, hash := c.parB 112 32 }
        ∧ u.trust.staged = none ∧ u.key? .stagedSet = none ∧ u.mem.cells = s.mem.cells ∧ u.out = s.out)
    ∧ (c.par 1 1 = 1 → s.trust.set.map (·.id) = some (c.parB 8 16) → nonZero? c.block 64 48 = none →
      ∃ u, exec (.devsetEnrol cid) s = .next u ∧ u.cmd? cid = none ∧ u.trust.set = none ∧ u.trust.kgen = 0
        ∧ u.key? .binding = some (s.standaloneBk (s.using .tenantRoot)) ∧ u.mem.cells = s.mem.cells ∧ u.out = s.out))
  ∧ (∀ (s : State) (cid : Nat) (c : Cmd) (t : Tenant) (d : DeviceSet) (key : Bytes), Started s cid .keyStage c →
    nonZero? c.slate 32 32 = none → c.body.length = 160 → c.par 0 1 = 1 → nonZero? c.block 1 7 = none → leAt c.block 144 8 % 64 = 0 →
    nonZero? c.block 156 4 = none → 32 ≤ leAt c.block 152 4 → s.shuttleOpen = true → s.trust.tenant = some t →
    c.parB 24 32 = s.identityHash → c.parB 112 32 = s.mac .update (c.block.take 112) → t.uctr < c.par 56 8 → s.trust.set = some d →
    d.id = c.parB 8 16 → openField c { t with uctr := c.par 56 8 } "KSTG" 64 s = some key →
    s.inReach (leAt c.block 144 8) (leAt c.block 152 4) = true →
    ∃ u, exec (.keyStage cid) s = .next u ∧ u.cmd? cid = none ∧ u.trust.staged = some (s.trust.kgen + 1)
      ∧ u.key? .stagedSet = some key ∧ (∀ n, n ≠ .stagedSet → u.key? n = s.key? n) ∧ u.mem.cells = s.mem.cells
      ∧ u.out = s.out ++ [.hostWrite (leAt c.block 144 8) (possession key d.id d.member s.identityHash (s.trust.kgen + 1).toNat)
          (s.pcie.roBulk && s.pcie.relaxedOrdering)])
  ∧ (∀ (s : State) (cid : Nat) (c : Cmd) (t : Tenant) (d : DeviceSet) (gen : Word32), Started s cid .keyCommit c →
    nonZero? c.slate 32 32 = none → 240 ≤ c.body.length → c.body.length ≤ 32880 → (c.body.length - 112) % 64 = 0 → c.par 0 1 = 1 →
    nonZero? c.block 1 7 = none → nonZero? c.block 68 12 = none → s.trust.tenant = some t → c.parB 24 32 = s.identityHash →
    c.parB 80 32 = s.mac .update (c.block.take 80) → t.uctr < c.par 56 8 → s.trust.staged = some gen → s.trust.set = some d →
    gen.toNat = c.par 64 4 → membersMatch c d s.identityHash = true → badProof? c d (s.using .stagedSet) gen.toNat = none →
    ∃ u, exec (.keyCommit cid) s = .next u ∧ u.cmd? cid = none ∧ u.key? .binding = some (s.using .stagedSet)
      ∧ u.key? .prevBinding = s.key? .binding ∧ u.key? .stagedSet = none
      ∧ u.trust.kgen = gen ∧ u.trust.staged = none ∧ u.mem.cells = s.mem.cells ∧ u.out = s.out)

/-! ## Jobs and tenants that end (chapters 02 and 10) -/

/-- JOB_OPEN opens the sealed job secret, waits for 64 random bytes and places the job with its key pair. JOB_CLOSE takes the job's
groups, sessions, objects and vault slots away and revokes its regions; a revoking region that nothing holds is freed, and what waits for
it completes (R55, R140, R150, R295).

TENANT_HANDOVER erases the tenant: its keys, set, owner, jobs, groups, gate, vault and sessions go and every memory key is replaced,
while the fuses stay. At the settle's end the generator has reseeded, a new enrolment pair stands, and the command completes (R97, R301).
Completes here, with a next state as the conclusion: tenantHandover, handoverSettleEnd, jobOpen, jobClose, regionFreed.
What the model chooses or infers here stands in log entries 94, 95, 113 and 118. -/
def Obligations.JobsOpenCloseAndHandOver : Prop :=
  ((∀ (s : State) (cid : Nat) (c : Cmd) (jsec : Bytes), Started s cid .jobOpen c → nonZero? c.slate 32 32 = none →
     c.body.length = 96 → c.par 0 1 < 16 → c.job = 0xFF ∨ c.job = c.par 0 1 → nonZero? c.block 1 7 = none →
     firstBad (ingestChecks c) = none → nonZero? c.block 40 8 = none → s.job? (c.par 0 1) = none →
     s.closingJob (c.par 0 1) = false → s.sessionTotal + c.par 8 4 ≤ 16777216 → s.trust.tenant.isSome = true →
     gcmOpen (s.using .delivery) (ascii "JSEC" ++ toLE 8 c.counter) (c.block.take 48) (c.parB 48 48) = some jsec →
     (s.granted cid = none → s.rng.mode = .ready →
       exec (.jobOpen cid) s = .next (setWork cid .none (request 2 (.command cid) 64 65536 s)))
     ∧ (∀ q, s.granted cid = some q → q.left = 0 →
       ∃ u, exec (.jobOpen cid) s = .next u ∧ u.cmd? cid = none
         ∧ u.job? (c.par 0 1) = some (newJob c (kemPair (q.got.take 64)).1)
         ∧ u.key? (.jobDk (c.par 0 1)) = some (kemPair (q.got.take 64)).2 ∧ u.key? (.jobSecret (c.par 0 1)) = some jsec
         ∧ (∀ n : KeyName, (∀ j, n.ofJob j = true → j ≠ c.par 0 1) → u.key? n = s.key? n)
         ∧ (∀ j, j ≠ c.par 0 1 → u.job? j = s.job? j) ∧ u.accum.groups = s.accum.groups ∧ u.mem.cells = s.mem.cells ∧ u.out = s.out))
   ∧ (∀ (s : State) (cid : Nat) (c : Cmd) (jb : Job), Started s cid .jobClose c → nonZero? c.slate 32 32 = none →
     s.job? c.job = some jb → s.mayCloseJob c.job jb = true →
     let u := closeJob c.job s
     exec (.jobClose cid) s = .next (if u.regionsLeft c.job
       then forCommand cid (fun s => commit cid (.closing c.job) (closeJob c.job s)) s
       else complete cid .ok 0 0 (forCommand cid (closeJob c.job) s))
     ∧ u.job? c.job = none ∧ (∀ n : KeyName, n.ofJob c.job = true → u.key? n = none) ∧ (∀ g k, u.group? g = some k → k.job ≠ c.job)
     ∧ (∀ r ∈ u.trans.regions, r.2.job = c.job → r.2.revoking = true) ∧ (∀ e ∈ u.ingest.sessions, e.2.job ≠ c.job)
     ∧ (∀ o ∈ u.poly.objects, o.1 / 4096 ≠ c.job) ∧ u.mem.cells = s.mem.cells)
   ∧ (∀ (s : State) (i : Nat) (r : Region), Table.get? s.trans.regions i = some r → r.revoking = true → s.regionHolds i = 0 →
     ∃ t, exec (.regionFreed i) s = .next t ∧ Table.get? t.trans.regions i = none
       ∧ (∀ k, k ≠ i → Table.get? t.trans.regions k = Table.get? s.trans.regions k)
       ∧ (∀ cid c, s.cmd? cid = some c → c.work = .revoking i → t.cmd? cid = none)
       ∧ (∀ cid c j, s.cmd? cid = some c → c.work = .closing j → (∀ e ∈ s.trans.regions, e.1 ≠ i → e.2.job ≠ j) → t.cmd? cid = none)
       ∧ t.accum = s.accum ∧ t.mem.cells = s.mem.cells ∧ t.out = s.out))
  ∧ ((∀ (s : State) (cid : Nat) (c : Cmd), Started s cid .tenantHandover c → nonZero? c.slate 32 32 = none → c.auth = false →
       s.trust.handover = none →
       ∃ t d, exec (.tenantHandover cid) s = .next t ∧ t.cmd? cid = some d ∧ d.phase = .committed
         ∧ t.trust.tenant = none ∧ t.trust.owner = none ∧ (∀ n : KeyName, n ≠ .enrolDk → t.key? n = none) ∧ t.trust.macKey = []
         ∧ t.trust.set = none ∧ t.trust.staged = none ∧ (s.rng.mode = .ready → t.rng.reseedDue = true)
         ∧ t.power.settleW = settleLoad
         ∧ t.trust.kgen = 0 ∧ t.trust.handover = some { cid := cid, settleStart := s.ms } ∧ t.trust.hcount = s.trust.hcount + 1
         ∧ t.trust.fuses = s.trust.fuses ∧ t.accum.jobs = [] ∧ t.accum.groups = [] ∧ t.masks.ledgers = [] ∧ t.gate.items = []
         ∧ t.gate.polyItems = [] ∧ t.gate.policies = [] ∧ (∀ k ∈ t.gate.slots, k = none) ∧ t.ingest.msgs = [] ∧ t.ingest.sessions = []
         ∧ t.trans.conns = [] ∧ t.mem.cells = [] ∧ t.mem.allocs = [] ∧ t.mem.rotations = s.mem.rotations + 1)
     ∧ (∀ (s : State) (a b : Bytes) (h : Handover), s.trust.handover = some h →
       (∀ r, r ≠ s.power.converged ∨ h.mayEnd s.power.converged s.ms = false → exec (.handoverSettleEnd r a b) s = .next s)
       ∧ (h.mayEnd s.power.converged s.ms = true →
         ∃ t, exec (.handoverSettleEnd s.power.converged a b) s = .next t ∧ t.trust.handover = none ∧ t.cmd? h.cid = none
           ∧ t.trust.handovers = satAdd s.trust.handovers 1 ∧ t.trust.fuses = s.trust.fuses ∧ t.power.settleW = 0
           ∧ (s.rng.mode = .ready → s.rng.reseedDue = true → freshFails a b = none → s.rng.requests = [] →
               s.side.qualified.getLsbD 0 = false →
               let d := drbgReseed s.rng.drbg (sha256 a ++ sha256 b)
               t.trust.enrol = some (kemPair (drbgOutput d 64)).1 ∧ t.key? .enrolDk = some (kemPair (drbgOutput d 64)).2
               ∧ t.rng.drbg = drbgNext d 64)
           ∧ t.mem.cells = s.mem.cells ∧ t.accum.groups = s.accum.groups)))

/-! ## The generator (chapter 11) -/

/-- A start-up test that passes makes the generator READY, and the first after power gives BOOT_ID; one that fails leaves it UNSEEDED and
runs again after 10 ms. A health failure zeroizes the DRBG and ends every waiting request; a retest follows by timer or by RETEST, and its
end decides (R278, R312, R315 to R317).

A reseed takes two conditioning blocks, on demand or when due. DRBG_GENERATE serves the earliest waiting request of the lowest level,
once. GET_RANDOM writes its bytes, sealed where it carries a trailer (R309, R314, R318, R320, R321).
Completes here, with a next state as the conclusion: getRandom, rngStartupTestDone, rngStartupRepeat, healthTestFail, rngRetestTimer,
rngRetest, rngRetestDone, rngReseed, drbgReseedDue, drbgGenerate.
What the model chooses or infers here stands in log entries 6 and 12. -/
def Obligations.TheGeneratorIsTestedAndServes : Prop :=
  ((∀ (s : State) (samples : List Bytes) (kat : Bool), s.rng.mode = .unseeded → s.rng.testing = true → s.side.step ≠ 5 →
     (failing samples = 0 → kat = true →
       ∃ t, exec (.rngStartupTestDone samples kat) s = .next t ∧ t.rng.mode = .ready ∧ t.rng.drbg = s.instantiate samples
         ∧ t.rng.bootSeeded = true ∧ t.rng.katFail = false
         ∧ t.trust.bootId = (if s.rng.bootSeeded then s.trust.bootId else some ((block samples 0).take 16))
         ∧ t.trust.fuses = s.trust.fuses ∧ t.accum = s.accum ∧ t.mem.cells = s.mem.cells ∧ t.out = s.out)
     ∧ (failing samples ≠ 0 ∨ kat = false →
       ∃ t, exec (.rngStartupTestDone samples kat) s = .next t ∧ t.rng.mode = .unseeded ∧ t.rng.testing = false
         ∧ t.rng.srcFail = failing samples ∧ t.rng.katFail = !kat ∧ t.rng.failures = satAdd s.rng.failures 1
         ∧ t.trust = s.trust ∧ t.mem = s.mem ∧ exec .rngStartupRepeat t = .next { t with rng := { t.rng with testing := true } }))
   ∧ (∀ (s : State) (source : Nat) (adaptive : Bool), s.rng.mode = .ready →
     ∃ t, exec (.healthTestFail source adaptive) s = .next t ∧ t.rng.mode = .failed ∧ t.rng.drbg = zeros 48
       ∧ t.rng.srcFail = 1#8 <<< source ∧ t.rng.retriesLeft = 3 ∧ t.rng.failures = satAdd s.rng.failures 1
       ∧ (∀ q cid, q ∈ s.rng.requests → q.left ≠ 0 → q.consumer.cid? = some cid → t.cmd? cid = none)
       ∧ (∀ q ∈ t.rng.requests, q.left = 0)
       ∧ t.trust = s.trust ∧ t.accum = s.accum ∧ t.mem.cells = s.mem.cells ∧ t.out = s.out)
   ∧ (∀ s : State, s.rng.mode = .failed →
     (s.rng.retriesLeft ≠ 0 → exec .rngRetestTimer s = .next { s with rng := { s.rng with mode := .retesting } })
     ∧ (RegistersOpen s → exec .rngRetest s = .next { s with rng := { s.rng with mode := .retesting, retest := true } }))
   ∧ (∀ (s : State) (samples : List Bytes) (kat : Bool), s.rng.mode = .retesting →
     (failing samples = 0 → kat = true →
       ∃ t, exec (.rngRetestDone samples kat) s = .next t ∧ t.rng.mode = .ready ∧ t.rng.drbg = s.instantiate samples
         ∧ t.rng.retest = false ∧ t.trust = s.trust ∧ t.mem = s.mem ∧ t.out = s.out)
     ∧ (failing samples ≠ 0 ∨ kat = false →
       ∃ t, exec (.rngRetestDone samples kat) s = .next t ∧ t.rng.mode = .failed ∧ t.rng.srcFail = failing samples
         ∧ t.rng.retriesLeft = (if s.rng.retest then s.rng.retriesLeft else s.rng.retriesLeft - 1)
         ∧ t.rng.failures = satAdd s.rng.failures 1 ∧ t.trust = s.trust ∧ t.mem = s.mem ∧ t.out = s.out)))
  ∧ ((∀ (s : State) (a b : Bytes), s.rng.mode = .ready →
       (RegistersOpen s → exec (.rngReseed a b) s = .next (reseedOp a b s))
       ∧ (s.reseedDue = true → exec (.drbgReseedDue a b) s = .next (reseedOp a b s))
       ∧ (freshFails a b = none → (reseedOp a b s).rng.drbg = drbgReseed s.rng.drbg (sha256 a ++ sha256 b)
         ∧ (reseedOp a b s).rng.served = 0 ∧ (reseedOp a b s).rng.requests = s.rng.requests)
       ∧ (∀ k, freshFails a b = some k → (reseedOp a b s).rng.mode = .failed ∧ (reseedOp a b s).rng.drbg = zeros 48))
     ∧ (∀ (s : State) (q : RngRequest), s.rng.mode = .ready → s.reseedDue = false → s.rng.nextRequest = some q →
       let n := min q.left q.piece
       let got := q.got ++ drbgOutput s.rng.drbg n
       q ∈ s.rng.requests ∧ q.left ≠ 0 ∧ (∀ p ∈ s.rng.requests, p.left ≠ 0 → q.level ≤ p.level)
       ∧ ∃ t, exec .drbgGenerate s = .next t ∧ t.rng.served = s.rng.served + 1
         ∧ t.rng.drbg = drbgNext s.rng.drbg n
         ∧ (∀ cid, q.consumer = .command cid →
             t.granted cid = some { q with left := if q.left ≤ n then q.lacks got else q.left - n, got := got })
         ∧ (∀ i, q.consumer = .pool i → q.left ≤ q.piece → q.lacks got = 0 → i < s.rng.pools.length →
             unit t.rng.pools i = unit s.rng.pools i ++ chunks 16 256 got)
         ∧ (q.consumer = .enrol → q.left ≤ q.piece → s.side.qualified.getLsbD 0 = false → q.lacks got = 0 →
             t.trust.enrol = some (kemPair got).1 ∧ t.key? .enrolDk = some (kemPair got).2)
         ∧ t.cmds = s.cmds ∧ t.accum = s.accum ∧ t.mem = s.mem ∧ t.out = s.out)
     ∧ (∀ (s : State) (cid : Nat) (c : Cmd), Started s cid .getRandom c → c.inl 0 8 % 64 = 0 → nonZero? c.slate 44 4 = none →
       1 ≤ c.inl 16 4 → c.inl 16 4 ≤ 65536 → nonZero? c.slate 52 12 = none →
       let total := if c.auth then c.inl 16 4 + 16 else c.inl 16 4
       total ≤ c.inl 8 4 →
       (s.granted cid = none → s.rng.mode = .ready →
         exec (.getRandom cid) s = .next (setWork cid .none (request 4 (.command cid) (c.inl 16 4) 65536 s)))
       ∧ (∀ q data, s.granted cid = some q → q.left = 0 → s.inReach (c.inl 0 8) (c.inl 8 4) = true → s.shuttleOpen = true →
         data = (if c.auth then sealForTenant s "RAND" c (q.got.take (c.inl 16 4)) else q.got.take (c.inl 16 4)) →
         data.length ≤ c.inl 8 4 →
         exec (.getRandom cid) s = .next (complete cid .ok 0 total (hostWrite (c.inl 0 8) data true s)))))

/-! ## Powered time, power and heat (chapters 01 and 12) -/

/-- From step 1 of power-up a microsecond advances PTIME and every mirror to the same value; before it nothing counts. A trim needs
the reference; losing it and finding it again change nothing else (R21 to R23).
Completes here, with a next state as the conclusion: oscTrim, ptimeMirrorUpdate, referenceLost, referencePresent.
What the model chooses or infers here stands in log entry 11. -/
def Obligations.PoweredTimeAdvances : Prop :=
  ∀ s : State,
    (s.side.step ≠ 0 → ∃ t, exec .ptimeMirrorUpdate s = .next t ∧ t.time.ptime = s.time.ptime + 1000
      ∧ (∀ m ∈ t.time.mirrors, m = t.time.ptime) ∧ t.time.mirrors.length = s.time.mirrors.length ∧ t.time.shadow = s.time.shadow
      ∧ t = { s with time := t.time })
    ∧ (s.side.step = 0 → exec .ptimeMirrorUpdate s = .next s)
    ∧ (s.time.refPresent = true → s.side.step ≠ 0 →
        exec .oscTrim s = .next { s with time := { s.time with trimmed := true, trims := s.time.trims + 1 } })
    ∧ (s.time.refPresent = false → exec .oscTrim s = .next s)
    ∧ exec .referenceLost s = .next { s with time := { s.time with refPresent := false } }
    ∧ exec .referencePresent s = .next { s with time := { s.time with refPresent := true } }

/-- A budget window without a trip records its readings and energy and carries the debt on; a hot field steps down by 25 mV to no less
than 550 mV, a field below 25 °C takes 750 mV, and the stacks' refresh follows their sensors. A field at 105 °C or a bobbin at 100 °C
trips: all powered state is lost, and only fuses and flash remain (R329 to R331, R335, R336, R350).
Completes here, with a next state as the conclusion: budgetWindow.
What the model chooses or infers here stands in log entries 12 and 30. -/
def Obligations.TheBudgetWindowReadsAndSteps : Prop :=
  ∀ (s : State) (w : WindowReading), s.power.railsOn = true → 3 ≤ s.side.step.toNat → s.power.fields.length = 4 →
    ((∀ f < 4, unit w.fieldTemps f < 420) → (∀ b < 8, unit w.bobbinTemps b < 400) →
      ∃ t, exec (.budgetWindow w) s = .next t ∧ t.power.energyUj = s.power.energyUj + w.inputUj
        ∧ t.power.inputW = w.inputUj / 1000 ∧ t.power.windows = s.power.windows + 1 ∧ t.power.cap = s.effectiveCap
        ∧ t.power.debtUj = (if s.power.measured = true ∧ s.trust.handover = none
            then s.power.debtUj + w.inputUj - s.power.cap * 1000 else s.power.debtUj)
        ∧ (∀ f < 4, (unit t.power.fields f).temp = unit w.fieldTemps f
            ∧ (s.trust.handover = none → unit w.fieldTemps f < 100 → (unit t.power.fields f).mv = 750)
            ∧ (s.trust.handover = none → s.faults.outOfService = false → 400 ≤ unit w.fieldTemps f →
                (unit t.power.fields f).mv = max 550 ((unit s.power.fields f).mv - 25)))
        ∧ (∀ b, b < s.mem.bobbins.length → b < 8 →
            (t.stack b).hotRefresh = ((s.stack b).inService && decide (unit w.bobbinTemps b > 340)))
        ∧ t.mem.cells = s.mem.cells ∧ t.cmds = s.cmds ∧ t.rings = s.rings ∧ t.accum = s.accum ∧ t.trust = s.trust ∧ t.time = s.time)
    ∧ ((∃ f < 4, 420 ≤ unit w.fieldTemps f) ∨ (∃ b < 8, 400 ≤ unit w.bobbinTemps b) →
      ∃ t, exec (.budgetWindow w) s = .next t ∧ t.power.tripped = true ∧ t.side.tripDriven = true ∧ t.power.railsOn = false
        ∧ t.side.step = 0 ∧ t.cmds = [] ∧ t.accum.groups = [] ∧ t.mem.cells = [] ∧ t.trust.fuses = s.trust.fuses
        ∧ t.trust.flash = s.trust.flash ∧ t.pending = s.pending)

/-- K moves by at most 2 % and stays within 0.8 to 1.25 (in 1/1024). The recomputed V_B is the candidate with the largest R, and 550 mV
with no filling take; before DEVICE_READY R and POOL are 0. SET_BUDGET sets the caps it names, and a fall of C starts the fall that
R339 gives (R334, R337 to R341).

An input excursion and HOT_IN hold the effective cap at no more than 250 W and set what they drive; their ends release it. An input
out of range, its removal and THERM_TRIP_N from outside lose all powered state (R325, R330, R341, R342, R429).
Completes here, with a next state as the conclusion: inputExcursion, inputBackInRange, inputOutOfRange, inputRemoved, hotInNAssert,
hotInNRelease, thermTripNExternal, setBudget, kCalibration, baseVoltageRecompute.
What the model chooses or infers here stands in log entries 30, 40 and 56. -/
def Obligations.BudgetsFollowCapsAndInputs : Prop :=
  ((∀ s : State, s.power.railsOn = true →
     ∃ t, exec .kCalibration s = .next t ∧ t = { s with power := { s.power with k := t.power.k, measuredUj := 0, modelledUj := 0 } }
       ∧ 820 ≤ t.power.k.toNat ∧ t.power.k.toNat ≤ 1280
       ∧ (820 ≤ s.power.k.toNat → s.power.k.toNat ≤ 1280 →
           t.power.k.toNat ≤ s.power.k.toNat + s.power.k.toNat * 2 / 100
           ∧ s.power.k.toNat - s.power.k.toNat * 2 / 100 ≤ t.power.k.toNat))
   ∧ (∀ s : State, s.power.railsOn = true →
     exec .baseVoltageRecompute s = .next (creditMoved (recomputeBase s))
     ∧ (recomputeBase s).ingest.pool.toNat = (recomputeBase s).power.rate.toNat * 900 / 4096
     ∧ (s.fillingJobs = [] → (recomputeBase s).power.vBase = 550)
     ∧ (s.fillingJobs ≠ [] → ∀ v ∈ s.baseCandidates,
         s.rateAt s.effectiveCap v ≤ s.rateAt s.effectiveCap (recomputeBase s).power.vBase.toNat)
     ∧ (s.side.step ≠ 11 → (recomputeBase s).power.rate = 0 ∧ (recomputeBase s).ingest.pool = 0))
   ∧ (∀ (s : State) (cid : Nat) (c : Cmd), Started s cid .setBudget c → c.inl 0 2 = 0 ∨ 250 ≤ c.inl 0 2 ∧ c.inl 0 2 ≤ 750 →
     c.inl 2 2 = 0 ∨ 600 ≤ c.inl 2 2 ∧ c.inl 2 2 ≤ 900 ∧ c.inl 2 2 % 25 = 0 → nonZero? c.slate 36 28 = none →
     ∃ t, exec (.setBudget cid) s =
         .next (complete cid .ok 0 (t.effectiveCap + 65536 * t.power.vMax.toNat + 2 ^ 32 * t.power.rate.toNat) t)
       ∧ t.power.hostCap = (if c.inl 0 2 = 0 then s.power.hostCap else BitVec.ofNat 10 (c.inl 0 2))
       ∧ t.power.vMax = (if c.inl 2 2 = 0 then s.power.vMax else BitVec.ofNat 10 (c.inl 2 2))
       ∧ (t.effectiveCap < s.effectiveCap → t.power.capCause = 3 ∧ 2 ≤ t.power.fall)
       ∧ (s.effectiveCap ≤ t.effectiveCap → t.power.fall = s.power.fall)
       ∧ t.power.sideCap = s.power.sideCap ∧ t.power.fields = s.power.fields ∧ t.cmds = s.cmds ∧ t.rings = s.rings
       ∧ t.accum = s.accum ∧ t.mem = s.mem ∧ t.trust = s.trust ∧ t.out = s.out))
  ∧ ((∀ (s : State) (mv10 : Nat), s.power.railsOn = true → s.power.inputLimit = false →
       ∃ t, exec (.inputExcursion mv10) s = .next t ∧ t.power.inputLimit = true ∧ t.effectiveCap ≤ 250 ∧ t.side.smbAlert = true
         ∧ t.cmds = s.cmds ∧ t.rings = s.rings ∧ t.accum = s.accum ∧ t.mem = s.mem ∧ t.trust = s.trust)
     ∧ (∀ (s : State) (mv10 : Nat), s.power.inputLimit = true →
       ∃ t, exec (.inputBackInRange mv10) s = .next t ∧ t.power.inputLimit = false
         ∧ t.side.smbAlert = (s.power.fields.any (·.warn) || s.power.bobbinWarn != 0)
         ∧ t.cmds = s.cmds ∧ t.rings = s.rings ∧ t.accum = s.accum ∧ t.mem = s.mem ∧ t.trust = s.trust)
     ∧ (∀ s : State, s.mayQualify 1 true = true →
       ∃ t, exec .hotInNAssert s = .next t ∧ t.power.hotIn = true ∧ t.effectiveCap ≤ 250 ∧ t.side.qualified = s.side.qualified ||| 2
         ∧ t.cmds = s.cmds ∧ t.rings = s.rings ∧ t.accum = s.accum ∧ t.mem = s.mem ∧ t.trust = s.trust)
     ∧ (∀ s : State, s.mayQualify 1 false = true →
       ∃ t, exec .hotInNRelease s = .next t ∧ t.power.hotIn = false ∧ t.side.qualified = s.side.qualified &&& ~~~2
         ∧ t.cmds = s.cmds ∧ t.rings = s.rings ∧ t.accum = s.accum ∧ t.mem = s.mem ∧ t.trust = s.trust)
     ∧ (∀ s : State, (s.power.tripped = false → exec .inputOutOfRange s = .next (losePower s))
       ∧ exec .inputRemoved s = .next (losePower s)
       ∧ (losePower s).power.railsOn = false ∧ (losePower s).side.step = 0 ∧ (losePower s).cmds = [] ∧ (losePower s).accum.groups = []
       ∧ (losePower s).mem.cells = [] ∧ (losePower s).trust.fuses = s.trust.fuses ∧ (losePower s).trust.flash = s.trust.flash
       ∧ (losePower s).side.slotPins = s.side.slotPins ∧ (losePower s).pending = s.pending)
     ∧ (∀ s : State, s.mayQualify 2 true = true →
       ∃ t, exec .thermTripNExternal s = .next t ∧ t.power.tripped = true ∧ t.side.tripDriven = true ∧ t.power.railsOn = false
         ∧ t.cmds = [] ∧ t.mem.cells = [] ∧ t.trust.fuses = s.trust.fuses ∧ t.trust.flash = s.trust.flash ∧ t.pending = s.pending))

/-! ## Bobbin memory (chapter 13) -/

/-- The end of a copy puts the spare into the retired channel's slot; the end of a reshape takes the slot out of the map. Both end the
move, and the next waiting retirement follows (R353).

A pass of scrub that finds nothing takes over the configured periods. A corrected line is counted for its stack with its channel
and symbols, and keeps its contents; an uncorrectable unprotected line is counted and marked as poisoned. An SRAM correction is counted
with its core and bank. A refresh changes no contents. SCRUB_CONFIGURE sets a period for the next pass (R350, R357 to R359).
Completes here, with a next state as the conclusion: scrubConfigure, memoryRefresh, scrubPass, spareCopyDone, reshapeDone.
What the model chooses or infers here stands in log entries 85, 86 and 87. -/
def Obligations.StacksMoveAndScrub : Prop :=
  (∀ (s : State) (b slot : Nat), b < s.mem.bobbins.length →
     (∀ target rows, (s.stack b).move = some (.copy slot target rows) →
       ∃ u, exec (.spareCopyDone b) s = .next (creditMoved (recomputeBase (nextRetirement b u)))
         ∧ (u.stack b).map = (s.stack b).map.set slot target ∧ (u.stack b).move = none ∧ (u.stack b).spares = (s.stack b).spares
         ∧ (u.stack b).waiting = (s.stack b).waiting ∧ ((s.stack b).waiting = [] → nextRetirement b u = u)
         ∧ (∀ x, x ≠ b → u.stack x = s.stack x) ∧ u.mem.cells = s.mem.cells ∧ u.mem.allocs = s.mem.allocs ∧ u = { s with mem := u.mem })
     ∧ (∀ pointer, (s.stack b).move = some (.reshape slot pointer) →
       ∃ u, exec (.reshapeDone b) s = .next (creditMoved (recomputeBase (nextRetirement b u)))
         ∧ (u.stack b).map = (s.stack b).map.eraseIdx slot ∧ (u.stack b).move = none ∧ (u.stack b).waiting = (s.stack b).waiting
         ∧ ((s.stack b).waiting = [] → nextRetirement b u = u) ∧ (∀ x, x ≠ b → u.stack x = s.stack x)
         ∧ u.mem.cells = s.mem.cells ∧ u.mem.allocs = s.mem.allocs ∧ u = { s with mem := u.mem }))
  ∧ ((∀ (s : State) (late : List Nat), ∃ t, exec (.scrubPass { lines := [], rows := [], late := late }) s = .next t
         ∧ t.mem.bobbinHours = s.mem.nextBobbinHours ∧ t.mem.sramSeconds = s.mem.nextSramSeconds
         ∧ (∀ b, b ∉ late → t.stack b = s.stack b) ∧ t.mem.cells = s.mem.cells ∧ t.mem.poison = s.mem.poison
         ∧ t = { s with mem := t.mem })
     ∧ (∀ (s : State) (l : LineErrors) (fix : List (Nat × Nat)), s.presentMem (l.addr / 64 * 64) 64 = true →
       s.mem.poison.contains (lineOf (l.addr / 64 * 64)) = false → protectedAddr (l.addr / 64 * 64) = false →
       (stackOf (l.addr / 64 * 64)).1 < s.mem.bobbins.length →
       let b := (stackOf (l.addr / 64 * 64)).1
       (lineCode.decode (lineCode.real l.errors) = .uncorrectable →
         ∃ t, exec (.scrubPass { lines := [l], rows := [], late := [] }) s = .next t
           ∧ t.mem.poison = s.mem.poison ++ [lineOf (l.addr / 64 * 64)]
           ∧ (t.stack b).uncorrectable = satAdd (s.stack b).uncorrectable 1 ∧ (t.stack b).map = (s.stack b).map
           ∧ t.mem.cells = s.mem.cells ∧ t.accum = s.accum ∧ t.cmds = s.cmds ∧ t.trust = s.trust)
       ∧ (lineCode.decode (lineCode.real l.errors) = .corrected fix → residue (lineCode.real l.errors) fix = [] →
         (s.stack b).repeated = [] → (s.stack b).scrubbed.contains (lineOf (l.addr / 64 * 64)) = false → (s.stack b).recent.length < 4096 →
         ∃ t, exec (.scrubPass { lines := [l], rows := [], late := [] }) s = .next t
           ∧ (t.stack b).corrected = satAdd (s.stack b).corrected 1 ∧ (t.stack b).lastSymbols = BitVec.ofNat 3 fix.length
           ∧ (t.stack b).lastChannel = BitVec.ofNat 6 ((s.stack b).channelOf (stackOf (l.addr / 64 * 64)).2)
           ∧ (t.stack b).uncorrectable = (s.stack b).uncorrectable ∧ (t.stack b).map = (s.stack b).map
           ∧ t.mem.poison = s.mem.poison ∧ t.mem.cells = s.mem.cells ∧ t.accum = s.accum ∧ t.cmds = s.cmds ∧ t.trust = s.trust))
     ∧ (∀ (s : State) (r : RowErrors) (fix : List (Nat × Nat)), r.core < 36 → r.bank < 48 → (s.core r.core).role ≠ .off →
       rowCode.decode (rowCode.real r.errors) = .corrected fix → s.mem.rowsRepeated = [] →
       s.mem.rowsScrubbed.contains (r.core, r.bank, r.row) = false →
       ∃ t, exec (.scrubPass { lines := [], rows := [r], late := [] }) s = .next t
         ∧ t.mem.sramCorrected = satAdd s.mem.sramCorrected 1 ∧ t.mem.sramLastCore = BitVec.ofNat 6 r.core
         ∧ t.mem.sramLastBank = BitVec.ofNat 6 r.bank ∧ t.mem.sramUncorrectable = s.mem.sramUncorrectable
         ∧ t.mem.cells = s.mem.cells ∧ t.faults = s.faults ∧ t.accum = s.accum ∧ t.cmds = s.cmds)
     ∧ (∀ s : State, ∃ t, exec .memoryRefresh s = .next t
         ∧ (∀ b, b < 8 → b < s.mem.bobbins.length → t.stack b =
             { s.stack b with hotRefresh := (s.stack b).inService && decide (unit s.power.bobbinTemps b > 340) })
         ∧ t.mem.cells = s.mem.cells ∧ t.mem.allocs = s.mem.allocs ∧ t = { s with mem := t.mem })
     ∧ (∀ (s : State) (cid : Nat) (c : Cmd), Started s cid .scrubConfigure c → nonZero? c.slate 33 3 = none → nonZero? c.slate 40 24 = none →
       (c.inl 0 1 = 0 → 1 ≤ c.inl 4 4 → c.inl 4 4 ≤ 168 → exec (.scrubConfigure cid) s =
         .next (complete cid .ok 0 0 { s with mem := { s.mem with nextBobbinHours := BitVec.ofNat 16 (c.inl 4 4) } }))
       ∧ (c.inl 0 1 = 1 → 1 ≤ c.inl 4 4 → c.inl 4 4 ≤ 1000 → exec (.scrubConfigure cid) s =
         .next (complete cid .ok 0 0 { s with mem := { s.mem with nextSramSeconds := BitVec.ofNat 16 (c.inl 4 4) } }))))

/-- STAGING_MAP maps or unmaps one entry of the window. A read through an unmapped entry gives zeros and a miss, one of a poisoned
line poisoned zeros, and any other the bytes of memory. A write through an unmapped entry is discarded with a miss, a poisoned one
without; any other changes only the bytes it covers, and reads back, unless it covers part of a poisoned line (R359, R360, R376).
Completes here, with a next state as the conclusion: stagingAccess, stagingMap.
What the model chooses or infers here stands in log entries 4 and 86. -/
def Obligations.TheStagingWindowReachesMemory : Prop :=
  (∀ (s : State) (cid : Nat) (c : Cmd), Started s cid .stagingMap c → c.inl 0 1 < 8 → c.inl 1 1 ≤ 1 → nonZero? c.slate 34 6 = none →
    c.inl 8 8 % stagingBytes = 0 → s.unprotected (c.inl 8 8) stagingBytes = true → nonZero? c.slate 48 16 = none →
    let entry := if c.inl 1 1 = 1 then some (c.inl 8 8 / stagingBytes) else none
    exec (.stagingMap cid) s = .next (complete cid .ok 0 0 { s with mem := { s.mem with staging := s.mem.staging.set (c.inl 0 1) entry } }))
  ∧ (∀ (s : State) (off n : Nat) (data : Bytes), s.barOpen = true →
    (exec (.stagingAccess off (.store data true)) s = .next s)
    ∧ (s.mem.staging.getD (off / stagingBytes) none = none →
      exec (.stagingAccess off (.load n)) s = .next
          { s with mem := { s.mem with stagingMiss := satAdd s.mem.stagingMiss 1 }, out := s.out ++ [.stagingData (zeros n) false] }
      ∧ exec (.stagingAccess off (.store data false)) s =
          .next { s with mem := { s.mem with stagingMiss := satAdd s.mem.stagingMiss 1 } })
    ∧ (∀ e, s.mem.staging.getD (off / stagingBytes) none = some e →
      let a := e * stagingBytes + off % stagingBytes
      (s.unprotected a n = true → poisoned s.mem a n = true →
        exec (.stagingAccess off (.load n)) s = .next { s with out := s.out ++ [.stagingData (zeros n) true] })
      ∧ (s.unprotected a n = true → poisoned s.mem a n = false →
        exec (.stagingAccess off (.load n)) s = .next { s with out := s.out ++ [.stagingData (memReads s.mem a n) false] })
      ∧ (s.unprotected a n = false → ∃ bytes, bytes.length = n
          ∧ exec (.stagingAccess off (.load n)) s = .next { s with draws := s.draws + n, out := s.out ++ [.stagingData bytes false] })
      ∧ (s.unprotected a data.length = false → exec (.stagingAccess off (.store data false)) s = .next s)
      ∧ (s.unprotected a data.length = true → ∃ t, exec (.stagingAccess off (.store data false)) s = .next t ∧ t = { s with mem := t.mem }
          ∧ (∀ x, x < a ∨ a + data.length ≤ x → memRead t.mem x = memRead s.mem x)
          ∧ (poisoned s.mem a data.length = false → memReads t.mem a data.length = data ∧ t.mem.poison = s.mem.poison))))

/-! ## PCI Express and the registers (chapters 05, 14 and 17) -/

/-- Configuration requests retry until configuration is ready; then reads return what the spec fixes and writes take effect: a BAR
keeps the bits above its size. A power state change opens and closes the shuttle, and a retrain brings the link up (R365 to R369, R373).

Unmasking sends the pending message of a vector and clears its pending bit. A BAR access of a wrong size or alignment changes
nothing but the counts of R370, and reads zero.
Completes here, with a next state as the conclusion: configRequest, powerStateChange, pcieLinkRetrain, barBadAccess, msixVectorUnmask.
What the model chooses or infers here stands in log entries 7, 41 and 96. -/
def Obligations.ConfigurationVectorsAndBadAccesses : Prop :=
  ((∀ (s : State) (a : ConfigAccess), s.pcie.ready = false →
     exec (.configRequest a) s = .next { s with out := s.out ++ [.configRetry] })
   ∧ (∀ (s : State) (off : Nat) (v : Word32), s.pcie.ready = true →
     exec (.configRequest (.load off)) s = .next { s with out := s.out ++ [.configData (s.configDword (off / 4 * 4))] }
     ∧ s.configDword 0 &&& 0xFFFF = 0x1F63
     ∧ (∃ t, exec (.configRequest (.store 0x10 0xFFFFFFFF v)) s = .next t ∧ t.out = s.out ++ [.configDone]
         ∧ (0 < s.pcie.bars.length → t.configDword 0x10 = (v &&& 0xFC000000) ||| 4) ∧ t.configDword 0x18 = s.configDword 0x18
         ∧ t.mem = s.mem ∧ t.rings = s.rings ∧ t.trust = s.trust)
     ∧ (∃ t, exec (.configRequest (.store 0x04 0xFFFFFFFF v)) s = .next t ∧ t.pcie.memSpace = v.getLsbD 1
         ∧ t.pcie.busMaster = v.getLsbD 2 ∧ t.pcie.bars = s.pcie.bars ∧ t.mem = s.mem ∧ t.rings = s.rings ∧ t.trust = s.trust)
     ∧ (∃ t, exec (.configRequest (.store 0xA0 0xFFFFFFFF v)) s = .next t ∧ t.pcie.functionMask = v.getLsbD 30
         ∧ t.pcie.msixEnable = v.getLsbD 31 ∧ t.pcie.bars = s.pcie.bars ∧ t.mem = s.mem ∧ t.rings = s.rings))
   ∧ (∀ (s : State) (bus mem d3 : Bool), s.pcie.ready = true →
     ∃ t, exec (.powerStateChange bus mem d3) s = .next t ∧ t.pcie.busMaster = bus ∧ t.pcie.memSpace = mem ∧ t.pcie.d3hot = d3
       ∧ (bus = true → d3 = false → s.side.inWarmReset = false → t.pcie.writes = [] ∧ t.pcie.asks = []
           ∧ t.pcie.reads = s.pcie.reads ++ s.pcie.asks)
       ∧ (bus = false ∨ d3 = true → t.pcie.writes = s.pcie.writes ∧ t.pcie.asks = s.pcie.asks ∧ t.out = s.out)
       ∧ t.rings = s.rings ∧ t.cmds = s.cmds ∧ t.mem = s.mem ∧ t.trust = s.trust)
   ∧ (∀ (s : State) (speed : BitVec 3) (width : BitVec 5), s.side.inWarmReset = false → 1 ≤ speed.toNat → speed.toNat ≤ 5 →
     width = 8 ∨ width = 16 →
     exec (.pcieLinkRetrain speed width) s =
       .next { s with pcie := { s.pcie with linkUp := true, speed := speed, width := width } }))
  ∧ ((∀ (s : State) (v : Nat), s.msixDue v = true → s.shuttleOpen = true →
       ∃ t, exec (.msixVectorUnmask v) s = .next t
         ∧ t.out = s.out ++ [.msix v (unit s.pcie.table v).addr (unit s.pcie.table v).data] ∧ t.pcie.pba = s.pcie.pba &&& ~~~(1#256 <<< v)
         ∧ t.pcie.table = s.pcie.table ∧ t = { s with pcie := t.pcie, out := t.out, draws := t.draws })
     ∧ (∀ (s : State) (v : Nat), s.msixDue v = false → exec (.msixVectorUnmask v) s = .next s)
     ∧ (∀ (s : State) (bar2 : Bool) (offset : BitVec 26), s.barOpen = true →
       let counted := { s with pcie := { s.pcie with err := s.pcie.err ||| 0x40, barErrCount := satAdd s.pcie.barErrCount 1, barErrOffset := offset, barErrBar2 := bar2 } }
       exec (.barBadAccess bar2 offset true) s = .next counted
       ∧ exec (.barBadAccess bar2 offset false) s = .next { counted with out := s.out ++ [.readData 0] }))

/-- A write of a register: a wrong size or alignment and a poisoned write have no effect, a doorbell is the ring's doorbell,
a base is written only while its ring is DISABLED, errors clear by ones, and pages without a writable register never change (R8, R63 to
R67, R370, R371, R376).

DEBUG_READ writes the lines of a range to the host, zeros for protected ones and for poisoned ones, which change nothing else but
DENIED and its event; of BAR0 it writes what the registers hold, and clears nothing (R371, R422, R423).
Completes here, with a next state as the conclusion: registerWrite, debugRead.
What the model chooses or infers here stands in log entries 47 and 97. -/
def Obligations.RegistersAreWrittenAndDebugReadsDeny : Prop :=
  ((∀ (s : State) (bar2 wide poisoned : Bool) (offset : Nat) (v : Word64), s.barOpen = true → writeAllowed bar2 offset wide = false →
     exec (.registerWrite bar2 offset wide poisoned v) s = exec (.barBadAccess bar2 (BitVec.ofNat 26 offset) true) s)
   ∧ (∀ (s : State) (bar2 wide : Bool) (offset : Nat) (v : Word64), s.barOpen = true → writeAllowed bar2 offset wide = true →
     exec (.registerWrite bar2 offset wide true v) s = .next s)
   ∧ (∀ (s : State) (n : Nat) (v : Word32), n < 64 →
     exec (.registerWrite true (n * 65536) false false (v.setWidth 64)) s = exec (.sqDoorbell n v) s
     ∧ exec (.registerWrite true (n * 65536 + 4) false false (v.setWidth 64)) s = exec (.cqDoorbell n v) s
     ∧ (s.barOpen = true → (s.ring n).mode = .enabled → (v.setWidth 16 : BitVec 16).toNat < (s.ring n).sqSize →
         exec (.registerWrite true (n * 65536) false false (v.setWidth 64)) s
           = .next (s.updRing n (fun r => { r with tail := v.setWidth 16 }))))
   ∧ (∀ (s : State) (n : Nat) (v : Word64), s.barOpen = true → n < 64 → n < s.rings.length →
     ((s.ring n).mode = .disabled → ∃ t, exec (.registerWrite true (n * 65536 + 0x1008) true false v) s = .next t
       ∧ t.bar2 (n * 65536 + 0x1008) = v &&& ~~~0xFFF ∧ (t.ring n).cqBase = (s.ring n).cqBase
       ∧ (∀ k, k ≠ n → t.ring k = s.ring k) ∧ t = { s with rings := t.rings })
     ∧ ((s.ring n).mode ≠ .disabled → exec (.registerWrite true (n * 65536 + 0x1008) true false v) s = .next s)
     ∧ (∃ t, exec (.registerWrite true (n * 65536 + 0x1020) true false v) s = .next t
       ∧ (t.ring n).errors = (s.ring n).errors &&& ~~~(v.setWidth 6) ∧ (t.ring n).mode = (s.ring n).mode
       ∧ (∀ k, k ≠ n → t.ring k = s.ring k) ∧ t = { s with rings := t.rings }))
   ∧ (∀ (s : State) (page o : Nat) (v : Word64), s.barOpen = true → o < 512 →
     page ∈ [0x2, 0x4, 0x6, 0x7, 0x8, 0xA, 0xB, 0xE, 0xF, 0x18, 0x20, 0x30] →
     exec (.registerWrite false (page * 4096 + o * 8) true false v) s = .next s))
  ∧ (∀ (s : State) (cid : Nat) (c : Cmd), Started s cid .debugRead c → c.inl 0 8 % 64 = 0 → nonZero? c.slate 44 4 = none →
       nonZero? c.slate 49 3 = none → c.inl 20 4 ≤ c.inl 8 4 → s.inReach (c.inl 0 8) (c.inl 8 4) = true → s.shuttleOpen = true →
       let addr := c.inl 24 8
       let n := c.inl 20 4
       (c.inl 16 1 = 0 → n % 64 = 0 → 64 ≤ n → n ≤ 65536 → addr % 64 = 0 → s.presentMem addr n = true →
         let data := ((List.range (n / 64)).map (fun i => if protectedAddr (addr + 64 * i) || poisoned s.mem (addr + 64 * i) 64
           then zeros 64 else memReads s.mem (addr + 64 * i) 64)).flatten
         let u := hostWrite (c.inl 0 8) data (!c.op.row.control) s
         exec (.debugRead cid) s = .next (complete cid .ok 0 n (denyLines 0x0F addr n u))
         ∧ ((∀ i < n / 64, protectedAddr (addr + 64 * i) = false) → denyLines 0x0F addr n u = u)
         ∧ ((∀ i < n / 64, protectedAddr (addr + 64 * i) = true) → (denyLines 0x0F addr n u).counters.denied = satAdd s.counters.denied (n / 64)))
       ∧ (c.inl 16 1 = 1 → n % 8 = 0 → 8 ≤ n → n ≤ 4096 → addr % 8 = 0 → addr + n ≤ 0x4000000 →
         exec (.debugRead cid) s = .next (complete cid .ok 0 n (hostWrite (c.inl 0 8)
           ((List.range (n / 8)).map (fun i => toLE 8 (s.bar0 (addr + 8 * i)).toNat)).flatten (!c.op.row.control) s))))

/-! ## Faults and recovery (chapter 17) -/

/-- A first fault of a unit that no recovery covers is counted, noted and starts the unit's recovery; a second one raises it to the
core, the field or the device. The watchdogs of stages and tiles, and a handler that does not end, are such detections (R398 to R402).

A recovery that completes leaves the list, counts at its level and for its core, and a field takes PTIME again; the units that it
retires leave service after that. FLT_INJECT arms a fault, or is refused, and an injected fault is one that was armed (R399, R400,
R402, R410).
Completes here, with a next state as the conclusion: faultDetected, handshakeWatchdog, coreTileTimeout, handlerTimeout, recoveryDone,
faultInject.
What the model chooses or infers here stands in log entries 88, 89 and 118. -/
def Obligations.FaultsAreRecovered : Prop :=
  ((∀ (s : State) (d : Nat) (site : FaultSite), d ≤ 9 → s.faults.warm = none → s.running site = true → site.kind ≠ 13 →
     site.kind ≠ 15 → s.recoveryOf site = none →
     ∃ t, exec (.faultDetected d site) s = .next t ∧ t = { s with faults := t.faults, counters := t.counters }
       ∧ (∃ r, t.recoveryOf site = some r ∧ r.kind = site.kind ∧ r.unit = site.unit ∧ r.level = (if site.kind = 5 then 2 else 1)
           ∧ r.detector = d ∧ r.since = s.time.ptime.toNat ∧ r.origin = site)
       ∧ { site := site, time := s.time.ptime.toNat, injected := false } ∈ t.faults.marks
       ∧ t.faults.lastKind = BitVec.ofNat 5 site.kind ∧ t.faults.lastUnit = BitVec.ofNat 16 site.unit
       ∧ t.faults.lastDetector = BitVec.ofNat 4 d ∧ t.faults.lastLevel = (if site.kind = 5 then 2 else 1)
       ∧ t.faults.cps = s.faults.cps ∧ t.faults.warm = none)
   ∧ (∀ (s : State) (d : Nat) (site : FaultSite) (r : Recovery), d ≤ 10 → s.faults.warm = none → s.running site = true →
     site.kind ≠ 13 → (site.kind = 15 → d = 10) → s.recoveryOf site = some r →
     ∃ t, detect d site s = t ∧ t.accum = s.accum ∧ t.mem = s.mem ∧ t.cmds = s.cmds ∧ t.trust = s.trust
       ∧ (∀ c, r.level = 1 → coreOfUnit r.kind r.unit = some c →
           ∃ q ∈ t.faults.recoveries, q.kind = 5 ∧ q.unit = c ∧ q.level = 2 ∧ t.faults.warm = none)
       ∧ (r.level = 2 → (∃ q ∈ t.faults.recoveries, q.kind = 15 ∧ q.unit = fieldOfUnit r.kind r.unit ∧ q.level = 3)
           ∨ t.faults.warm.isSome = true)
       ∧ (r.level = 3 → t.faults.warm.isSome = true))
   ∧ (∀ (s : State) (site : FaultSite), site.kind ≠ 5 → site.kind ≠ 13 → site.kind ≠ 15 →
     exec (.handshakeWatchdog site) s = .next (detect 0 { site with part := none } s))
   ∧ (∀ (s : State) (core : Nat), exec (.coreTileTimeout core) s = .next (detect 7 (wholeUnit 5 core) s))
   ∧ (∀ (s : State) (d : Nat) (site : FaultSite), d ≤ 11 → d ≠ 10 → exec (.faultDetected d site) s = .next (detect d site s))
   ∧ (∀ (s : State) (x : FaultSite), (∃ r ∈ s.faults.recoveries, r.level ≠ 5 ∧ r.kind = x.kind ∧ r.unit = x.unit) →
     exec (.handlerTimeout (some x)) s = .next (detect 10 (wholeUnit x.kind x.unit) s))
   ∧ (∀ (s : State) (w : WarmRestart), s.faults.warm = some w → w.started = true →
     exec (.handlerTimeout none) s = .next (goOutOfService { s with faults := { s.faults with warm := none } })))
  ∧ ((∀ (s : State) (x : FaultSite) (r : Recovery) (items steps : Nat),
       s.faults.recoveries.find? (fun r => r.level != 5 && r.kind == x.kind && r.unit == x.unit) = some r →
       let again (c : Nat) : Nat := s.tilesOn (fun _ t => t.issued && !s.spent t && r.replays t.core) c
       ∃ u, exec (.recoveryDone x items steps) s = .next (r.retire.foldl (fun s x => retireSite x s) u)
         ∧ u.faults.recoveries = s.faults.recoveries.filter (· != r)
         ∧ u.faults.engines = (if r.level = 1 then satAdd s.faults.engines 1 else s.faults.engines)
         ∧ u.faults.coreRecoveries = (if r.level = 2 then satAdd s.faults.coreRecoveries 1 else s.faults.coreRecoveries)
         ∧ u.faults.fieldRecoveries = (if r.level = 3 then satAdd s.faults.fieldRecoveries 1 else s.faults.fieldRecoveries)
         ∧ (∀ c, c < 36 → c < s.faults.cores.length →
             (again c = 0 → u.core c = s.core c)
             ∧ (again c ≠ 0 → (u.core c).tiles = satAdd (s.core c).tiles (again c) ∧ (u.core c).rewinds = satAdd (s.core c).rewinds 1))
         ∧ u.time.mirrors = (if r.level = 3 then s.time.mirrors.set r.unit s.time.ptime else s.time.mirrors)
         ∧ u.time.ptime = s.time.ptime ∧ u.accum = s.accum ∧ u.mem = s.mem ∧ u.cmds = s.cmds
         ∧ u.trust = (if r.kind = 8 then { s.trust with macKey := [] } else s.trust))
     ∧ (∀ (s : State) (value : Word32), s.barOpen = true →
       let kind := value.toNat % 32
       let n := value.toNat / 256 % 65536
       let refused := !injectable kind || decide (unitRange kind ≤ n) || (s.recoveryOf (wholeUnit kind n)).isSome || s.idleUnit kind n
         || (match s.faults.lastInject with | some t => decide (s.time.ptime.toNat < t + 100000000) | none => false)
       exec (.faultInject value) s = .next (if refused then { s with faults := { s.faults with injectRefused := true } }
         else { s with faults := { s.faults with lastInject := some s.time.ptime.toNat, armed := s.faults.armed ++ [(kind, n)] } }))
     ∧ (∀ (s : State) (site : FaultSite), (s.faults.armed.contains (site.kind, site.unit)) = false →
       exec (.faultDetected 11 site) s = .next s))

/-- A command processor that misses its heartbeat or its watchdog restarts while a peer takes over its fields; a second fault restarts
the device. When it has restarted, the spare runs its work and it becomes the spare, or it takes its fields back (R28, R404).

A warm restart that is due begins: it ends every command without a journalled commit point, every recovery and every armed
fault; the third within 10 s leaves the device out of service. It ends with a line on the console, its self-test, the image that it
activated and the return to service (R31, R284, R402, R405).
Completes here, with a next state as the conclusion: cpHeartbeatMiss, cpWatchdog, cpRestartDone, deviceWarmRestart, deviceWarmRestartEnd.
What the model chooses or infers here stands in log entries 90, 91 and 118. -/
def Obligations.ProcessorsAndTheDeviceRestart : Prop :=
  ((∀ (s : State) (i : Nat), s.faults.warm = none → s.power.railsOn = true → i < 5 → s.faults.cps.length = 5 →
     (unit s.faults.cps i).role = .active →
     exec (.cpHeartbeatMiss i) s = .next (detect 8 (wholeUnit 13 i) s) ∧ exec (.cpWatchdog i) s = .next (detect 9 (wholeUnit 13 i) s)
     ∧ ∀ d, d ≤ 9 → ∃ t, detect d (wholeUnit 13 i) s = t ∧ t.accum = s.accum ∧ t.mem = s.mem ∧ t.cmds = s.cmds ∧ t.trust = s.trust
       ∧ ((unit s.faults.cps i).recovering = false →
           (unit t.faults.cps i).recovering = true ∧ (unit t.faults.cps i).role = .active
           ∧ (∃ r ∈ t.faults.recoveries, r.kind = 13 ∧ r.unit = i ∧ r.level = 5 ∧ r.detector = d)
           ∧ (∀ p, s.peerOf i = some p → t.faults.cpTakeovers = satAdd s.faults.cpTakeovers 1
               ∧ (unit t.faults.cps p).fields = (unit s.faults.cps p).fields ||| (unit s.faults.cps i).fields)
           ∧ t.faults.warm = none)
       ∧ ((unit s.faults.cps i).recovering = true → t.faults.warm.isSome = true))
   ∧ (∀ (s : State) (i : Nat) (r : Recovery), s.faults.recoveries.find? (fun r => r.kind == 13 && r.unit == i) = some r → i < 5 →
     s.faults.cps.length = 5 → (unit s.faults.cps i).role = .active →
     (s.faultsOf (wholeUnit 13 i) false < 3 → ∃ t, exec (.cpRestartDone i true) s = .next t
       ∧ t.faults.recoveries = s.faults.recoveries.filter (· != r) ∧ (unit t.faults.cps i).recovering = false
       ∧ (∀ n, (List.range 5).find? (fun n => (unit s.faults.cps n).role == .spare) = some n →
           (unit t.faults.cps n).role = .active ∧ (unit t.faults.cps n).fields = (unit s.faults.cps i).fields
           ∧ (unit t.faults.cps i).role = .spare ∧ t.faults.cpRestarts = satAdd s.faults.cpRestarts 1)
       ∧ ((List.range 5).find? (fun n => (unit s.faults.cps n).role == .spare) = none →
           (unit t.faults.cps i).role = .active ∧ (unit t.faults.cps i).fields = (unit s.faults.cps i).fields)
       ∧ t.accum = s.accum ∧ t.mem = s.mem ∧ t.cmds = s.cmds ∧ t.trust = s.trust)
     ∧ (∃ u, exec (.cpRestartDone i false) s = .next (retireCp i u) ∧ u.faults.recoveries = s.faults.recoveries.filter (· != r)
       ∧ u.accum = s.accum ∧ u.mem = s.mem ∧ u.cmds = s.cmds)))
  ∧ ((∀ (s : State) (w : WarmRestart), s.faults.warm = some w → w.started = false →
       ∃ u, exec .deviceWarmRestart s =
           .next (if 2 ≤ (s.faults.restarts.filter (fun t => s.within10s t)).length then goOutOfService u else u)
         ∧ u.faults.warm = some { w with started := true, last := decide (2 ≤ (s.faults.restarts.filter (fun t => s.within10s t)).length) }
         ∧ u.faults.recoveries = [] ∧ u.faults.armed = [] ∧ u.faults.warmRestarts = satAdd s.faults.warmRestarts 1
         ∧ (∀ cid c, s.cmd? cid = some c → c.endsAtRestart = true → u.cmd? cid = none)
         ∧ u.rng.mode = .unseeded ∧ u.power.debtUj = 0 ∧ u.side.tests = [] ∧ u.trust = { s.trust with macKey := [] }
         ∧ u.mem.cells = s.mem.cells ∧ u.time = s.time)
     ∧ (∀ (s : State) (w : WarmRestart) (named : List FaultSite) (h : Health), s.faults.warm = some w → w.started = true →
       exec (.deviceWarmRestartEnd named h) s = .next (endWarm w named h s)
       ∧ (w.activate = none → w.selfTest = [] → s.faults.outOfService = false →
           endWarm w named h s = creditMoved { s with faults := { s.faults with warm := none }, out := s.out ++ [.uart none s.ms true] })
       ∧ (∀ cid, w.activate = some cid → w.selfTest = [] → s.faults.outOfService = false →
           let good := imageValid s.trust.fuses s.trust.flash.activeImage
           (good = true → s.trust.romMode = false) →
           ∃ u, endWarm w named h s = creditMoved u ∧ u.cmd? cid = none
             ∧ u.trust.flash = (if good = true then s.trust.flash else s.trust.flash.toggle)
             ∧ u.trust.fwVersion = (if good = true then BitVec.ofNat 32 (leAt s.trust.flash.activeImage 8 4) else s.trust.fwVersion)
             ∧ (good = false → u.trust.fuses = s.trust.fuses) ∧ u.faults.warm = none ∧ u.mem.cells = s.mem.cells)))

/-! ## Counters, dailies and trace (chapter 18) -/

/-- Every slot that matches an increment adds it modulo 2^48 and no other slot changes; a sample that is due is taken once;
CNT_CONFIGURE sets the slots it names and no other; CNT_READ writes the slots it names, sealed where it carries a trailer (R412 to R416).

Dailies latch every slot at their period, replacing a snapshot that was not written; a snapshot is written when an entry is free
and missed otherwise. The trace buffer takes its mode and kinds, and a read drains the records that it writes (R417 to R420).
Completes here, with a next state as the conclusion: cntRead, cntConfigure, dailiesConfigure, traceConfigure, traceRead, counterIncrement,
sampleRequest, dailiesLatch, dailiesRecordWrite, cntDailiesHeadWrite.
What the model chooses or infers here stands in log entries 57, 58, 59 and 102. -/
def Obligations.CountersDailiesAndTrace : Prop :=
  ((∀ (s : State) (event inst job n : Nat), ∃ t, exec (.counterIncrement event inst job n) s = .next t
     ∧ t = { s with counters := { s.counters with slots := t.counters.slots } } ∧ t.counters.slots.length = s.counters.slots.length
     ∧ ∀ i, i < s.counters.slots.length →
       let k := unit s.counters.slots i
       (k.matches event inst job = false → unit t.counters.slots i = k)
       ∧ (k.matches event inst job = true →
           (unit t.counters.slots i).value.toNat = (k.value.toNat + n) % 2 ^ 48
           ∧ (unit t.counters.slots i).ovf = (k.ovf || decide (2 ^ 48 ≤ k.value.toNat + n))
           ∧ (unit t.counters.slots i).due = (if k.sample = true ∧ k.left ≤ n then k.due + 1 else k.due)
           ∧ (unit t.counters.slots i).event = k.event ∧ (unit t.counters.slots i).enable = k.enable))
   ∧ (∀ (s : State) (slot inst job skid station core seq : Nat), slot < s.counters.slots.length → (unit s.counters.slots slot).due ≠ 0 →
     ∃ t, exec (.sampleRequest slot inst job skid station core seq) s = .next t
       ∧ (unit t.counters.slots slot).due = (unit s.counters.slots slot).due - 1
       ∧ (unit t.counters.slots slot).value = (unit s.counters.slots slot).value
       ∧ (∀ i, i ≠ slot → unit t.counters.slots i = unit s.counters.slots i)
       ∧ t.counters.samples = (if (window? s.reel .counterSample 0x0F 0).isNone then 0 else s.counters.samples + 1)
       ∧ t.rings = s.rings ∧ t.cmds = s.cmds ∧ t.accum = s.accum ∧ t.mem = s.mem ∧ t.out = s.out)
   ∧ (∀ (s : State) (cid : Nat) (c : Cmd) (ps : List Piece), Started s cid .cntConfigure c → c.inlZero 0 32 = true →
     scatterAt c.body 0 = .inr (ps, c.body.length) → piecesLen ps % 16 = 0 → 0 < piecesLen ps → piecesLen ps ≤ 4096 →
     c.input.length = piecesLen ps → badSlotEntry (chunks 16 256 c.input) = none → s.counters.slots.length = 256 →
     ∃ t, exec (.cntConfigure cid) s = .next (complete cid .ok 0 0 t) ∧ t.counters.cfgGen = s.counters.cfgGen + 1
       ∧ (∀ e ∈ chunks 16 256 c.input,
           let k := unit t.counters.slots (leAt e 0 2)
           k.event = BitVec.ofNat 16 (leAt e 2 2) ∧ k.enable = (byteAt e 6).testBit 0 ∧ k.sample = (byteAt e 6).testBit 1 ∧ k.due = 0
           ∧ k.value = (if (byteAt e 6).testBit 2 then 0 else (unit s.counters.slots (leAt e 0 2)).value))
       ∧ (∀ i, (∀ e ∈ chunks 16 256 c.input, leAt e 0 2 ≠ i) → unit t.counters.slots i = unit s.counters.slots i)
       ∧ t = { s with counters := { s.counters with slots := t.counters.slots, cfgGen := t.counters.cfgGen } })
   ∧ (∀ (s : State) (cid : Nat) (c : Cmd) (m : Bytes), Started s cid .cntRead c → c.inl 0 8 % 64 = 0 → nonZero? c.slate 44 4 = none →
     1 ≤ c.inl 18 2 → c.inl 16 2 + c.inl 18 2 ≤ 256 → nonZero? c.slate 52 12 = none →
     m = (((s.counters.slots.drop (c.inl 16 2)).take (c.inl 18 2)).map (slotRecord s c.auth)).flatten →
     let out := if c.auth then sealForTenant s "CNTR" c m else m
     out.length ≤ c.inl 8 4 → s.inReach (c.inl 0 8) (c.inl 8 4) = true → s.shuttleOpen = true →
     exec (.cntRead cid) s = .next (complete cid .ok 0 out.length (hostWrite (c.inl 0 8) out false s))))
  ∧ ((∀ (s : State) (cid : Nat) (c : Cmd), Started s cid .dailiesConfigure c → c.inl 0 1 ≤ 1 → 4 ≤ c.inl 1 1 → c.inl 1 1 ≤ 12 →
       nonZero? c.slate 34 2 = none → 10 ≤ c.inl 4 4 → c.inl 4 4 ≤ 60000 → c.inl 8 8 % 4096 = 0 → nonZero? c.slate 48 16 = none →
       ∃ t, exec (.dailiesConfigure cid) s = .next (complete cid .ok 0 0 t) ∧ t = { s with counters := t.counters }
         ∧ t.counters.dailies = (c.inl 0 1 == 1) ∧ t.counters.log2 = c.inl 1 1 ∧ t.counters.periodMs = c.inl 4 4
         ∧ t.counters.base = c.inl 8 8 ∧ t.counters.slots = s.counters.slots
         ∧ (c.inl 0 1 = 1 → t.counters.tail = 0 ∧ t.counters.head = 0 ∧ t.counters.phase = true ∧ t.counters.dseq = 0))
     ∧ (∀ s : State, s.counters.dailies = true →
       ∃ t n, exec .dailiesLatch s = .next t ∧ t = { s with counters := t.counters } ∧ t.counters.snapshot = some n
         ∧ n.dseq = s.counters.dseq ∧ n.ptime = s.mirror 2 ∧ n.cfgGen = s.counters.cfgGen ∧ n.slots = s.counters.slots.map s.snapSlot
         ∧ t.counters.dseq = s.counters.dseq + 1 ∧ t.counters.slots = s.counters.slots
         ∧ t.counters.missed = (if s.counters.snapshot.isSome then satAdd s.counters.missed 1 else s.counters.missed))
     ∧ (∀ (s : State) (n : Snapshot), s.counters.snapshot = some n →
       (s.counters.dailiesFree = 0 → ∃ t, exec .dailiesRecordWrite s = .next t ∧ t = { s with counters := t.counters }
         ∧ t.counters.snapshot = none ∧ t.counters.missed = satAdd s.counters.missed 1 ∧ t.counters.tail = s.counters.tail)
       ∧ (s.counters.dailiesFree ≠ 0 → s.shuttleOpen = true →
         let addr := s.counters.base + 4096 * s.counters.tail.toNat
         s.inReach addr (dailiesBytes s.counters n).length = true →
         ∃ t, exec .dailiesRecordWrite s = .next t
           ∧ t.out = s.out ++ [.hostWrite addr (dailiesBytes s.counters n) (s.pcie.roBulk && s.pcie.relaxedOrdering)]
           ∧ t.counters.snapshot = none ∧ t.counters.missedRec = 0
           ∧ t.counters.tail = BitVec.ofNat 12 ((s.counters.tail.toNat + 1) % 2 ^ s.counters.log2)
           ∧ t.counters.phase = (if (s.counters.tail.toNat + 1) % 2 ^ s.counters.log2 = 0 then !s.counters.phase else s.counters.phase)
           ∧ t.counters.slots = s.counters.slots ∧ t.rings = s.rings ∧ t.cmds = s.cmds ∧ t.accum = s.accum ∧ t.mem = s.mem))
     ∧ (∀ (s : State) (value : Word32), s.barOpen = true → exec (.cntDailiesHeadWrite value) s =
       .next { s with counters := { s.counters with head := BitVec.ofNat 12 value.toNat } })
     ∧ (∀ (s : State) (cid : Nat) (c : Cmd), Started s cid .traceConfigure c → c.inl 0 1 ≤ 2 → nonZero? c.slate 33 3 = none →
       c.inl 4 2 &&& 0xFC01 = 0 → nonZero? c.slate 38 26 = none →
       exec (.traceConfigure cid) s = .next (complete cid .ok 0 0
         { s with counters := { s.counters with traceMode := c.inl 0 1, kinds := BitVec.ofNat 16 (c.inl 4 2) } }))
     ∧ (∀ (s : State) (cid : Nat) (c : Cmd) (n : Nat) (m : Bytes), Started s cid .traceRead c → c.inl 0 8 % 64 = 0 →
       nonZero? c.slate 44 4 = none → nonZero? c.slate 48 16 = none → n = min (c.inl 8 4 / 32) s.counters.trace.length →
       m = ((s.counters.trace.take n).map TraceRec.bytes).flatten → m.length ≤ c.inl 8 4 → s.inReach (c.inl 0 8) (c.inl 8 4) = true →
       s.shuttleOpen = true →
       ∃ t, exec (.traceRead cid) s = .next (complete cid .ok 0 m.length t) ∧ t.counters.trace = s.counters.trace.drop n
         ∧ t.out = (hostWrite (c.inl 0 8) m true s).out ∧ t.counters.slots = s.counters.slots ∧ t.cmds = s.cmds ∧ t.accum = s.accum
         ∧ t.mem = s.mem))

/-! ## Warp links (chapter 16) -/

/-- WARP_CONFIGURE enables a link, which trains, or takes it down; it places a listener, or a route for exports. A retrain takes the
link down, commits, and ends with the link's width or with TIMEOUT. Training brings the link up at the widest width that the lanes and the peer
allow; a lane in use that fails takes it down to train again (R385, R386, R391, R392, R396).
Completes here, with a next state as the conclusion: warpConfigure, warpRetrain, warpTrainingDone, warpLaneFail, warpRetrainTimeout.
What the model chooses or infers here stands in log entry 84. -/
def Obligations.LinksTrain : Prop :=
  (∀ (s : State) (cid : Nat) (c : Cmd), Started s cid .warpConfigure c → (∀ n, c.work ≠ .connecting n) → firstBad (warpFields c) = none →
    (c.inl 0 1 = 0 →
      exec (.warpConfigure cid) s =
        .next (complete cid .ok 0 0 (forCommand cid (configureLink (c.inl 1 1) (c.inl 2 1) (c.inl 10 2)) s)))
    ∧ (∀ jb n, c.inl 0 1 = 1 → c.inl 2 1 = 0 → s.job? c.job = some jb → s.trust.set.isSome = true → (s.link (c.inl 1 1)).up = true →
      Table.free? s.trans.listeners 0 64 = some n →
      ∃ t, exec (.warpConfigure cid) s = .next (complete cid .ok 0 n t)
        ∧ (∃ l, Table.get? t.trans.listeners n = some l ∧ l.job = c.job ∧ l.link = some (c.inl 1 1) ∧ l.accepted = 0)
        ∧ (∀ m, m ≠ n → Table.get? t.trans.listeners m = Table.get? s.trans.listeners m)
        ∧ t = { s with trans := { s.trans with listeners := t.trans.listeners } })
    ∧ (∀ jb, c.inl 0 1 = 1 → c.inl 2 1 = 1 → s.job? c.job = some jb → s.trust.set.isSome = true → (s.link (c.inl 1 1)).up = true →
      exec (.warpConfigure cid) s = .next (settle cid c ((activeOpen cid (Conn.fresh c.job false 0 (if c.inl 8 2 = 0 then 50 else c.inl 8 2)
        0 (if c.inl 4 4 = 0 then 256 else c.inl 4 4) (some (c.inl 1 1))) s).ofCommand cid s.reel.queue.length) s))
    ∧ (∀ g k, c.inl 0 1 = 2 → c.inl 2 1 = 0 → (s.job? c.job).isSome = true → s.groupOf c.job c.group = some g →
      s.conn? (c.inl 8 2) = some k → k.phase = .opened → k.job = c.job →
      ∃ u r, exec (.warpConfigure cid) s = .next (complete cid .ok 0 0
          (Sys2Proof.Machine.ofCommand cid s.reel.queue.length (tryExport c.group true (tryExport c.group false u))))
        ∧ Table.get? u.warp.routes c.group = some r ∧ r.conn = c.inl 8 2 ∧ r.rkey = BitVec.ofNat 32 (c.inl 4 4) ∧ r.raddr = c.inl 16 8
        ∧ u = { s with warp := { s.warp with routes := u.warp.routes } })
    ∧ (∀ g k l, c.inl 0 1 = 2 → c.inl 2 1 = 1 → (s.job? c.job).isSome = true → s.groupOf c.job c.group = some g →
      s.conn? (c.inl 8 2) = some k → k.phase = .opened → k.job = c.job → s.exported? c.group (c.inl 3 1 == 1) = some l →
      ∃ u r, r.conn = c.inl 8 2 ∧ r.raddr = c.inl 16 8 ∧ Table.get? u.warp.routes c.group = some r
        ∧ (u.exportDue c.group (c.inl 3 1 == 1) = false →
          exec (.warpConfigure cid) s =
            .next (complete cid .ok 0 0 (Sys2Proof.Machine.ofCommand cid s.reel.queue.length
              (sendTiles r l (tryExport c.group true (tryExport c.group false u))))))))
  ∧ (∀ (s : State) (i flags member : Nat), i < s.warp.links.length →
    (flags.testBit 0 = true → (s.link i).enable = false → s.side.tests = [] →
      ((configureLink i flags member s).link i).enable = true ∧ ((configureLink i flags member s).link i).training = some 0
      ∧ ((configureLink i flags member s).link i).up = false)
    ∧ (flags.testBit 0 = false → ((configureLink i flags member s).link i).enable = false
      ∧ ((configureLink i flags member s).link i).up = false ∧ ((configureLink i flags member s).link i).training = none))
  ∧ (∀ (s : State) (cid : Nat) (c : Cmd), Started s cid .warpRetrain c → c.inl 0 1 < 8 → c.inl 0 1 < s.warp.links.length → c.inl 1 1 < 2 →
    nonZero? c.slate 34 30 = none →
    ∃ t, exec (.warpRetrain cid) s = .next t
      ∧ (∃ d, t.cmd? cid = some d ∧ d.phase = .committed ∧ d.work = .retraining (c.inl 0 1))
      ∧ ((s.link (c.inl 0 1)).enable = true → (t.link (c.inl 0 1)).up = false ∧ (t.link (c.inl 0 1)).training = some 4
          ∧ (t.link (c.inl 0 1)).retrains = satAdd (s.link (c.inl 0 1)).retrains 1)
      ∧ ((s.link (c.inl 0 1)).enable = false → t.warp = s.warp)
      ∧ t.mem = s.mem ∧ t.accum = s.accum ∧ t.trans = s.trans ∧ t.out = s.out)
  ∧ (∀ (s : State) (cid i : Nat) (c : Cmd), s.cmd? cid = some c → c.work = .retraining i →
    (s.link i).up = false → exec (.warpRetrainTimeout cid) s = .next (complete cid .timeout 0 0 s))
  ∧ (∀ (s : State) (i : Nat) (p : WarpPeer), (s.link i).training.isSome = true → (s.link i).enable = true → (s.link i).inService = true →
    s.side.testHold = false → i < s.warp.links.length →
    let common := p.good &&& p.peerGood
    let good := (bitList 9 common.toNat).length
    ((s.link i).reachable good = none → exec (.warpTrainingDone i p) s =
      .next (stayDown i (s.updLink i (fun l => { l with lanesGood := p.good })))
      ∧ ((stayDown i (s.updLink i (fun l => { l with lanesGood := p.good }))).link i).up = (s.link i).up)
    ∧ (∀ w, (s.link i).reachable good = some w → s.wrongPeer (s.link i) p = true →
      ∃ t, exec (.warpTrainingDone i p) s = .next t ∧ (t.link i).up = (s.link i).up ∧ (t.link i).training = (s.link i).training
        ∧ t.cmds = s.cmds ∧ t.mem = s.mem ∧ t.trans = s.trans ∧ t.out = s.out)
    ∧ (∀ w, (s.link i).reachable good = some w → s.wrongPeer (s.link i) p = false →
      ∃ u, exec (.warpTrainingDone i p) s = .next (linkPump i (endRetrain i .ok u)) ∧ (u.link i).up = true
        ∧ (u.link i).width = laneCode w ∧ (u.link i).lanes = (bitList 9 common.toNat).take w ∧ (u.link i).training = none
        ∧ (u.link i).peerMember = BitVec.ofNat 16 p.member ∧ w ≤ good ∧ (w = 8 ∨ (s.link i).allowDegrade = true)
        ∧ (∀ k, k ≠ i → u.link k = s.link k) ∧ u.cmds = s.cmds ∧ u.mem = s.mem ∧ u.trans = s.trans ∧ u.out = s.out))
  ∧ (∀ (s : State) (i lane : Nat), i < s.warp.links.length →
    ∃ t, exec (.warpLaneFail i lane) s = .next t ∧ (t.link i).lanesGood = (s.link i).lanesGood &&& ~~~(1#9 <<< lane)
      ∧ ((s.link i).up = true → (s.link i).lanes.contains lane = true → (t.link i).up = false ∧ (t.link i).training = some 1
          ∧ (t.link i).lost = (if ((t.link i).reachable (bitList 9 (t.link i).lanesGood.toNat).length).isNone then none else some lane)
          ∧ (t.link i).retrains = satAdd (s.link i).retrains 1)
      ∧ ((s.link i).up = false ∨ (s.link i).lanes.contains lane = false → (t.link i).up = (s.link i).up
          ∧ (t.link i).training = (s.link i).training)
      ∧ (∀ k, k ≠ i → t.link k = s.link k) ∧ t.cmds = s.cmds ∧ t.mem = s.mem ∧ t.trans = s.trans ∧ t.out = s.out)

/-- Link frames: one that is wrong or out of order is answered by NAK and has no other effect; DATA in order is received and
acknowledged; ACK and NAK free what they acknowledge; a NAK, and 10 µs without progress, replay what is left, and the eighth replay or a
millisecond without credit retrains the link (R387 to R389).
Completes here, with a next state as the conclusion: linkFrameData, linkFrameAck, linkFrameNak, warpReplayTimer, warpCreditStarvation.
What the model chooses or infers here stands in log entry 64. -/
def Obligations.LinkFramesAreExchanged : Prop :=
  (∀ (s : State) (i : Nat) (f : Bytes), (s.link i).up = true → s.side.testHold = false →
    (byteAt f 0 = 1 → frameOk f = false ∨ beAt f 4 4 ≠ (s.link i).expectLseq.toNat →
      exec (.linkFrameData i f) s = .next (sendFrame i 3 0 [] s))
    ∧ (byteAt f 0 = 2 → frameOk f = false → exec (.linkFrameAck i f) s = .next (sendFrame i 3 0 [] s))
    ∧ (byteAt f 0 = 3 → frameOk f = false → exec (.linkFrameNak i f) s = .next (sendFrame i 3 0 [] s))
    ∧ (frameOk f = true → i < s.warp.links.length →
      ∃ u, (u.link i).replayBuf = (s.link i).replayBuf.filter (fun e => !before32 e.1 (BitVec.ofNat 32 (beAt f 8 4)))
        ∧ (u.link i).credit = min 1024 ((s.link i).credit + beAt f 12 2)
        ∧ (∀ k, k ≠ i → u.link k = s.link k) ∧ u = { s with warp := u.warp }
        ∧ (byteAt f 0 = 2 → exec (.linkFrameAck i f) s = .next (linkPump i u))
        ∧ (byteAt f 0 = 3 → exec (.linkFrameNak i f) s = .next (linkPump i (replayFrom i (BitVec.ofNat 32 (beAt f 8 4)) u)))
        ∧ (byteAt f 0 = 1 → beAt f 4 4 = (s.link i).expectLseq.toNat →
          ∃ v, exec (.linkFrameData i f) s = .next (linkPump i (sendFrame i 2 0 []
              (receive { path := 8 + i, ipVer := 6, mac := 0, ip := zeros 16 } (slice f 16 (beAt f 2 2)) v)))
            ∧ (v.link i).expectLseq = (s.link i).expectLseq + 1 ∧ (v.link i).replayBuf = (u.link i).replayBuf
            ∧ (v.link i).toReturn = (s.link i).toReturn + frameUnits (beAt f 2 2) ∧ v = { s with warp := v.warp })))
  ∧ (∀ (s : State) (i : Nat) (e : Word32 × Bytes) (rest : List (Word32 × Bytes)), (s.link i).replayBuf = e :: rest → (s.link i).up = true →
    s.side.testHold = false → exec (.warpReplayTimer i) s = .next (replayFrom i e.1 s))
  ∧ (∀ (s : State) (i : Nat) (first : Word32), i < s.warp.links.length →
    let left := (s.link i).replayBuf.filter (fun e => !before32 e.1 first)
    (left = [] → replayFrom i first s = s)
    ∧ (left ≠ [] → (s.link i).tries < 8 → ((replayFrom i first s).link i).tries = (s.link i).tries + 1
        ∧ ((replayFrom i first s).link i).replays = satAdd (s.link i).replays left.length
        ∧ (replayFrom i first s).out.length = s.out.length + left.length ∧ (replayFrom i first s).mem = s.mem)
    ∧ (left ≠ [] → 8 ≤ (s.link i).tries → ((replayFrom i first s).link i).up = false
        ∧ ((replayFrom i first s).link i).training = some 2 ∧ (replayFrom i first s).out = s.out))
  ∧ (∀ (s : State) (i : Nat) (p : Bytes) (rest : List Bytes), i < s.warp.links.length → (s.link i).queue = p :: rest →
    (s.link i).up = true → (s.link i).credit < frameUnits p.length →
    ∃ t, exec (.warpCreditStarvation i) s = .next t ∧ (t.link i).up = false ∧ (t.link i).training = some 3
      ∧ (t.link i).starved = satAdd (s.link i).starved 1 ∧ (t.link i).queue = p :: rest ∧ (∀ k, k ≠ i → t.link k = s.link k)
      ∧ t.cmds = s.cmds ∧ t.mem = s.mem ∧ t.trans = s.trans ∧ t.out = s.out)

/-! ## The transport: regions, work requests and connections (chapter 06) -/

/-- REGION_REGISTER takes the lowest free region number and its next generation, and returns the key, which admits what its rights and
bounds allow. REGION_REVOKE refuses every later use and commits; it waits for what is in flight (R126, R127, R140).
Completes here, with a next state as the conclusion: regionRegister, regionRevoke. -/
def Obligations.RegionsAreKeyed : Prop :=
  (∀ (s : State) (cid : Nat) (c : Cmd) (i : Nat), Started s cid .regionRegister c → c.inl 0 1 < 4 → c.inl 1 1 < 16 → c.inl 2 1 < 16 →
    (c.inl 0 1 = 1 → (c.inl 2 1).testBit 2 = false) → nonZero? c.slate 35 5 = none → c.inl 8 8 % 64 = 0 →
    (c.inl 0 1 ≠ 1 → s.unprotected (c.inl 8 8) (c.inl 16 8) = true) → 64 ≤ c.inl 16 8 → c.inl 16 8 ≤ 2 ^ 40 →
    nonZero? c.slate 56 8 = none → (s.job? (c.inl 1 1)).isSome = true →
    lowest (fun k => !Table.has s.trans.regions k && !(Table.get? s.trans.lastGen k == some 255)) 262143 1 = some i →
    ∃ t r, exec (.regionRegister cid) s = .next (complete cid .ok 0 (256 * i + r.gen.toNat) t)
      ∧ Table.get? t.trans.regions i = some r ∧ r.job = c.inl 1 1 ∧ r.base = c.inl 8 8 ∧ r.len = c.inl 16 8
      ∧ r.rights = BitVec.ofNat 4 (c.inl 2 1) ∧ r.revoking = false
      ∧ r.gen = (match Table.get? s.trans.lastGen i with | none => 0 | some g => g + 1)
      ∧ Table.get? s.trans.regions i = none ∧ 1 ≤ i ∧ (∀ k, k ≠ i → Table.get? t.trans.regions k = Table.get? s.trans.regions k)
      ∧ (∀ off len need, off + len ≤ c.inl 16 8 → r.rights &&& need = need →
          t.access (c.inl 1 1) (BitVec.ofNat 32 (256 * i + r.gen.toNat)) off len need false = .inr (i, r))
      ∧ (∀ off len need, c.inl 16 8 < off + len →
          t.access (c.inl 1 1) (BitVec.ofNat 32 (256 * i + r.gen.toNat)) off len need false = .inl .outOfBounds)
      ∧ t = { s with trans := { s.trans with regions := t.trans.regions, lastGen := t.trans.lastGen } })
  ∧ (∀ (s : State) (cid : Nat) (c : Cmd) (r : Region), Started s cid .regionRevoke c → nonZero? c.slate 36 28 = none →
    Table.get? s.trans.regions (c.inl 1 3) = some r → r.gen.toNat = c.inl 0 1 →
    ∃ t, exec (.regionRevoke cid) s = .next t ∧ Table.get? t.trans.regions (c.inl 1 3) = some { r with revoking := true }
      ∧ (∃ d, t.cmd? cid = some d ∧ d.phase = .committed ∧ d.work = .revoking (c.inl 1 3))
      ∧ (∀ off len need, c.inl 1 3 < 16777216 →
          t.access r.job (BitVec.ofNat 32 (256 * c.inl 1 3 + r.gen.toNat)) off len need false = .inl .regionRevoked)
      ∧ (∀ k, k ≠ c.inl 1 3 → Table.get? t.trans.regions k = Table.get? s.trans.regions k)
      ∧ t.trans.conns = s.trans.conns ∧ t.mem = s.mem ∧ t.out = s.out ∧ t.accum = s.accum)

/-- WR_POST appends each valid entry to its connection in order; WR_CANCEL ends the unstarted requests it names with ABORTED; the
first unstarted request of an open connection starts once its trigger and its fence allow: a local fault ends it, and otherwise it takes
the next MSG_ID and its message leaves (R137 to R139).
Completes here, with a next state as the conclusion: wrPost, wrCancel, wrStart.
What the model chooses or infers here stands in log entry 68. -/
def Obligations.WorkRequestsRun : Prop :=
  (∀ (s : State) (cid : Nat) (c : Cmd) (ps : List Piece), Started s cid .wrPost c → c.inlZero 0 32 = true →
    scatterAt c.body 0 = .inr (ps, c.body.length) → piecesLen ps % 64 = 0 → 0 < piecesLen ps → piecesLen ps ≤ 65536 →
    c.input.length = piecesLen ps →
    let es := chunks 64 1024 c.input
    let t := es.foldl acceptWr s
    (∀ e ∈ es, wrEntryOk s e = true) → (∀ e ∈ t.trans.conns, e.2.outstanding ≤ 1024) → (t.trans.conns.map (·.2.outstanding)).sum ≤ 65536 →
    exec (.wrPost cid) s = .next (complete cid .ok 0 0 t)
    ∧ (∀ n k, s.conn? n = some k →
        let mine := (es.filter (fun e => leAt e 2 2 = n)).mapIdx (fun i e => { wrOf e with id := k.wrMade + i })
        t.conn? n = some { k with
          wrs := k.wrs ++ mine.filter (fun w => w.kind ≠ 5)
          recvs := k.recvs ++ mine.filter (fun w => w.kind = 5)
          wrMade := k.wrMade + mine.length })
    ∧ t = { s with trans := { s.trans with conns := t.trans.conns } })
  ∧ (∀ (s : State) (cid : Nat) (c : Cmd), Started s cid .wrCancel c → c.inl 2 1 ≤ 1 → nonZero? c.slate 35 5 = none →
    nonZero? c.slate 48 16 = none →
    let n := c.inl 0 2
    let hit (w : WorkReq) : Bool := w.msgId.isNone && (c.inl 2 1 == 1 || w.cookie == BitVec.ofNat 64 (c.inl 8 8))
    (s.conn? n = none → exec (.wrCancel cid) s = .next (complete cid .ok 0 0 s))
    ∧ (∀ k, s.conn? n = some k → ∃ t q,
        exec (.wrCancel cid) s = .next (complete cid .ok 0 ((k.wrs.filter hit).length + (k.recvs.filter hit).length) t)
        ∧ t.conn? n = some q ∧ q.wrs = k.wrs.filter (fun w => !(k.wrs.any (fun x => hit x && x.id == w.id)))
        ∧ q.recvs = k.recvs.filter (fun w => !(k.recvs.any (fun x => hit x && x.id == w.id)))
        ∧ q = { k with wrs := q.wrs, recvs := q.recvs } ∧ (∀ m, m ≠ n → t.conn? m = s.conn? m)
        ∧ t.trans.regions = s.trans.regions ∧ t.mem = s.mem ∧ t.out = s.out))
  ∧ (∀ (s : State) (n : Nat) (c : Conn) (w : WorkReq), s.conn? n = some c → c.wrs.find? (fun w => w.msgId.isNone) = some w →
    c.phase = .opened → s.transportRuns = true → s.wrReady c w = true →
    exec (.wrStart n) s = .next (startWr n c w s)
    ∧ (∀ st, s.access c.job w.lkey w.laddr w.len (if w.kind ≤ 1 then rightR else rightW) false = .inl st →
        ∃ k, (startWr n c w s).conn? n = some k ∧ k.wrs = c.wrs.filter (fun x => x.id ≠ w.id) ∧ k.txMsg = c.txMsg ∧ k.txPsn = c.txPsn
          ∧ (startWr n c w s).out = s.out ∧ (startWr n c w s).mem = s.mem)
    ∧ (∀ i r, s.access c.job w.lkey w.laddr w.len (if w.kind ≤ 1 then rightR else rightW) false = .inr (i, r) → w.kind ≤ 1 →
        r.space ≠ .host → poisoned s.mem (r.base + w.laddr) w.len = false →
        ∃ u k, startWr n c w s = sendSource n w c.txMsg (memReads s.mem (r.base + w.laddr) w.len) u ∧ u.conn? n = some k
          ∧ k.txMsg = c.txMsg + 1 ∧ k.wrs = c.wrs.map (fun x => if x.id = w.id then { w with msgId := some c.txMsg, fetched := none } else x)
          ∧ u.out = s.out ∧ u.mem = s.mem ∧ (∀ m, m ≠ n → u.conn? m = s.conn? m)))

/-- CONN_OPEN places a listener, or sends a request for a connection and waits for its answer; CONN_CLOSE closes a connection, which
sends DISCONNECT, or a listener, whose connections close or stay. A closing connection is freed 10 ms later, a half-open one after 1 s; a set-up
without an answer is repeated and ends with TIMEOUT at the twelfth expiry (R123 to R125, R131).

An ACK is sent for data that no ACK has covered; what is not acknowledged is sent again, byte-identical, and the twelfth expiry
fails the connection; a refused message of window mode is sent again after its delay (R121, R129, R131, R132).
Completes here, with a next state as the conclusion: connOpen, connClose, disconnectFreeTimer, ackTimer, retransmitTimerExpiry,
connectRetryTimer, halfOpenTimeout, nakRetryUsExpiry.
What the model chooses or infers here stands in log entries 65, 69, 109 and 112. -/
def Obligations.ConnectionsOpenRepeatAndClose : Prop :=
  ((∀ (s : State) (cid : Nat) (c : Cmd) (jb : Job), Started s cid .connOpen c → slateParamLen c.slate = 64 → c.job = 0xFF ∨ c.job = c.par 1 1 →
     nonZero? c.slate 32 32 = none → c.par 1 1 < 16 → c.par 2 1 ≤ 1 → c.par 3 1 ≠ 0 → c.par 4 2 ≤ 1000 →
     (c.par 2 1 = 1 → 1 ≤ c.par 6 2 ∧ c.par 6 2 ≤ 1024) → (c.par 2 1 = 0 → c.par 6 2 = 0) → c.par 8 4 ≤ 65536 →
     nonZero? c.block 15 1 = none → nonZero? c.block 38 26 = none → (∀ n, c.work ≠ .connecting n) → s.job? (c.par 1 1) = some jb →
     s.side.step = 11 →
     (∀ n, c.par 0 1 = 0 → c.par 14 1 = 0 → Table.free? s.trans.listeners 0 64 = some n →
       ∃ t, exec (.connOpen cid) s = .next (complete cid .ok 0 n t)
         ∧ (∃ l, Table.get? t.trans.listeners n = some l ∧ l.job = c.par 1 1 ∧ l.link = none ∧ l.windowMode = (c.par 2 1 == 1)
             ∧ l.portMask = BitVec.ofNat 8 (c.par 3 1) ∧ l.accepted = 0)
         ∧ (∀ m, m ≠ n → Table.get? t.trans.listeners m = Table.get? s.trans.listeners m)
         ∧ t = { s with trans := { s.trans with listeners := t.trans.listeners } })
     ∧ (∀ n v engine nonce, c.par 0 1 = 1 → c.par 14 1 = 4 ∨ c.par 14 1 = 6 → c.par 12 2 = 0 →
       Table.free? s.trans.conns 0 connLimit = some n →
       let k : Conn := { Conn.fresh (c.par 1 1) (c.par 2 1 == 1) (BitVec.ofNat 8 (c.par 3 1)) (if c.par 4 2 = 0 then 50 else c.par 4 2) (c.par 6 2) (if c.par 8 4 = 0 then 256 else c.par 8 4) none with ipVer := c.par 14 1, peerIp := c.parB 16 16, peerMac := BitVec.ofNat 48 (beAt c.block 32 6) }
       engine = ((s.upPorts k).head?).getD k.source.2 → takeNonce engine s = some (nonce, v) →
       ∃ t q, exec (.connOpen cid) s = .next t ∧ t.conn? n = some q ∧ q.phase = .connecting ∧ q.cid = some cid ∧ q.nonceI = nonce
         ∧ q.job = c.par 1 1 ∧ q.tries = 1 ∧ s.conn? n = none ∧ (∃ d, t.cmd? cid = some d ∧ d.work = .connecting n)
         ∧ (∀ m, m ≠ n → t.conn? m = s.conn? m) ∧ t.mem = s.mem ∧ t.accum = s.accum))
   ∧ (∀ (s : State) (cid : Nat) (c : Cmd), Started s cid .connClose c → c.inl 1 1 ≤ 1 → nonZero? c.slate 34 2 = none →
     nonZero? c.slate 38 26 = none →
     (∀ k, c.inl 0 1 = 0 → s.conn? (c.inl 4 2) = some k → k.phase = .opened ∨ k.phase = .closing →
       exec (.connClose cid) s = .next (complete cid .ok 0 0 (forCommand cid (closeConn (c.inl 4 2)) s)))
     ∧ (c.inl 0 1 = 1 → Table.has s.trans.listeners (c.inl 4 2) = true →
       ∃ t, exec (.connClose cid) s = .next (complete cid .ok 0 0 t) ∧ Table.has t.trans.listeners (c.inl 4 2) = false
         ∧ (∀ m, m ≠ c.inl 4 2 → Table.get? t.trans.listeners m = Table.get? s.trans.listeners m)
         ∧ (c.inl 1 1 = 0 → ∀ n k, s.conn? n = some k → t.conn? n =
             some (if k.listener = some (c.inl 4 2) then { k with listener := none } else k))))
   ∧ (∀ (s : State) (n : Nat) (k : Conn), s.conn? n = some k →
     (k.phase = .opened → ∃ q, (closeConn n s).conn? n = some q ∧ q.phase = .closing ∧ q.msgs = [] ∧ q.recvs = []
         ∧ q.wrs = k.wrs.filter (fun w => !(k.wrs.any (fun x => x.msgId.isNone && x.id == w.id)))
         ∧ (∀ it : TxItem, it.type = 0x23 → it.data = [] →
             (k.maySend it = true → q.discPsn = some k.txPsn ∧ q.txPsn = k.txPsn + 1 ∧ q.txQueue = [])
             ∧ (k.maySend it = false → q.discPsn = k.discPsn ∧ q.txPsn = k.txPsn ∧ q.txQueue.map (·.type) = [0x23])))
     ∧ (k.phase = .closing → closeConn n s = s)
     ∧ (k.phase = .closing → k.discPsn.isSome = true → exec (.disconnectFreeTimer n) s = .next (freeConn n s) ∧ (freeConn n s).conn? n = none)
     ∧ (k.phase = .halfOpen → exec (.halfOpenTimeout n) s = .next (freeConn n s) ∧ (freeConn n s).conn? n = none)
     ∧ (k.phase = .connecting → s.transportRuns = true →
       (k.tries < 12 → exec (.connectRetryTimer n) s =
         .next (sendOn k 0 k.greeting (s.updConn n (fun c => { c with tries := c.tries + 1 }))))
       ∧ (∀ cid, 12 ≤ k.tries → k.cid = some cid → ∃ u, exec (.connectRetryTimer n) s = .next (complete cid .timeout 0 0 u)
           ∧ u.conn? n = none ∧ u.cmds = s.cmds ∧ u.mem = s.mem ∧ u.out = s.out))))
  ∧ (∀ (s : State) (n : Nat) (c : Conn), s.conn? n = some c → s.transportRuns = true →
       (c.sinceAck ≠ 0 → c.phase ≠ .connecting → exec (.ackTimer n) s = .next (sendAck n s))
       ∧ (c.unacked ≠ [] → c.expiries + 1 < 12 → exec (.retransmitTimerExpiry n) s =
           .next (resend c (c.unacked.filter (fun p => !p.sacked)) (s.updConn n (fun c => { c with expiries := c.expiries + 1 }))))
       ∧ (c.unacked ≠ [] → 12 ≤ c.expiries + 1 → exec (.retransmitTimerExpiry n) s = .next (failConn n 0 s)
           ∧ (failConn n 0 s).conn? n = none)
       ∧ (∀ msgId, c.retries.contains msgId = true → exec (.nakRetryUsExpiry n msgId) s =
           .next (resend c (c.unacked.filter (fun p => !p.sacked && BitVec.ofNat 32 (beAt p.body 16 4) == msgId))
             (s.updConn n (fun c => { c with retries := c.retries.filter (· ≠ msgId) }))))
       ∧ (∀ (p : TxPacket) i, c.link = none → s.upPorts c = [i] →
           let f := (s.port i).frame p.psn { ipVer := c.ipVer, srcMac := (s.port i).mac, dstMac := c.peerMac, srcIp := (s.port i).ip c.ipVer, dstIp := c.peerIp, body := p.body }
           (resend c [p] s).out = s.out ++ [.packet i f] ∧ f.packet.body = p.body ∧ f.hops = 64 ∧ f.ecn = 0 ∧ f.dstPort = 47300
             ∧ f.dontFragment = (c.ipVer == 4))
       ∧ (c.link = none → s.upPorts c = [] → resend c c.unacked s = s))

/-- A port is enabled and disabled by its register, comes up when its lanes lock, and narrows or goes down when lanes fail; it counts
malformed frames, and answers ARP and neighbour solicitations for its own address (R115, R116).
Completes here, with a next state as the conclusion: portEnable, portDisable, portLanesLocked, ethernetLaneFail, arpRequest,
neighbourSolicitation, malformedFrame.
What the model chooses or infers here stands in log entries 60 and 66. -/
def Obligations.PortsComeUpAndDown : Prop :=
  (∀ (s : State) (i : Nat) (v : Word32), s.barOpen = true → i < s.trans.ports.length →
    (s.side.tests = [] → ∃ t, exec (.portEnable i v) s = .next t ∧ (t.port i).enable = true ∧ (t.port i).linkUp = (s.port i).linkUp
      ∧ ((s.port i).enable = false → (t.port i).allowDegrade = v.getLsbD 1 ∧ (t.port i).ipv4En = v.getLsbD 2 ∧ (t.port i).ipv6En = v.getLsbD 3)
      ∧ ((s.port i).enable = true → t.port i = s.port i) ∧ (∀ k, k ≠ i → t.port k = s.port k)
      ∧ t = { s with trans := { s.trans with ports := t.trans.ports } })
    ∧ (∃ t, exec (.portDisable i v) s = .next t ∧ (t.port i).enable = false ∧ (t.port i).linkUp = false ∧ (t.port i).width = 0
      ∧ (t.port i).mac = (s.port i).mac ∧ (∀ k, k ≠ i → t.port k = s.port k) ∧ t.trans.conns = s.trans.conns ∧ t.mem = s.mem
      ∧ t.out = s.out))
  ∧ (∀ (s : State) (i : Nat), (s.port i).enable = true → (s.port i).linkUp = false → (s.port i).inService = true → s.side.testHold = false →
    i < s.trans.ports.length → (s.port i).degraded = false ∨ (s.port i).rearmed = true →
    ∃ t, exec (.portLanesLocked i) s = .next t ∧ (t.port i).linkUp = true ∧ (t.port i).width = 2 ∧ (t.port i).lanesGood = 15
      ∧ (∀ k, k ≠ i → t.port k = s.port k) ∧ t.trans.conns = s.trans.conns ∧ t.cmds = s.cmds ∧ t.mem = s.mem ∧ t.out = s.out)
  ∧ (∀ (s : State) (i : Nat) (lanes : BitVec 4) (fec : Bool), (s.port i).linkUp = true → (s.port i).lanesGood &&& lanes ≠ 0 →
    i < s.trans.ports.length →
    ∃ t, exec (.ethernetLaneFail i lanes fec) s = .next t ∧ (t.port i).lanesGood = (s.port i).lanesGood &&& ~~~lanes
      ∧ (2 ≤ (bitList 4 ((s.port i).lanesGood &&& ~~~lanes).toNat).length → (s.port i).allowDegrade = true →
          (t.port i).linkUp = true ∧ (t.port i).width = 1)
      ∧ ((bitList 4 ((s.port i).lanesGood &&& ~~~lanes).toNat).length < 2 ∨ (s.port i).allowDegrade = false →
          (t.port i).linkUp = false ∧ (t.port i).width = 0)
      ∧ (∀ k, k ≠ i → t.port k = s.port k) ∧ t.trans.conns = s.trans.conns ∧ t.cmds = s.cmds ∧ t.mem = s.mem ∧ t.out = s.out)
  ∧ (∀ (s : State) (i : Nat), (s.port i).linkUp = true → i < 8 →
    ((∀ why ∈ [FrameFault.pause, .tooLong, .vlan, .ipv6Extension, .ipv4Options, .fragment],
        exec (.malformedFrame i why) s = .next (s.updPort i (fun p => { p with malformed := satAdd p.malformed 1 })))
      ∧ exec (.malformedFrame i .icmp) s = .next s ∧ exec (.malformedFrame i .otherPort) s = .next s)
    ∧ (∀ why ∈ [FrameFault.checksum, .header], s.transportRuns = true →
        exec (.malformedFrame i why) s = .next (s.updPort i (fun p => { p with malformed := satAdd p.malformed 1 })))
    ∧ (∀ mac ip, (s.port i).ipv4En = true → exec (.arpRequest i (s.port i).ipv4 mac ip) s =
        .next { s with out := s.out ++ [.arpReply i (s.port i).tag (s.port i).mac (s.port i).ipv4 mac ip] })
    ∧ (∀ a mac ip, a ≠ (s.port i).ipv4 → exec (.arpRequest i a mac ip) s = .next s)
    ∧ (∀ mac ip, (s.port i).ipv6En = true → exec (.neighbourSolicitation i (s.port i).ipv6 mac ip) s =
        .next { s with out := s.out ++ [.neighbourAdvertisement i (s.port i).tag (s.port i).mac (s.port i).ipv6 mac ip] })
    ∧ (∀ a mac ip, a ≠ (s.port i).ipv6 → exec (.neighbourSolicitation i a mac ip) s = .next s))

/-! ## Received packets (chapter 06) -/

/-- A packet in a frame for a port that is up is received: a malformed one, one without a connection and one that does not verify are
counted and have no other effect; a new packet within the window and the credit counts in CUM_PSN and takes the effect of its type: WRITE
and SEND store their bytes where their region or receive request lies, READ_REQ and atomics are noted, READ_RESP and ATOMIC_RESP are
placed, NAK ends its request, DISCONNECT closes, ACK frees what it acknowledges (R115, R117 to R121, R127 to R133, R138).
Completes here, with a next state as the conclusion: write, send, readReq, readResp, atomicAdd, compareSwap, atomicResp, ackReceived,
nakReceived, connectReq, connectAccept, connectReject, disconnect.
What the model chooses or infers here stands in log entries 62, 63, 64, 66, 67 and 109. -/
def Obligations.PacketsTakeEffect : Prop :=
  (∀ (s : State) (i : Nat) (p : Packet), (s.port i).carries p.ipVer = true → p.dstMac = (s.port i).mac → p.dstIp = (s.port i).ip p.ipVer →
    let got := receive { path := i, ipVer := p.ipVer, mac := p.srcMac, ip := p.srcIp } p.body s
    (byteAt p.body 1 = 0x01 → exec (.write i p) s = .next got) ∧ (byteAt p.body 1 = 0x02 → exec (.send i p) s = .next got)
    ∧ (byteAt p.body 1 = 0x03 → exec (.readReq i p) s = .next got) ∧ (byteAt p.body 1 = 0x04 → exec (.readResp i p) s = .next got)
    ∧ (byteAt p.body 1 = 0x05 → exec (.atomicAdd i p) s = .next got) ∧ (byteAt p.body 1 = 0x06 → exec (.compareSwap i p) s = .next got)
    ∧ (byteAt p.body 1 = 0x07 → exec (.atomicResp i p) s = .next got) ∧ (byteAt p.body 1 = 0x10 → exec (.ackReceived i p) s = .next got)
    ∧ (byteAt p.body 1 = 0x11 → exec (.nakReceived i p) s = .next got) ∧ (byteAt p.body 1 = 0x20 → exec (.connectReq i p) s = .next got)
    ∧ (byteAt p.body 1 = 0x21 → exec (.connectAccept i p) s = .next got) ∧ (byteAt p.body 1 = 0x22 → exec (.connectReject i p) s = .next got)
    ∧ (byteAt p.body 1 = 0x23 → exec (.disconnect i p) s = .next got))
  ∧ (∀ (s : State) (a : Arrival) (b : Bytes), s.transportRuns = true →
    (packetOk b = false → receive a b s = drop a.path 2 s)
    ∧ (packetOk b = true → (headOf b).type ≠ 0x20 → (headOf b).type ≠ 0x21 → (headOf b).type ≠ 0x22 →
      (s.conn? (headOf b).dst = none → receive a b s = drop a.path 1 s)
      ∧ (∀ c, s.conn? (headOf b).dst = some c → c.takes a.path (headOf b).type = true →
        (c.openPacket b = none → receive a b s = drop a.path 0 s)
        ∧ (∀ data, c.openPacket b = some data → (headOf b).type = 0x10 → receive a b s = ackIn a (headOf b).dst (headOf b) b s)
        ∧ (∀ data, c.openPacket b = some data → (headOf b).type ≠ 0x10 →
          let h := headOf b
          let units := txUnits h.type h.bytes
          c.rxCum ≤ h.psn → h.psn < c.rxCum + 4096 → c.rxSet.contains h.psn = false → c.windowMode = true ∨ c.rxUnits + units ≤ c.granted →
          s.contexts < 131072 → s.windowIngest c h = false →
          ∃ u v, receive a b s = creditMoved (ackDue h.dst (h.flags.testBit 2 || h.type == 0x23) v) ∧ u.mem = s.mem ∧ u.out = s.out
            ∧ u.conn? h.dst = some (({ c with phase := if c.phase = .halfOpen then .opened else c.phase } : Conn).receivePsn h.psn units)
            ∧ (h.type ∈ [0x01, 0x02, 0x03, 0x05, 0x06] → v = requestIn a h.dst units h data u)
            ∧ (h.type = 0x04 → v = readRespIn a h.dst h data u) ∧ (h.type = 0x07 → v = atomicRespIn a h.dst h data u)
            ∧ (h.type = 0x11 → v = nakIn a h.dst b u) ∧ (h.type = 0x23 → v = disconnectIn a h.dst u)
            ∧ (h.psn = c.rxCum → c.rxSet = [] →
                (c.receivePsn h.psn units).rxCum = h.psn + 1 ∧ (c.receivePsn h.psn units).rxSet = [])))))
  ∧ (∀ (s : State) (a : Arrival) (n units : Nat) (h : Head) (data : Bytes) (c : Conn), s.conn? n = some c → c.msg? h.msgId = none →
    before32 h.msgId c.cumMsg = false → s.faults.outOfService = false →
    let t := requestIn a n units h data s
    (∀ i r, h.type = 0x01 → s.access c.job h.rkey h.raddr h.len h.need false = .inr (i, r) → r.space ≠ .host →
      (r.space = .ingest → unitsOf h.len ≤ c.creditInit) →
      t.mem = memStore s.mem (r.base + h.raddr + h.off) data
      ∧ (∃ q k, t.conn? n = some q ∧ q.msg? h.msgId = some k ∧ k.failed = false ∧ k.len = h.len
          ∧ k.units = (List.range (unitsOf h.bytes)).map (fun j => h.off / 4096 + j)))
    ∧ (∀ w rest i r, h.type = 0x02 → c.recvs = w :: rest → h.len ≤ w.len →
      s.access c.job w.lkey w.laddr w.len (rightW ||| (if h.trigger then rightT else 0)) false = .inr (i, r) → r.space ≠ .host →
      (r.space = .ingest → unitsOf h.len ≤ c.creditInit) →
      t.mem = memStore s.mem (r.base + w.laddr + h.off) data
      ∧ (∃ q k, t.conn? n = some q ∧ q.recvs = rest.filter (fun x => x.id ≠ w.id) ∧ q.msg? h.msgId = some k ∧ k.recv = some w))
    ∧ (∀ i r, h.type = 0x03 ∨ h.type = 0x05 ∨ h.type = 0x06 →
      s.access c.job h.rkey h.raddr h.len h.need (h.type == 0x05 || h.type == 0x06) = .inr (i, r) → r.space ≠ .ingest →
      t.mem = s.mem ∧ (∃ q k, t.conn? n = some q ∧ q.msg? h.msgId = some k ∧ k.complete = true ∧ k.failed = false
          ∧ (h.type ≠ 0x03 → k.data = [(0, data)])))
    ∧ (∀ st, h.type = 0x01 → s.access c.job h.rkey h.raddr h.len h.need false = .inl st →
      t.mem = s.mem ∧ (∃ q, t.conn? n = some q
        ∧ (h.msgId = c.cumMsg → q.msg? h.msgId = none)
        ∧ (h.msgId ≠ c.cumMsg → (∀ k, c.msg? c.cumMsg = some k → k.failed = false) →
            ∃ k, q.msg? h.msgId = some k ∧ k.failed = true))))
  ∧ (∀ (s : State) (a : Arrival) (n : Nat) (h : Head) (b data : Bytes) (c : Conn) (w : WorkReq), s.conn? n = some c →
    c.started? h.msgId = some w →
    (∀ r, w.kind = 2 → h.len = w.len → s.localRegion w = some r → r.space ≠ .host →
      h.span.any (fun u => w.units.contains u) = false →
      (readRespIn a n h data s).mem = memStore s.mem (r.base + (w.laddr + h.off)) data)
    ∧ (∀ r, w.kind = 3 ∨ w.kind = 4 → s.localRegion w = some r → r.space ≠ .host →
      (atomicRespIn a n h data s).mem = memStore s.mem (r.base + w.laddr) (toLE 8 (beNat data))
      ∧ (∃ q, (atomicRespIn a n h data s).conn? n = some q ∧ q.wrs = c.wrs.filter (fun x => x.id ≠ w.id)))
    ∧ (c.windowMode = false → h.msgId = BitVec.ofNat 32 (beAt b 16 4) →
      (nakIn a n b s).mem = s.mem ∧ (∃ q, (nakIn a n b s).conn? n = some q ∧ q.wrs = c.wrs.filter (fun x => x.id ≠ w.id))))
  ∧ (∀ (s : State) (a : Arrival) (n : Nat) (h : Head) (b : Bytes) (c : Conn), s.conn? n = some c →
    (c.phase = .opened → disconnectIn a n s = closeConn n (connErrorAt (pathSource a.path) n 3 0 s))
    ∧ (c.rxCtl = none → c.txQueue = [] → c.wrs = [] → c.discPsn = none →
      ∃ q, (ackIn a n h b s).conn? n = some q ∧ (∀ p ∈ q.unacked, beAt b 16 8 ≤ p.psn) ∧ q.rxCtl = some (h.psn % 2 ^ 63)
        ∧ (∀ p ∈ c.unacked, beAt b 16 8 ≤ p.psn → ∃ p' ∈ q.unacked, p'.psn = p.psn ∧ p'.body = p.body)
        ∧ q.txLimit = (if before32 c.txLimit (BitVec.ofNat 32 (beAt b 36 4)) then BitVec.ofNat 32 (beAt b 36 4) else c.txLimit)
        ∧ (ackIn a n h b s).mem = s.mem ∧ (ackIn a n h b s).out = s.out))

/-- The complete message CUM_MSG becomes visible, adds one to its trigger and leaves the reassembly; an incomplete one stays, and
fails with TIMEOUT when its timer expires (R133 to R136).
Completes here, with a next state as the conclusion: reassemblyTimerExpiry, messageVisible.
What the model chooses or infers here stands in log entries 64 and 112. -/
def Obligations.MessagesBecomeVisible : Prop :=
  (∀ (s : State) (n : Nat) (c : Conn) (k : RxMsg), s.transportRuns = true → s.conn? n = some c → c.msgs = [(c.cumMsg.toNat, k)] →
    (k.failed = false → k.complete = false → exec (.messageVisible n) s = .next s)
    ∧ (∀ r jb, k.failed = false → k.complete = true → k.type ≤ 2 → Table.get? s.trans.regions (k.key.toNat / 256) = some r →
      r.space = .device → s.job? c.job = some jb →
      ∃ t q j, exec (.messageVisible n) s = .next t ∧ t.conn? n = some q ∧ q.msgs = [] ∧ q.cumMsg = c.cumMsg + 1
        ∧ t.job? c.job = some j ∧ j.trigs = (if k.trigger then jb.trigs.modify k.trigId (· + 1) else jb.trigs)
        ∧ t.mem = s.mem ∧ t.ingest = s.ingest ∧ t.out = s.out ∧ t.accum.groups = s.accum.groups)
    ∧ (∀ r addr, k.failed = false → k.complete = true → k.type = 0x05 ∨ k.type = 0x06 →
      Table.get? s.trans.regions (k.key.toNat / 256) = some r → addr = r.base + k.raddr → poisoned s.mem addr 8 = false →
      ∃ t, exec (.messageVisible n) s = .next t ∧ t.mem = memStore s.mem addr (toLE 8 (applyAtomic k (leNat (memReads s.mem addr 8)))))
    ∧ (k.failed = true → ∃ t q, exec (.messageVisible n) s = .next t ∧ t.conn? n = some q ∧ q.msgs = [] ∧ q.cumMsg = c.cumMsg + 1
        ∧ t.mem = s.mem ∧ t.out = s.out))
  ∧ (∀ (s : State) (n : Nat) (c : Conn) (k : RxMsg) (m : Word32), s.transportRuns = true → s.conn? n = some c → c.msg? m = some k →
    k.failed = false → k.complete = false →
    ∃ t q, exec (.reassemblyTimerExpiry n m) s = .next t ∧ t.conn? n = some q ∧ t.mem = s.mem ∧ t.accum = s.accum
      ∧ (m = c.cumMsg → c.msgs = [(m.toNat, k)] → q.msgs = [] ∧ q.cumMsg = c.cumMsg + 1)
      ∧ (m ≠ c.cumMsg → c.msg? c.cumMsg = none → q.cumMsg = c.cumMsg ∧ ∃ e, q.msg? m = some e ∧ e.failed = true ∧ e.units = []))

/-- A CONNECT_REQ that verifies makes a half-open connection with the keys of both nonces and is answered by CONNECT_ACCEPT; one
whose ICV is wrong is counted and has no other effect. A verified CONNECT_ACCEPT opens the connection and completes CONN_OPEN with its
number; a CONNECT_REJECT removes it and completes CONN_OPEN with the status it carries (R121 to R124).
What the model chooses or infers here stands in log entry 69. -/
def Obligations.HandshakesConnect : Prop :=
  (∀ (s : State) (a : Arrival) (b : Bytes) (jb : Job), s.transportRuns = true → packetOk b = true → (headOf b).type = 0x20 →
    s.job? (byteAt b 16) = some jb →
    let j := byteAt b 16
    let h := headOf b
    let secret := s.connSecret j (if a.path < 8 then none else some (a.path - 8))
    let mac := gcmMac (hsKey secret j) ((slice b 24 16).take 12) (b.take 56) []
    (b.drop 56 ≠ mac → receive a b s = drop a.path 0 s)
    ∧ (∀ x n nonce v, b.drop 56 = mac → s.faults.outOfService = false →
      (s.trans.conns.find? (fun e => !e.2.initiator && e.2.job == j && e.2.nonceI == slice b 24 16 && e.2.peerConn == h.src)) = none →
      s.acceptor a j (h.flags.testBit 1) = some x → Table.free? s.trans.conns 0 connLimit = some n → takeNonce a.path s = some (nonce, v) →
      ∃ t q, receive a b s = t ∧ t.conn? n = some q ∧ q.phase = .halfOpen ∧ q.initiator = false ∧ q.job = j ∧ q.peerConn = h.src
        ∧ q.nonceI = slice b 24 16 ∧ q.nonceR = nonce ∧ q.okm = connOkm secret (slice b 24 16) nonce j h.src n
        ∧ q.creditInit = x.creditInit ∧ q.txLimit = BitVec.ofNat 32 (beAt b 20 4) ∧ (∀ m, m ≠ n → t.conn? m = s.conn? m)
        ∧ (a.path < 8 → ∃ f, t.out = s.out ++ [.packet a.path f] ∧ f.packet.dstMac = a.mac ∧ f.packet.dstIp = a.ip
            ∧ f.packet.body = q.greeting)
        ∧ t.mem = s.mem ∧ t.cmds = s.cmds))
  ∧ (∀ (s : State) (a : Arrival) (b : Bytes) (c : Conn) (secret : Bytes), s.transportRuns = true → packetOk b = true →
    s.answers? a (headOf b) b = .inr (c, secret) →
    let n := (headOf b).dst
    (∀ cid, (headOf b).type = 0x21 → c.cid = some cid →
      ∃ t q, receive a b s = complete cid .ok 0 n t ∧ t.conn? n = some q ∧ q.phase = .opened ∧ q.cid = none ∧ q.peerConn = (headOf b).src
        ∧ q.nonceR = slice b 40 16 ∧ q.okm = connOkm secret c.nonceI (slice b 40 16) c.job n (headOf b).src
        ∧ q.txLimit = BitVec.ofNat 32 (beAt b 20 4) ∧ (∀ m, m ≠ n → t.conn? m = s.conn? m)
        ∧ t = { s with trans := { s.trans with conns := t.trans.conns } })
    ∧ (∀ cid, (headOf b).type = 0x22 → c.cid = some cid →
      ∃ t, receive a b s = completeCode cid (beAt b 18 2) 0 0 t ∧ t.conn? n = none ∧ (∀ m, m ≠ n → t.conn? m = s.conn? m)
        ∧ t.cmds = s.cmds ∧ t.mem = s.mem ∧ t.out = s.out))

/-! ## Power-up, resets and the sideband (chapters 14 and 19) -/

/-- Power-up runs its steps in order and stops at the first that fails: the bus and rails at steps 2 and 3, Vilmin once PWR_OK
qualifies at steps 4 and 5, the generator at step 6 and the firmware at step 7. A retry starts the rails again (R282, R367, R368, R426, R429).
Completes here, with a next state as the conclusion: powerApplied, intermediateBusRetry, pwrOkQualify, rngStartupTestDone, pwrOkRelease.
What the model chooses or infers here stands in log entries 43 and 103. -/
def Obligations.PowerUpRunsItsSteps : Prop :=
  (∀ s : State, s.power.railsOn = false → s.power.tripped = false → s.side.step = 0 →
    ∃ u, exec .powerApplied s = .next (busSteps s.side.health.busGood s.side.health.railsGood u) ∧ u.side.step = 1
      ∧ u.side.halted = false ∧ u.time.ptime = 0 ∧ u.out = s.out ++ [.uart (some 1) 0 true] ∧ u.mem = s.mem ∧ u.trust = s.trust
      ∧ u.power = s.power)
  ∧ (∀ (s : State) (bus rails : Bool), s.side.halted = true → s.side.step = 1 ∨ s.side.step = 2 →
    exec (.intermediateBusRetry bus rails) s = .next (busSteps bus rails s))
  ∧ (∀ (s : State) (rails : Bool),
    ((busSteps false rails s).side.halted = true ∧ (busSteps false rails s).side.step = s.side.step
      ∧ (busSteps false rails s).out = s.out ++ [.uart (some 2) s.ms false] ∧ (busSteps false rails s).power = s.power)
    ∧ ((busSteps true false s).side.halted = true ∧ (busSteps true false s).side.step = 2 ∧ (busSteps true false s).power = s.power)
    ∧ (s.side.qualified = 0 → s.side.testHold = false →
        (busSteps true true s).side.step = 3 ∧ (busSteps true true s).side.halted = false ∧ (busSteps true true s).power.railsOn = true
        ∧ (∀ f ∈ (busSteps true true s).power.fields, f.mv = 750) ∧ (busSteps true true s).pcie.ready = true
        ∧ (busSteps true true s).pcie.linkUp = true ∧ (busSteps true true s).mem = s.mem ∧ (busSteps true true s).trust = s.trust))
  ∧ (∀ s : State, s.mayQualify 4 true = true →
    ∃ t, exec .pwrOkQualify s = .next t ∧ t.side.qualified = s.side.qualified ||| 16
      ∧ (s.side.step = 3 → s.side.health.romGood = true → t.side.step = 5 ∧ t.rng.testing = true ∧ t.side.slotId = s.side.slotPins
          ∧ t.side.smbAddr = 0x20 + s.side.slotPins.setWidth 7)
      ∧ (s.side.step = 3 → s.side.health.romGood = false → t.side.step = 4 ∧ t.side.halted = true ∧ t.romDead = true)
      ∧ (s.side.step ≠ 3 → t.side.step = s.side.step ∧ t.out = s.out)
      ∧ t.mem = s.mem ∧ t.trust = s.trust ∧ t.rings = s.rings)
  ∧ (∀ s : State, s.mayQualify 4 false = true →
    ∃ t, exec .pwrOkRelease s = .next t ∧ t.side.qualified = s.side.qualified &&& ~~~16 ∧ t = { s with side := t.side })
  ∧ (∀ (s : State) (samples : List Bytes) (kat : Bool), s.rng.mode = .unseeded → s.rng.testing = true → s.side.step = 5 →
    (failing samples ≠ 0 ∨ kat = false → ∃ t, exec (.rngStartupTestDone samples kat) s = .next t ∧ t.side.halted = true
        ∧ t.side.step = 5 ∧ t.rng.mode = .unseeded ∧ t.trust = s.trust ∧ t.mem = s.mem)
    ∧ (failing samples = 0 → kat = true → ∃ u, exec (.rngStartupTestDone samples kat) s = .next (bootFirmware s.side.health u)
        ∧ u.side.step = 6 ∧ u.rng.mode = .ready ∧ u.trust.bootId.isSome = (s.rng.bootSeeded == false || s.trust.bootId.isSome)
        ∧ u.mem.cells = s.mem.cells ∧ u.trust.fuses = s.trust.fuses ∧ u.trust.flash = s.trust.flash))
  ∧ (∀ (s : State) (h : Health),
    let f := s.trust.fuses
    let l := s.trust.flash
    let d : State := { s with trust := { s.trust with identity := true, certOk := certValid f s.idPk l.cert } }
    bootFlash f l = (if imageValid f l.activeImage = true then some l else if imageValid f l.toggle.activeImage = true then some l.toggle else none)
    ∧ bootFirmware h s = (match bootFlash f l with
        | some k => bringUp h (stepDone 7 (loadImage { d with trust := { d.trust with flash := k } }))
        | none => stepFails 7 { d with trust := { d.trust with romMode := true } })
    ∧ (imageValid f l.activeImage = false → imageValid f l.toggle.activeImage = false →
        (bootFirmware h s).trust.romMode = true ∧ (bootFirmware h s).side.halted = true
        ∧ (bootFirmware h s).trust.flash = l ∧ (bootFirmware h s).side.step = s.side.step ∧ (bootFirmware h s).mem = s.mem))

/-- ZEROIZE_N erases the tenant and the enrolment pair and returns the generator to UNSEEDED, and its release posts its event. An
assertion that ends too soon is counted. The loss of the sideband's supply trips the device (R302, R323, R429, R448).

A PERST_N warm reset, a hot reset or the loss of the link, and FLR lose the rings, the commands before their commit points, the
transport, the staging map and the dailies, and keep memory, the tenant and its groups; FLR keeps the link and configuration goes on. The warm reset ends with PERST_N, and
configuration is ready again (R97, R114, R142, R368, R374, R375, R427, R428).
Completes here, with a next state as the conclusion: zeroizeNAssert, zeroizeNRelease, vio3v3Loss, perstNAssert, perstNRelease,
sidebandUnqualified, hotResetOrDlDown, flr.
What the model chooses or infers here stands in log entries 7, 95 and 118. -/
def Obligations.PinsAndWarmResets : Prop :=
  ((∀ s : State, s.mayQualify 0 true = true →
     ∃ t, exec .zeroizeNAssert s = .next t ∧ t.trust.tenant = none ∧ t.trust.owner = none ∧ t.trust.store = [] ∧ t.trust.macKey = [] ∧ t.trust.set = none
       ∧ t.trust.enrol = none ∧ t.trust.zeroizes = satAdd s.trust.zeroizes 1 ∧ t.trust.fuses = s.trust.fuses ∧ t.accum.jobs = []
       ∧ t.accum.groups = [] ∧ t.masks.ledgers = [] ∧ t.gate.items = [] ∧ t.ingest.msgs = [] ∧ t.ingest.sessions = []
       ∧ t.trans.conns = [] ∧ t.mem.cells = [] ∧ t.mem.allocs = [] ∧ (s.rng.bootSeeded = true → t.rng.mode = .unseeded)
       ∧ t.side.qualified = s.side.qualified ||| 1 ∧ t.side.zeroizeSince = s.time.ptime.toNat)
   ∧ (∀ s : State, s.mayQualify 0 false = true →
     ∃ t, exec .zeroizeNRelease s = .next t ∧ t.side.qualified = s.side.qualified &&& ~~~1 ∧ t.trust = s.trust ∧ t.accum = s.accum
       ∧ t.mem = s.mem ∧ t.cmds = s.cmds ∧ t.rings = s.rings ∧ t.out = s.out)
   ∧ (∀ (s : State) (i : Nat), s.samples i = true → s.side.qualified.getLsbD i = false → i < s.side.counts.length →
     ∃ t, exec (.sidebandUnqualified i) s = .next t ∧ t = { s with side := { s.side with counts := t.side.counts } }
       ∧ unit t.side.counts i = ((unit s.side.counts i).1, satAdd (unit s.side.counts i).2 1)
       ∧ (∀ k, k ≠ i → unit t.side.counts k = unit s.side.counts k))
   ∧ (∀ s : State, s.mayQualify 2 true = true →
     ∃ t, exec .vio3v3Loss s = .next t ∧ t.power.tripped = true ∧ t.power.railsOn = false ∧ t.side.tripDriven = true ∧ t.cmds = []
       ∧ t.mem.cells = [] ∧ t.trust.fuses = s.trust.fuses))
  ∧ (let lost (s t : State) : Prop :=
       t.rings = List.replicate 64 Ring.reset ∧ (∀ e ∈ t.cmds, e.2.phase = .committed ∧ e.2.silent = true) ∧ t.trans.conns = []
       ∧ t.trans.listeners = [] ∧ (∀ e ∈ t.trans.regions, e.2.revoking = true) ∧ t.mem.staging = List.replicate 8 none
       ∧ t.counters.dailies = false ∧ t.reel.enabled = false ∧ t.pcie.addrBits = s.pcie.addrBits ∧ t.pcie.busMaster = false
       ∧ t.pcie.memSpace = false ∧ t.pcie.msixEnable = false ∧ t.mem.cells = s.mem.cells ∧ t.trust.tenant = s.trust.tenant
       ∧ t.trust.fuses = s.trust.fuses ∧ t.accum.jobs = s.accum.jobs ∧ t.power = s.power
     (∀ s : State, s.mayQualify 3 true = true → ∃ t, exec .perstNAssert s = .next t ∧ lost s t ∧ t.side.inWarmReset = true
         ∧ t.pcie.ready = false ∧ t.side.qualified = s.side.qualified ||| 8)
     ∧ (∀ s : State, s.mayQualify 3 false = true → s.side.testHold = false → s.power.railsOn = true →
         ∃ t, exec .perstNRelease s = .next t ∧ t.side.inWarmReset = false ∧ t.pcie.ready = true ∧ t.pcie.linkUp = true
           ∧ 1 ≤ t.pcie.speed.toNat ∧ t.pcie.speed.toNat ≤ 5 ∧ (t.pcie.width = 8 ∨ t.pcie.width = 16)
           ∧ t.side.qualified = s.side.qualified &&& ~~~8 ∧ t.mem = s.mem ∧ t.rings = s.rings ∧ t.trust = s.trust)
     ∧ (∀ s : State, s.pcie.ready = true → s.side.qualified.getLsbD 3 = false → s.side.testHold = false → s.power.railsOn = true →
         ∃ t, exec .hotResetOrDlDown s = .next t ∧ lost s t ∧ t.side.inWarmReset = false ∧ t.pcie.ready = true ∧ t.pcie.linkUp = true)
     ∧ (∀ s : State, s.pcie.ready = true → ∃ t, exec .flr s = .next t ∧ lost s t ∧ t.pcie.ready = true ∧ t.pcie.speed = s.pcie.speed
         ∧ t.pcie.width = s.pcie.width ∧ t.pcie.linkUp = s.pcie.linkUp ∧ t.pcie.reads = s.pcie.reads
         ∧ t.side.inWarmReset = s.side.inWarmReset ∧ t.side.step = s.side.step ∧ t.side.qualified = s.side.qualified))

/-- The sideband answers MCTP from step 4 and PLDM from step 8: identities are set and read back, sensors read what the PWR_ registers
show, and effecter 100 sets the sideband cap (R341, R431, R432).

The TAP takes its instruction while the rails are on: IDCODE and the sampling ones disturb nothing, the boundary ones hold the device
in test hold with ports and links down, SCAN_ENTER zeroizes first, and DBG_READ returns no protected line. Test logic reset leaves test
hold and a warm restart falls due (R305, R423, R433, R434).
Completes here, with a next state as the conclusion: setEndpointId, getEndpointId, getMctpVersionSupport, getMessageTypeSupport, gettid,
settid, getpldmversion, getpldmtypes, getpldmcommands, getpdr, getpdrrepositoryinfo, getsensorreading, setnumericeffectervalue,
getnumericeffectervalue, idcode, samplePreload, extest, extestPulse, extestTrain, clamp, highz, dbgRead, scanEnter, bypass,
testLogicReset.
What the model chooses or infers here stands in log entries 44, 46 and 97. -/
def Obligations.TheSidebandAndTheTapAnswer : Prop :=
  ((∀ (s : State) (op eid : BitVec 8), 4 ≤ s.side.step.toNat →
     (op.toNat < 2 → eid ≠ 0 → eid ≠ 0xFF → exec (.setEndpointId op eid) s =
       .next { s with side := { s.side with eid := eid }, out := s.out ++ [.sideReply 0 [0, eid, 0]] })
     ∧ (2 ≤ op.toNat ∨ eid = 0 ∨ eid = 0xFF → exec (.setEndpointId op eid) s = .next { s with out := s.out ++ [.sideReply 2 []] })
     ∧ exec .getEndpointId s = .next { s with out := s.out ++ [.sideReply 0 [s.side.eid, 0, 0]] }
     ∧ exec .getMctpVersionSupport s = .next { s with out := s.out ++ [.sideReply 0 (Config.sidebandData 0x04 0)] }
     ∧ exec .getMessageTypeSupport s = .next { s with out := s.out ++ [.sideReply 0 [2, 0, 1]] }
     ∧ (s.side.step.toNat < 8 → exec .gettid s = .next { s with out := s.out ++ [.sideReply 4 []] }))
   ∧ (∀ (s : State) (op eid : BitVec 8), s.side.step.toNat < 4 → exec (.setEndpointId op eid) s = .next s ∧ exec .gettid s = .next s)
   ∧ (∀ (s : State) (tid type : BitVec 8) (record : Word32) (id value : BitVec 16), 8 ≤ s.side.step.toNat →
     exec .gettid s = .next { s with out := s.out ++ [.sideReply 0 [s.side.tid]] }
     ∧ (tid ≠ 0 → tid ≠ 0xFF → exec (.settid tid) s =
         .next { s with side := { s.side with tid := tid }, out := s.out ++ [.sideReply 0 []] })
     ∧ exec (.getpldmversion type) s = .next { s with out := s.out ++
         [if type = 0 ∨ type = 2 then .sideReply 0 (Config.sidebandData 0x103 type.toNat) else .sideReply 0x83 []] }
     ∧ exec .getpldmtypes s = .next { s with out := s.out ++ [.sideReply 0 [5, 0, 0, 0, 0, 0, 0, 0]] }
     ∧ (∃ m, m.length = 32 ∧ exec (.getpldmcommands 0) s = .next { s with out := s.out ++ [.sideReply 0 m] } ∧ byteAt m 0 = 0x3E)
     ∧ (∃ m, m.length = 32 ∧ exec (.getpldmcommands 2) s = .next { s with out := s.out ++ [.sideReply 0 m] } ∧ byteAt m 6 = 6)
     ∧ exec (.getpdr record) s = .next { s with out := s.out ++ [.sideReply 0 (Config.sidebandData 0x251 record.toNat)] }
     ∧ exec .getpdrrepositoryinfo s = .next { s with out := s.out ++ [.sideReply 0 (Config.sidebandData 0x250 0)] }
     ∧ exec (.getsensorreading 3) s = .next { s with out := s.out ++ [.sideReply 0 (toLE 2 (field s.pwrInput 32 16).toNat)] }
     ∧ (∀ f < 4, exec (.getsensorreading (BitVec.ofNat 16 (10 + f))) s =
         .next { s with out := s.out ++ [.sideReply 0 (toLE 2 (field (s.pwrField f) 16 8).toNat)] })
     ∧ (s.sensor? id.toNat = none → exec (.getsensorreading id) s = .next { s with out := s.out ++ [.sideReply 0x80 []] })
     ∧ exec (.getnumericeffectervalue 100) s = .next { s with out := s.out ++ [.sideReply 0 (toLE 2 s.power.sideCap.toNat)] }
     ∧ (value = 0 ∨ 250 ≤ value.toNat ∧ value.toNat ≤ 750 → ∃ t, exec (.setnumericeffectervalue 100 value) s = .next t
         ∧ t.power.sideCap = value.setWidth 10 ∧ t.power.hostCap = s.power.hostCap ∧ t.mem = s.mem ∧ t.accum = s.accum
         ∧ t.cmds = s.cmds ∧ t.trust = s.trust)
     ∧ (value ≠ 0 → value.toNat < 250 ∨ 750 < value.toNat →
         exec (.setnumericeffectervalue 100 value) s = .next { s with out := s.out ++ [.sideReply 2 []] })))
  ∧ ((∀ s : State, s.power.railsOn = true →
       let sel (i : TapInstr) : State := { s with side := { s.side with tap := i } }
       exec .idcode s = .next { sel .idcode with out := s.out ++ [.tapIdcode s.trust.fuses.idcode] }
       ∧ s.trust.fuses.idcode &&& 0xFFF = 0xDEB
       ∧ exec .samplePreload s = .next (sel .samplePreload) ∧ exec .bypass s = .next (sel .bypass)
       ∧ exec .extest s = .next (enterHold (sel .extest)) ∧ exec .extestPulse s = .next (enterHold (sel .extestPulse))
       ∧ exec .extestTrain s = .next (enterHold (sel .extestTrain)) ∧ exec .clamp s = .next (enterHold (sel .clamp))
       ∧ exec .highz s = .next (enterHold (sel .highz))
       ∧ (s.side.testHold = false → (enterHold s).side.testHold = true ∧ (enterHold s).side.inWarmReset = true
           ∧ (∀ p ∈ (enterHold s).trans.ports, p.linkUp = false) ∧ (∀ l ∈ (enterHold s).warp.links, l.up = false)
           ∧ (enterHold s).trust.tenant = s.trust.tenant ∧ (enterHold s).mem.cells = s.mem.cells)
       ∧ (s.side.testHold = true → enterHold s = s)
       ∧ (∃ t, exec .scanEnter s = .next t ∧ t.trust.tenant = none ∧ t.trust.enrol = none ∧ t.accum.groups = [] ∧ t.mem.cells = []
           ∧ t.faults.warm.isSome = true ∧ t.side.testHold = true ∧ t.side.tap = .scanEnter)
       ∧ (s.side.testHold = false → exec .testLogicReset s = .next (sel .idcode))
       ∧ (s.side.testHold = true → ∃ t, exec .testLogicReset s = .next t ∧ t.side.testHold = false ∧ t.faults.warm.isSome = true
           ∧ t.side.tap = .idcode ∧ t.mem = s.mem ∧ t.trust = s.trust))
     ∧ (∀ (s : State) (addr : Nat), s.power.railsOn = true →
       let a := addr / 64 * 64
       (s.presentMem a 64 = true → protectedAddr a = false → poisoned s.mem a 64 = false →
         ∃ t, exec (.dbgRead addr) s = .next t ∧ t.out = s.out ++ [.tapLine (memReads s.mem a 64)] ∧ t.counters = s.counters
           ∧ t.mem = s.mem ∧ t.reel = s.reel)
       ∧ (s.presentMem a 64 = true → protectedAddr a = true →
         ∃ t, exec (.dbgRead addr) s = .next t ∧ t.out = s.out ++ [.tapLine (zeros 64)]
           ∧ t.counters.denied = satAdd s.counters.denied 1 ∧ t.mem = s.mem ∧ t.rings = s.rings)))

/-- LINK_TEST commits when its pattern starts: a crossing channel leaves service and the lines of a bobbin channel are overwritten; its
end writes 160 bytes and completes, and the channel returns. SELF_TEST commits when its first test starts, overwrites bobbin memory where
it is asked to, and completes with 64 bytes (R436 to R442).
Completes here, with a next state as the conclusion: linkTest, linkTestEnd, selfTest, selfTestEnd.
What the model chooses or infers here stands in log entry 45. -/
def Obligations.TestsRunAndEnd : Prop :=
  (∀ (s : State) (cid : Nat) (c : Cmd), Started s cid .linkTest c → firstBad (linkTestChecks c) = none →
    (∀ x ∈ linkTestRefusals c s, x.1 = true) → 160 ≤ c.inl 8 4 → s.inReach (c.inl 0 8) (c.inl 8 4) = true →
    let test : LinkTest := { cid := cid, target := c.inl 16 1, unit := c.inl 17 1, lanes := c.inl 18 2 }
    ∃ t d, exec (.linkTest cid) s = .next t ∧ t.side.tests = s.side.tests ++ [test] ∧ t.cmd? cid = some d ∧ d.phase = .committed
      ∧ (c.inl 16 1 ≠ 2 → t.mem = s.mem)
      ∧ (c.inl 16 1 = 2 → ∀ a, (stackOf a).1 ≠ c.inl 17 1 → memRead t.mem a = memRead s.mem a)
      ∧ (c.inl 16 1 = 3 → 2 * c.inl 17 1 + c.inl 18 2 / 64 < s.faults.crossings.length →
          (unit t.faults.crossings (2 * c.inl 17 1 + c.inl 18 2 / 64)).inService.getLsbD (c.inl 18 2 % 64) = false)
      ∧ t.accum = s.accum ∧ t.trust = s.trust ∧ t.rings = s.rings ∧ t.out = s.out)
  ∧ (∀ (s : State) (cid : Nat) (c : Cmd) (t : LinkTest) (lanes : List LaneResult) (wf : BitVec 34),
    s.side.tests.find? (fun t => t.cid == cid) = some t → s.cmd? cid = some c → c.silent = false →
    ∃ u out, exec (.linkTestEnd cid lanes wf) s = .next u ∧ out.length = 160 ∧ u.cmd? cid = none ∧ t ∉ u.side.tests
      ∧ byteAt out 0 = t.target % 256 ∧ u.mem.cells = s.mem.cells ∧ u.accum = s.accum ∧ u.trust = s.trust
      ∧ (s.shuttleOpen = true → s.inReach (leAt c.slate 32 8) 160 = true →
          u.out = s.out ++ [.hostWrite (leAt c.slate 32 8) out (s.pcie.roBulk && s.pcie.relaxedOrdering)])
      ∧ (t.target = 3 → 2 * t.unit + t.lanes / 64 < s.faults.crossings.length →
          (unit s.faults.crossings (2 * t.unit + t.lanes / 64)).retired.getLsbD (t.lanes % 64) = false →
          (unit u.faults.crossings (2 * t.unit + t.lanes / 64)).inService.getLsbD (t.lanes % 64) = true))
  ∧ (∀ (s : State) (cid : Nat) (c : Cmd), Started s cid .selfTest c → c.inl 0 8 % 64 = 0 → nonZero? c.slate 44 4 = none →
    c.inl 16 4 < 128 → nonZero? c.slate 52 12 = none →
    (s.trust.tenant = none ∨ bitList 7 (c.inl 16 4) = (bitList 7 (c.inl 16 4)).filter (fun b => b == 1 || b == 5)) →
    s.side.selfTest = none → 64 ≤ c.inl 8 4 → s.inReach (c.inl 0 8) (c.inl 8 4) = true →
    ∃ t d, exec (.selfTest cid) s = .next t ∧ t.side.selfTest = some cid ∧ t.cmd? cid = some d ∧ d.phase = .committed
      ∧ ((c.inl 16 4).testBit 3 = false → t.mem = s.mem)
      ∧ ((c.inl 16 4).testBit 3 = true → ∀ a b, (stackOf a).1 = b → b < 8 → (s.stack b).inService = true → cell? t.mem.cells a = none)
      ∧ t.accum = s.accum ∧ t.trust = s.trust ∧ t.rings = s.rings ∧ t.out = s.out)
  ∧ (∀ (s : State) (cid : Nat) (c : Cmd) (failed : BitVec 7) (ms : Nat), s.cmd? cid = some c → s.side.selfTest = some cid →
    c.silent = false →
    (∀ failing, exec (.selfTestEnd cid failing failed ms) s = .next (selfTestEnd cid c failing failed ms s))
    ∧ ∃ u out, exec (.selfTestEnd cid [] failed ms) s = .next u ∧ out.length = 64 ∧ leAt out 0 4 = c.inl 16 4 ∧ leAt out 8 4 = 0
      ∧ leAt out 4 4 = failed.toNat &&& c.inl 16 4 ∧ u.cmd? cid = none ∧ u.mem.cells = s.mem.cells ∧ u.faults = s.faults ∧ u.accum = s.accum
      ∧ (s.shuttleOpen = true → s.inReach (leAt c.slate 32 8) 64 = true →
          u.out = s.out ++ [.hostWrite (leAt c.slate 32 8) out (s.pcie.roBulk && s.pcie.relaxedOrdering)]))

/-! ## The whole machine -/

/-- What stands at power application: PTIME is 0, no command, record or event waits, every ring and the reel are disabled, nothing that
the device sends has left it, there is no tenant, owner, job or session, no memory is listed, no port or link is up, and the command
queue is empty. So the invariant of this model holds there, for the fuses of the module that reset describes (R22, R64, R98, R291, R426;
log entry 3 chooses the module). -/
def Obligations.ResetStartsGood : Prop :=
  Good Fuses.blank State.reset
  ∧ State.reset.time.ptime = 0 ∧ State.reset.cmds = [] ∧ State.reset.out = [] ∧ State.reset.pending = []
  ∧ (∀ n < 64, (State.reset.ring n).mode = .disabled ∧ (State.reset.ring n).errors = 0 ∧ (State.reset.ring n).records = [])
  ∧ State.reset.reel.enabled = false ∧ State.reset.reel.queue = [] ∧ State.reset.reel.nextSeq = 0
  ∧ State.reset.trust.tenant = none ∧ State.reset.trust.owner = none ∧ State.reset.trust.bootId = none ∧ State.reset.accum.jobs = []
  ∧ State.reset.ingest.sessions = [] ∧ State.reset.mem.cells = [] ∧ State.reset.pcie.ready = false
  ∧ (∀ p < 8, (State.reset.port p).linkUp = false) ∧ (∀ l < 8, (State.reset.link l).up = false)
  ∧ State.reset.power.hostCap = 450 ∧ State.reset.side.step = 0

/-- Every step keeps the invariant: unprotected memory stays in its canonical form, there stay 64 rings, the event queue never holds
more than 1024 records, and the fuses never change but for a security version that rises (R62, R109, R277, R284; the canonical form is
the model's own).
What the model chooses or infers here stands in log entry 4. -/
def Obligations.EveryStepKeepsGood : Prop :=
  ∀ (f : Fuses) (s t : State), Good f s → step s = .next t → Good f t

/-- No command sets, adjusts or stops PTIME: each leaves it as it is, but for the microsecond that advances it, for the
removal of power, by a trip or at the input, after which it is lost, and for power application, which starts it at zero (R22, R325, R330).
What the model chooses or infers here stands in log entry 11. -/
def Obligations.NoCommandSetsPtime : Prop :=
  ∀ (c : Instr) (s t : State), exec c s = .next t →
    t.time.ptime = s.time.ptime
    ∨ (c = .ptimeMirrorUpdate ∧ t.time.ptime = s.time.ptime + 1000)
    ∨ (t.power.railsOn = false ∧ t.side.step = 0 ∧ t.time.ptime = 0)
    ∨ (c = .powerApplied ∧ s.side.step = 0 ∧ t.time.ptime = 0)

/-- The two tiers of ring arbitration (R72): a control ring that may be fetched from goes before every bulk ring; within a tier the ring
after the one last served comes first; a bulk ring is served up to WEIGHT + 1 times in its turn; and serving one tier does not move the
other's pointer.
What the model chooses or infers here stands in log entry 50. -/
def Obligations.ControlRingsGoFirst : Prop :=
  ∀ (s : State) (n : Nat) (f : Front), s.nextRing = some (n, f) →
    s.fetchable n = true
    ∧ ((s.ring n).control = true → f.lastControl = some n ∧ f.lastBulk = s.front.lastBulk
        ∧ f.taken = s.front.taken ∧ ∃ i < 64, n = ((s.front.lastControl.map (· + 1)).getD 0 + i) % 64
          ∧ ∀ j < i, let m := ((s.front.lastControl.map (· + 1)).getD 0 + j) % 64; (s.ring m).control = true → s.fetchable m = false)
    ∧ ((s.ring n).control = false → f.lastControl = s.front.lastControl ∧ f.lastBulk = some n
        ∧ (∀ m < 64, (s.ring m).control = true → s.fetchable m = false)
        ∧ ((s.front.lastBulk = some n ∧ s.front.taken < (s.ring n).weight.toNat + 1 ∧ f.taken = s.front.taken + 1)
          ∨ (f.taken = 1
            ∧ (∀ b, s.front.lastBulk = some b → (s.ring b).control = false → s.fetchable b = true →
                (s.ring b).weight.toNat + 1 ≤ s.front.taken)
            ∧ ∃ i < 64, n = ((s.front.lastBulk.map (· + 1)).getD 0 + i) % 64
              ∧ ∀ j < i, let m := ((s.front.lastBulk.map (· + 1)).getD 0 + j) % 64; (s.ring m).control = false → s.fetchable m = false)))

/-! ## Slices -/

/-- A group that GROUP_OPEN places is divided into slices of S consecutive tiles: S is SLICE_TILES, or where that is 0 the smallest power of
two, at most 4 096, that gives no more slices than there are active cores, and 4 096 where even that gives more. Slice j holds the tiles
from jS up to min((j + 1)S, T), and it lies on the active core at position (j + g) mod n, so that a core owns more than one slice where
there are more slices than cores (R46; the position is R47's). -/
def Obligations.SlicesFitTheActiveCores : Prop :=
  ∀ (s t : State) (cid : Nat) (c : Cmd) (k : Group), Started s cid .groupOpen c → s.group? (c.inl 0 1) = none →
    exec (.groupOpen cid) s = .next t → t.group? (c.inl 0 1) = some k →
    let n := s.activeCores.length
    (c.inl 8 2 ≠ 0 → k.sliceTiles = c.inl 8 2)
    ∧ (c.inl 8 2 = 0 → ∃ i ≤ 12, k.sliceTiles = 2 ^ i ∧ ((k.tiles + 2 ^ i - 1) / 2 ^ i ≤ n ∨ i = 12)
        ∧ ∀ j < i, n < (k.tiles + 2 ^ j - 1) / 2 ^ j)
    ∧ k.slices.length = (k.tiles + k.sliceTiles - 1) / k.sliceTiles
    ∧ (∀ tile < k.tiles, k.sliceOf tile < k.slices.length)
    ∧ (∀ tile j, tile < k.tiles → (k.sliceOf tile = j ↔ j * k.sliceTiles ≤ tile ∧ tile < min ((j + 1) * k.sliceTiles) k.tiles))
    ∧ (∀ j < k.slices.length, (unit k.slices j).core = unit s.activeCores ((j + c.inl 0 1) % n))
end

