-- ==== Sys2Proof/Laws/State.lean ====
section
/-! SUPPORT. One lemma per field per update of the state, so that no proof unfolds a record update. -/

namespace Sys2Proof.Machine

open Sys2Proof

variable (s : State)

/-! ## `updRing` changes only `rings` -/

@[simp] theorem updRing_time (n : Nat) (f : Ring → Ring) : (s.updRing n f).time = s.time := rfl
@[simp] theorem updRing_front (n : Nat) (f : Ring → Ring) : (s.updRing n f).front = s.front := rfl
@[simp] theorem updRing_cmds (n : Nat) (f : Ring → Ring) : (s.updRing n f).cmds = s.cmds := rfl
@[simp] theorem updRing_reel (n : Nat) (f : Ring → Ring) : (s.updRing n f).reel = s.reel := rfl
@[simp] theorem updRing_pcie (n : Nat) (f : Ring → Ring) : (s.updRing n f).pcie = s.pcie := rfl
@[simp] theorem updRing_trans (n : Nat) (f : Ring → Ring) : (s.updRing n f).trans = s.trans := rfl
@[simp] theorem updRing_ingest (n : Nat) (f : Ring → Ring) : (s.updRing n f).ingest = s.ingest := rfl
@[simp] theorem updRing_accum (n : Nat) (f : Ring → Ring) : (s.updRing n f).accum = s.accum := rfl
@[simp] theorem updRing_masks (n : Nat) (f : Ring → Ring) : (s.updRing n f).masks = s.masks := rfl
@[simp] theorem updRing_poly (n : Nat) (f : Ring → Ring) : (s.updRing n f).poly = s.poly := rfl
@[simp] theorem updRing_gate (n : Nat) (f : Ring → Ring) : (s.updRing n f).gate = s.gate := rfl
@[simp] theorem updRing_trust (n : Nat) (f : Ring → Ring) : (s.updRing n f).trust = s.trust := rfl
@[simp] theorem updRing_rng (n : Nat) (f : Ring → Ring) : (s.updRing n f).rng = s.rng := rfl
@[simp] theorem updRing_power (n : Nat) (f : Ring → Ring) : (s.updRing n f).power = s.power := rfl
@[simp] theorem updRing_mem (n : Nat) (f : Ring → Ring) : (s.updRing n f).mem = s.mem := rfl
@[simp] theorem updRing_warp (n : Nat) (f : Ring → Ring) : (s.updRing n f).warp = s.warp := rfl
@[simp] theorem updRing_faults (n : Nat) (f : Ring → Ring) : (s.updRing n f).faults = s.faults := rfl
@[simp] theorem updRing_counters (n : Nat) (f : Ring → Ring) : (s.updRing n f).counters = s.counters := rfl
@[simp] theorem updRing_side (n : Nat) (f : Ring → Ring) : (s.updRing n f).side = s.side := rfl
@[simp] theorem updRing_draws (n : Nat) (f : Ring → Ring) : (s.updRing n f).draws = s.draws := rfl
@[simp] theorem updRing_out (n : Nat) (f : Ring → Ring) : (s.updRing n f).out = s.out := rfl
@[simp] theorem updRing_pending (n : Nat) (f : Ring → Ring) : (s.updRing n f).pending = s.pending := rfl

/-! ## `updCmd` changes only `cmds` -/

@[simp] theorem updCmd_time (n : Nat) (f : Cmd → Cmd) : (s.updCmd n f).time = s.time := rfl
@[simp] theorem updCmd_front (n : Nat) (f : Cmd → Cmd) : (s.updCmd n f).front = s.front := rfl
@[simp] theorem updCmd_rings (n : Nat) (f : Cmd → Cmd) : (s.updCmd n f).rings = s.rings := rfl
@[simp] theorem updCmd_reel (n : Nat) (f : Cmd → Cmd) : (s.updCmd n f).reel = s.reel := rfl
@[simp] theorem updCmd_pcie (n : Nat) (f : Cmd → Cmd) : (s.updCmd n f).pcie = s.pcie := rfl
@[simp] theorem updCmd_trans (n : Nat) (f : Cmd → Cmd) : (s.updCmd n f).trans = s.trans := rfl
@[simp] theorem updCmd_ingest (n : Nat) (f : Cmd → Cmd) : (s.updCmd n f).ingest = s.ingest := rfl
@[simp] theorem updCmd_accum (n : Nat) (f : Cmd → Cmd) : (s.updCmd n f).accum = s.accum := rfl
@[simp] theorem updCmd_masks (n : Nat) (f : Cmd → Cmd) : (s.updCmd n f).masks = s.masks := rfl
@[simp] theorem updCmd_poly (n : Nat) (f : Cmd → Cmd) : (s.updCmd n f).poly = s.poly := rfl
@[simp] theorem updCmd_gate (n : Nat) (f : Cmd → Cmd) : (s.updCmd n f).gate = s.gate := rfl
@[simp] theorem updCmd_trust (n : Nat) (f : Cmd → Cmd) : (s.updCmd n f).trust = s.trust := rfl
@[simp] theorem updCmd_rng (n : Nat) (f : Cmd → Cmd) : (s.updCmd n f).rng = s.rng := rfl
@[simp] theorem updCmd_power (n : Nat) (f : Cmd → Cmd) : (s.updCmd n f).power = s.power := rfl
@[simp] theorem updCmd_mem (n : Nat) (f : Cmd → Cmd) : (s.updCmd n f).mem = s.mem := rfl
@[simp] theorem updCmd_warp (n : Nat) (f : Cmd → Cmd) : (s.updCmd n f).warp = s.warp := rfl
@[simp] theorem updCmd_faults (n : Nat) (f : Cmd → Cmd) : (s.updCmd n f).faults = s.faults := rfl
@[simp] theorem updCmd_counters (n : Nat) (f : Cmd → Cmd) : (s.updCmd n f).counters = s.counters := rfl
@[simp] theorem updCmd_side (n : Nat) (f : Cmd → Cmd) : (s.updCmd n f).side = s.side := rfl
@[simp] theorem updCmd_draws (n : Nat) (f : Cmd → Cmd) : (s.updCmd n f).draws = s.draws := rfl
@[simp] theorem updCmd_out (n : Nat) (f : Cmd → Cmd) : (s.updCmd n f).out = s.out := rfl
@[simp] theorem updCmd_pending (n : Nat) (f : Cmd → Cmd) : (s.updCmd n f).pending = s.pending := rfl

/-! ## `updPort` changes only `trans` -/

@[simp] theorem updPort_time (n : Nat) (f : Port → Port) : (s.updPort n f).time = s.time := rfl
@[simp] theorem updPort_front (n : Nat) (f : Port → Port) : (s.updPort n f).front = s.front := rfl
@[simp] theorem updPort_rings (n : Nat) (f : Port → Port) : (s.updPort n f).rings = s.rings := rfl
@[simp] theorem updPort_cmds (n : Nat) (f : Port → Port) : (s.updPort n f).cmds = s.cmds := rfl
@[simp] theorem updPort_reel (n : Nat) (f : Port → Port) : (s.updPort n f).reel = s.reel := rfl
@[simp] theorem updPort_pcie (n : Nat) (f : Port → Port) : (s.updPort n f).pcie = s.pcie := rfl
@[simp] theorem updPort_ingest (n : Nat) (f : Port → Port) : (s.updPort n f).ingest = s.ingest := rfl
@[simp] theorem updPort_accum (n : Nat) (f : Port → Port) : (s.updPort n f).accum = s.accum := rfl
@[simp] theorem updPort_masks (n : Nat) (f : Port → Port) : (s.updPort n f).masks = s.masks := rfl
@[simp] theorem updPort_poly (n : Nat) (f : Port → Port) : (s.updPort n f).poly = s.poly := rfl
@[simp] theorem updPort_gate (n : Nat) (f : Port → Port) : (s.updPort n f).gate = s.gate := rfl
@[simp] theorem updPort_trust (n : Nat) (f : Port → Port) : (s.updPort n f).trust = s.trust := rfl
@[simp] theorem updPort_rng (n : Nat) (f : Port → Port) : (s.updPort n f).rng = s.rng := rfl
@[simp] theorem updPort_power (n : Nat) (f : Port → Port) : (s.updPort n f).power = s.power := rfl
@[simp] theorem updPort_mem (n : Nat) (f : Port → Port) : (s.updPort n f).mem = s.mem := rfl
@[simp] theorem updPort_warp (n : Nat) (f : Port → Port) : (s.updPort n f).warp = s.warp := rfl
@[simp] theorem updPort_faults (n : Nat) (f : Port → Port) : (s.updPort n f).faults = s.faults := rfl
@[simp] theorem updPort_counters (n : Nat) (f : Port → Port) : (s.updPort n f).counters = s.counters := rfl
@[simp] theorem updPort_side (n : Nat) (f : Port → Port) : (s.updPort n f).side = s.side := rfl
@[simp] theorem updPort_draws (n : Nat) (f : Port → Port) : (s.updPort n f).draws = s.draws := rfl
@[simp] theorem updPort_out (n : Nat) (f : Port → Port) : (s.updPort n f).out = s.out := rfl
@[simp] theorem updPort_pending (n : Nat) (f : Port → Port) : (s.updPort n f).pending = s.pending := rfl

/-! ## `updLink` changes only `warp` -/

@[simp] theorem updLink_time (n : Nat) (f : Link → Link) : (s.updLink n f).time = s.time := rfl
@[simp] theorem updLink_front (n : Nat) (f : Link → Link) : (s.updLink n f).front = s.front := rfl
@[simp] theorem updLink_rings (n : Nat) (f : Link → Link) : (s.updLink n f).rings = s.rings := rfl
@[simp] theorem updLink_cmds (n : Nat) (f : Link → Link) : (s.updLink n f).cmds = s.cmds := rfl
@[simp] theorem updLink_reel (n : Nat) (f : Link → Link) : (s.updLink n f).reel = s.reel := rfl
@[simp] theorem updLink_pcie (n : Nat) (f : Link → Link) : (s.updLink n f).pcie = s.pcie := rfl
@[simp] theorem updLink_trans (n : Nat) (f : Link → Link) : (s.updLink n f).trans = s.trans := rfl
@[simp] theorem updLink_ingest (n : Nat) (f : Link → Link) : (s.updLink n f).ingest = s.ingest := rfl
@[simp] theorem updLink_accum (n : Nat) (f : Link → Link) : (s.updLink n f).accum = s.accum := rfl
@[simp] theorem updLink_masks (n : Nat) (f : Link → Link) : (s.updLink n f).masks = s.masks := rfl
@[simp] theorem updLink_poly (n : Nat) (f : Link → Link) : (s.updLink n f).poly = s.poly := rfl
@[simp] theorem updLink_gate (n : Nat) (f : Link → Link) : (s.updLink n f).gate = s.gate := rfl
@[simp] theorem updLink_trust (n : Nat) (f : Link → Link) : (s.updLink n f).trust = s.trust := rfl
@[simp] theorem updLink_rng (n : Nat) (f : Link → Link) : (s.updLink n f).rng = s.rng := rfl
@[simp] theorem updLink_power (n : Nat) (f : Link → Link) : (s.updLink n f).power = s.power := rfl
@[simp] theorem updLink_mem (n : Nat) (f : Link → Link) : (s.updLink n f).mem = s.mem := rfl
@[simp] theorem updLink_faults (n : Nat) (f : Link → Link) : (s.updLink n f).faults = s.faults := rfl
@[simp] theorem updLink_counters (n : Nat) (f : Link → Link) : (s.updLink n f).counters = s.counters := rfl
@[simp] theorem updLink_side (n : Nat) (f : Link → Link) : (s.updLink n f).side = s.side := rfl
@[simp] theorem updLink_draws (n : Nat) (f : Link → Link) : (s.updLink n f).draws = s.draws := rfl
@[simp] theorem updLink_out (n : Nat) (f : Link → Link) : (s.updLink n f).out = s.out := rfl
@[simp] theorem updLink_pending (n : Nat) (f : Link → Link) : (s.updLink n f).pending = s.pending := rfl

/-! ## `updStack` changes only `mem` -/

@[simp] theorem updStack_time (n : Nat) (f : Stack → Stack) : (s.updStack n f).time = s.time := rfl
@[simp] theorem updStack_front (n : Nat) (f : Stack → Stack) : (s.updStack n f).front = s.front := rfl
@[simp] theorem updStack_rings (n : Nat) (f : Stack → Stack) : (s.updStack n f).rings = s.rings := rfl
@[simp] theorem updStack_cmds (n : Nat) (f : Stack → Stack) : (s.updStack n f).cmds = s.cmds := rfl
@[simp] theorem updStack_reel (n : Nat) (f : Stack → Stack) : (s.updStack n f).reel = s.reel := rfl
@[simp] theorem updStack_pcie (n : Nat) (f : Stack → Stack) : (s.updStack n f).pcie = s.pcie := rfl
@[simp] theorem updStack_trans (n : Nat) (f : Stack → Stack) : (s.updStack n f).trans = s.trans := rfl
@[simp] theorem updStack_ingest (n : Nat) (f : Stack → Stack) : (s.updStack n f).ingest = s.ingest := rfl
@[simp] theorem updStack_accum (n : Nat) (f : Stack → Stack) : (s.updStack n f).accum = s.accum := rfl
@[simp] theorem updStack_masks (n : Nat) (f : Stack → Stack) : (s.updStack n f).masks = s.masks := rfl
@[simp] theorem updStack_poly (n : Nat) (f : Stack → Stack) : (s.updStack n f).poly = s.poly := rfl
@[simp] theorem updStack_gate (n : Nat) (f : Stack → Stack) : (s.updStack n f).gate = s.gate := rfl
@[simp] theorem updStack_trust (n : Nat) (f : Stack → Stack) : (s.updStack n f).trust = s.trust := rfl
@[simp] theorem updStack_rng (n : Nat) (f : Stack → Stack) : (s.updStack n f).rng = s.rng := rfl
@[simp] theorem updStack_power (n : Nat) (f : Stack → Stack) : (s.updStack n f).power = s.power := rfl
@[simp] theorem updStack_warp (n : Nat) (f : Stack → Stack) : (s.updStack n f).warp = s.warp := rfl
@[simp] theorem updStack_faults (n : Nat) (f : Stack → Stack) : (s.updStack n f).faults = s.faults := rfl
@[simp] theorem updStack_counters (n : Nat) (f : Stack → Stack) : (s.updStack n f).counters = s.counters := rfl
@[simp] theorem updStack_side (n : Nat) (f : Stack → Stack) : (s.updStack n f).side = s.side := rfl
@[simp] theorem updStack_draws (n : Nat) (f : Stack → Stack) : (s.updStack n f).draws = s.draws := rfl
@[simp] theorem updStack_out (n : Nat) (f : Stack → Stack) : (s.updStack n f).out = s.out := rfl
@[simp] theorem updStack_pending (n : Nat) (f : Stack → Stack) : (s.updStack n f).pending = s.pending := rfl

/-! ## `updCore` changes only `faults` -/

@[simp] theorem updCore_time (n : Nat) (f : CoreUnit → CoreUnit) : (s.updCore n f).time = s.time := rfl
@[simp] theorem updCore_front (n : Nat) (f : CoreUnit → CoreUnit) : (s.updCore n f).front = s.front := rfl
@[simp] theorem updCore_rings (n : Nat) (f : CoreUnit → CoreUnit) : (s.updCore n f).rings = s.rings := rfl
@[simp] theorem updCore_cmds (n : Nat) (f : CoreUnit → CoreUnit) : (s.updCore n f).cmds = s.cmds := rfl
@[simp] theorem updCore_reel (n : Nat) (f : CoreUnit → CoreUnit) : (s.updCore n f).reel = s.reel := rfl
@[simp] theorem updCore_pcie (n : Nat) (f : CoreUnit → CoreUnit) : (s.updCore n f).pcie = s.pcie := rfl
@[simp] theorem updCore_trans (n : Nat) (f : CoreUnit → CoreUnit) : (s.updCore n f).trans = s.trans := rfl
@[simp] theorem updCore_ingest (n : Nat) (f : CoreUnit → CoreUnit) : (s.updCore n f).ingest = s.ingest := rfl
@[simp] theorem updCore_accum (n : Nat) (f : CoreUnit → CoreUnit) : (s.updCore n f).accum = s.accum := rfl
@[simp] theorem updCore_masks (n : Nat) (f : CoreUnit → CoreUnit) : (s.updCore n f).masks = s.masks := rfl
@[simp] theorem updCore_poly (n : Nat) (f : CoreUnit → CoreUnit) : (s.updCore n f).poly = s.poly := rfl
@[simp] theorem updCore_gate (n : Nat) (f : CoreUnit → CoreUnit) : (s.updCore n f).gate = s.gate := rfl
@[simp] theorem updCore_trust (n : Nat) (f : CoreUnit → CoreUnit) : (s.updCore n f).trust = s.trust := rfl
@[simp] theorem updCore_rng (n : Nat) (f : CoreUnit → CoreUnit) : (s.updCore n f).rng = s.rng := rfl
@[simp] theorem updCore_power (n : Nat) (f : CoreUnit → CoreUnit) : (s.updCore n f).power = s.power := rfl
@[simp] theorem updCore_mem (n : Nat) (f : CoreUnit → CoreUnit) : (s.updCore n f).mem = s.mem := rfl
@[simp] theorem updCore_warp (n : Nat) (f : CoreUnit → CoreUnit) : (s.updCore n f).warp = s.warp := rfl
@[simp] theorem updCore_counters (n : Nat) (f : CoreUnit → CoreUnit) : (s.updCore n f).counters = s.counters := rfl
@[simp] theorem updCore_side (n : Nat) (f : CoreUnit → CoreUnit) : (s.updCore n f).side = s.side := rfl
@[simp] theorem updCore_draws (n : Nat) (f : CoreUnit → CoreUnit) : (s.updCore n f).draws = s.draws := rfl
@[simp] theorem updCore_out (n : Nat) (f : CoreUnit → CoreUnit) : (s.updCore n f).out = s.out := rfl
@[simp] theorem updCore_pending (n : Nat) (f : CoreUnit → CoreUnit) : (s.updCore n f).pending = s.pending := rfl

/-! ## `updJob` changes only `accum` -/

@[simp] theorem updJob_time (n : Nat) (f : Job → Job) : (s.updJob n f).time = s.time := rfl
@[simp] theorem updJob_front (n : Nat) (f : Job → Job) : (s.updJob n f).front = s.front := rfl
@[simp] theorem updJob_rings (n : Nat) (f : Job → Job) : (s.updJob n f).rings = s.rings := rfl
@[simp] theorem updJob_cmds (n : Nat) (f : Job → Job) : (s.updJob n f).cmds = s.cmds := rfl
@[simp] theorem updJob_reel (n : Nat) (f : Job → Job) : (s.updJob n f).reel = s.reel := rfl
@[simp] theorem updJob_pcie (n : Nat) (f : Job → Job) : (s.updJob n f).pcie = s.pcie := rfl
@[simp] theorem updJob_trans (n : Nat) (f : Job → Job) : (s.updJob n f).trans = s.trans := rfl
@[simp] theorem updJob_ingest (n : Nat) (f : Job → Job) : (s.updJob n f).ingest = s.ingest := rfl
@[simp] theorem updJob_masks (n : Nat) (f : Job → Job) : (s.updJob n f).masks = s.masks := rfl
@[simp] theorem updJob_poly (n : Nat) (f : Job → Job) : (s.updJob n f).poly = s.poly := rfl
@[simp] theorem updJob_gate (n : Nat) (f : Job → Job) : (s.updJob n f).gate = s.gate := rfl
@[simp] theorem updJob_trust (n : Nat) (f : Job → Job) : (s.updJob n f).trust = s.trust := rfl
@[simp] theorem updJob_rng (n : Nat) (f : Job → Job) : (s.updJob n f).rng = s.rng := rfl
@[simp] theorem updJob_power (n : Nat) (f : Job → Job) : (s.updJob n f).power = s.power := rfl
@[simp] theorem updJob_mem (n : Nat) (f : Job → Job) : (s.updJob n f).mem = s.mem := rfl
@[simp] theorem updJob_warp (n : Nat) (f : Job → Job) : (s.updJob n f).warp = s.warp := rfl
@[simp] theorem updJob_faults (n : Nat) (f : Job → Job) : (s.updJob n f).faults = s.faults := rfl
@[simp] theorem updJob_counters (n : Nat) (f : Job → Job) : (s.updJob n f).counters = s.counters := rfl
@[simp] theorem updJob_side (n : Nat) (f : Job → Job) : (s.updJob n f).side = s.side := rfl
@[simp] theorem updJob_draws (n : Nat) (f : Job → Job) : (s.updJob n f).draws = s.draws := rfl
@[simp] theorem updJob_out (n : Nat) (f : Job → Job) : (s.updJob n f).out = s.out := rfl
@[simp] theorem updJob_pending (n : Nat) (f : Job → Job) : (s.updJob n f).pending = s.pending := rfl

/-! ## `updGroup` changes only `accum` -/

@[simp] theorem updGroup_time (n : Nat) (f : Group → Group) : (s.updGroup n f).time = s.time := rfl
@[simp] theorem updGroup_front (n : Nat) (f : Group → Group) : (s.updGroup n f).front = s.front := rfl
@[simp] theorem updGroup_rings (n : Nat) (f : Group → Group) : (s.updGroup n f).rings = s.rings := rfl
@[simp] theorem updGroup_cmds (n : Nat) (f : Group → Group) : (s.updGroup n f).cmds = s.cmds := rfl
@[simp] theorem updGroup_reel (n : Nat) (f : Group → Group) : (s.updGroup n f).reel = s.reel := rfl
@[simp] theorem updGroup_pcie (n : Nat) (f : Group → Group) : (s.updGroup n f).pcie = s.pcie := rfl
@[simp] theorem updGroup_trans (n : Nat) (f : Group → Group) : (s.updGroup n f).trans = s.trans := rfl
@[simp] theorem updGroup_ingest (n : Nat) (f : Group → Group) : (s.updGroup n f).ingest = s.ingest := rfl
@[simp] theorem updGroup_masks (n : Nat) (f : Group → Group) : (s.updGroup n f).masks = s.masks := rfl
@[simp] theorem updGroup_poly (n : Nat) (f : Group → Group) : (s.updGroup n f).poly = s.poly := rfl
@[simp] theorem updGroup_gate (n : Nat) (f : Group → Group) : (s.updGroup n f).gate = s.gate := rfl
@[simp] theorem updGroup_trust (n : Nat) (f : Group → Group) : (s.updGroup n f).trust = s.trust := rfl
@[simp] theorem updGroup_rng (n : Nat) (f : Group → Group) : (s.updGroup n f).rng = s.rng := rfl
@[simp] theorem updGroup_power (n : Nat) (f : Group → Group) : (s.updGroup n f).power = s.power := rfl
@[simp] theorem updGroup_mem (n : Nat) (f : Group → Group) : (s.updGroup n f).mem = s.mem := rfl
@[simp] theorem updGroup_warp (n : Nat) (f : Group → Group) : (s.updGroup n f).warp = s.warp := rfl
@[simp] theorem updGroup_faults (n : Nat) (f : Group → Group) : (s.updGroup n f).faults = s.faults := rfl
@[simp] theorem updGroup_counters (n : Nat) (f : Group → Group) : (s.updGroup n f).counters = s.counters := rfl
@[simp] theorem updGroup_side (n : Nat) (f : Group → Group) : (s.updGroup n f).side = s.side := rfl
@[simp] theorem updGroup_draws (n : Nat) (f : Group → Group) : (s.updGroup n f).draws = s.draws := rfl
@[simp] theorem updGroup_out (n : Nat) (f : Group → Group) : (s.updGroup n f).out = s.out := rfl
@[simp] theorem updGroup_pending (n : Nat) (f : Group → Group) : (s.updGroup n f).pending = s.pending := rfl

/-! ## `updConn` changes only `trans` -/

@[simp] theorem updConn_time (n : Nat) (f : Conn → Conn) : (s.updConn n f).time = s.time := rfl
@[simp] theorem updConn_front (n : Nat) (f : Conn → Conn) : (s.updConn n f).front = s.front := rfl
@[simp] theorem updConn_rings (n : Nat) (f : Conn → Conn) : (s.updConn n f).rings = s.rings := rfl
@[simp] theorem updConn_cmds (n : Nat) (f : Conn → Conn) : (s.updConn n f).cmds = s.cmds := rfl
@[simp] theorem updConn_reel (n : Nat) (f : Conn → Conn) : (s.updConn n f).reel = s.reel := rfl
@[simp] theorem updConn_pcie (n : Nat) (f : Conn → Conn) : (s.updConn n f).pcie = s.pcie := rfl
@[simp] theorem updConn_ingest (n : Nat) (f : Conn → Conn) : (s.updConn n f).ingest = s.ingest := rfl
@[simp] theorem updConn_accum (n : Nat) (f : Conn → Conn) : (s.updConn n f).accum = s.accum := rfl
@[simp] theorem updConn_masks (n : Nat) (f : Conn → Conn) : (s.updConn n f).masks = s.masks := rfl
@[simp] theorem updConn_poly (n : Nat) (f : Conn → Conn) : (s.updConn n f).poly = s.poly := rfl
@[simp] theorem updConn_gate (n : Nat) (f : Conn → Conn) : (s.updConn n f).gate = s.gate := rfl
@[simp] theorem updConn_trust (n : Nat) (f : Conn → Conn) : (s.updConn n f).trust = s.trust := rfl
@[simp] theorem updConn_rng (n : Nat) (f : Conn → Conn) : (s.updConn n f).rng = s.rng := rfl
@[simp] theorem updConn_power (n : Nat) (f : Conn → Conn) : (s.updConn n f).power = s.power := rfl
@[simp] theorem updConn_mem (n : Nat) (f : Conn → Conn) : (s.updConn n f).mem = s.mem := rfl
@[simp] theorem updConn_warp (n : Nat) (f : Conn → Conn) : (s.updConn n f).warp = s.warp := rfl
@[simp] theorem updConn_faults (n : Nat) (f : Conn → Conn) : (s.updConn n f).faults = s.faults := rfl
@[simp] theorem updConn_counters (n : Nat) (f : Conn → Conn) : (s.updConn n f).counters = s.counters := rfl
@[simp] theorem updConn_side (n : Nat) (f : Conn → Conn) : (s.updConn n f).side = s.side := rfl
@[simp] theorem updConn_draws (n : Nat) (f : Conn → Conn) : (s.updConn n f).draws = s.draws := rfl
@[simp] theorem updConn_out (n : Nat) (f : Conn → Conn) : (s.updConn n f).out = s.out := rfl
@[simp] theorem updConn_pending (n : Nat) (f : Conn → Conn) : (s.updConn n f).pending = s.pending := rfl

/-! ## `store` changes only `mem` -/

@[simp] theorem store_time (n : Nat) (f : Bytes) : (s.store n f).time = s.time := rfl
@[simp] theorem store_front (n : Nat) (f : Bytes) : (s.store n f).front = s.front := rfl
@[simp] theorem store_rings (n : Nat) (f : Bytes) : (s.store n f).rings = s.rings := rfl
@[simp] theorem store_cmds (n : Nat) (f : Bytes) : (s.store n f).cmds = s.cmds := rfl
@[simp] theorem store_reel (n : Nat) (f : Bytes) : (s.store n f).reel = s.reel := rfl
@[simp] theorem store_pcie (n : Nat) (f : Bytes) : (s.store n f).pcie = s.pcie := rfl
@[simp] theorem store_trans (n : Nat) (f : Bytes) : (s.store n f).trans = s.trans := rfl
@[simp] theorem store_ingest (n : Nat) (f : Bytes) : (s.store n f).ingest = s.ingest := rfl
@[simp] theorem store_accum (n : Nat) (f : Bytes) : (s.store n f).accum = s.accum := rfl
@[simp] theorem store_masks (n : Nat) (f : Bytes) : (s.store n f).masks = s.masks := rfl
@[simp] theorem store_poly (n : Nat) (f : Bytes) : (s.store n f).poly = s.poly := rfl
@[simp] theorem store_gate (n : Nat) (f : Bytes) : (s.store n f).gate = s.gate := rfl
@[simp] theorem store_trust (n : Nat) (f : Bytes) : (s.store n f).trust = s.trust := rfl
@[simp] theorem store_rng (n : Nat) (f : Bytes) : (s.store n f).rng = s.rng := rfl
@[simp] theorem store_power (n : Nat) (f : Bytes) : (s.store n f).power = s.power := rfl
@[simp] theorem store_warp (n : Nat) (f : Bytes) : (s.store n f).warp = s.warp := rfl
@[simp] theorem store_faults (n : Nat) (f : Bytes) : (s.store n f).faults = s.faults := rfl
@[simp] theorem store_counters (n : Nat) (f : Bytes) : (s.store n f).counters = s.counters := rfl
@[simp] theorem store_side (n : Nat) (f : Bytes) : (s.store n f).side = s.side := rfl
@[simp] theorem store_draws (n : Nat) (f : Bytes) : (s.store n f).draws = s.draws := rfl
@[simp] theorem store_out (n : Nat) (f : Bytes) : (s.store n f).out = s.out := rfl
@[simp] theorem store_pending (n : Nat) (f : Bytes) : (s.store n f).pending = s.pending := rfl

/-! ## `updTime` changes only `time` -/

@[simp] theorem updTime_front (f : TimeState → TimeState) : (s.updTime f).front = s.front := rfl
@[simp] theorem updTime_rings (f : TimeState → TimeState) : (s.updTime f).rings = s.rings := rfl
@[simp] theorem updTime_cmds (f : TimeState → TimeState) : (s.updTime f).cmds = s.cmds := rfl
@[simp] theorem updTime_reel (f : TimeState → TimeState) : (s.updTime f).reel = s.reel := rfl
@[simp] theorem updTime_pcie (f : TimeState → TimeState) : (s.updTime f).pcie = s.pcie := rfl
@[simp] theorem updTime_trans (f : TimeState → TimeState) : (s.updTime f).trans = s.trans := rfl
@[simp] theorem updTime_ingest (f : TimeState → TimeState) : (s.updTime f).ingest = s.ingest := rfl
@[simp] theorem updTime_accum (f : TimeState → TimeState) : (s.updTime f).accum = s.accum := rfl
@[simp] theorem updTime_masks (f : TimeState → TimeState) : (s.updTime f).masks = s.masks := rfl
@[simp] theorem updTime_poly (f : TimeState → TimeState) : (s.updTime f).poly = s.poly := rfl
@[simp] theorem updTime_gate (f : TimeState → TimeState) : (s.updTime f).gate = s.gate := rfl
@[simp] theorem updTime_trust (f : TimeState → TimeState) : (s.updTime f).trust = s.trust := rfl
@[simp] theorem updTime_rng (f : TimeState → TimeState) : (s.updTime f).rng = s.rng := rfl
@[simp] theorem updTime_power (f : TimeState → TimeState) : (s.updTime f).power = s.power := rfl
@[simp] theorem updTime_mem (f : TimeState → TimeState) : (s.updTime f).mem = s.mem := rfl
@[simp] theorem updTime_warp (f : TimeState → TimeState) : (s.updTime f).warp = s.warp := rfl
@[simp] theorem updTime_faults (f : TimeState → TimeState) : (s.updTime f).faults = s.faults := rfl
@[simp] theorem updTime_counters (f : TimeState → TimeState) : (s.updTime f).counters = s.counters := rfl
@[simp] theorem updTime_side (f : TimeState → TimeState) : (s.updTime f).side = s.side := rfl
@[simp] theorem updTime_draws (f : TimeState → TimeState) : (s.updTime f).draws = s.draws := rfl
@[simp] theorem updTime_out (f : TimeState → TimeState) : (s.updTime f).out = s.out := rfl
@[simp] theorem updTime_pending (f : TimeState → TimeState) : (s.updTime f).pending = s.pending := rfl
@[simp] theorem updTime_self (f : TimeState → TimeState) : (s.updTime f).time = f s.time := rfl

/-! ## `updReel` changes only `reel` -/

@[simp] theorem updReel_time (f : Reel → Reel) : (s.updReel f).time = s.time := rfl
@[simp] theorem updReel_front (f : Reel → Reel) : (s.updReel f).front = s.front := rfl
@[simp] theorem updReel_rings (f : Reel → Reel) : (s.updReel f).rings = s.rings := rfl
@[simp] theorem updReel_cmds (f : Reel → Reel) : (s.updReel f).cmds = s.cmds := rfl
@[simp] theorem updReel_pcie (f : Reel → Reel) : (s.updReel f).pcie = s.pcie := rfl
@[simp] theorem updReel_trans (f : Reel → Reel) : (s.updReel f).trans = s.trans := rfl
@[simp] theorem updReel_ingest (f : Reel → Reel) : (s.updReel f).ingest = s.ingest := rfl
@[simp] theorem updReel_accum (f : Reel → Reel) : (s.updReel f).accum = s.accum := rfl
@[simp] theorem updReel_masks (f : Reel → Reel) : (s.updReel f).masks = s.masks := rfl
@[simp] theorem updReel_poly (f : Reel → Reel) : (s.updReel f).poly = s.poly := rfl
@[simp] theorem updReel_gate (f : Reel → Reel) : (s.updReel f).gate = s.gate := rfl
@[simp] theorem updReel_trust (f : Reel → Reel) : (s.updReel f).trust = s.trust := rfl
@[simp] theorem updReel_rng (f : Reel → Reel) : (s.updReel f).rng = s.rng := rfl
@[simp] theorem updReel_power (f : Reel → Reel) : (s.updReel f).power = s.power := rfl
@[simp] theorem updReel_mem (f : Reel → Reel) : (s.updReel f).mem = s.mem := rfl
@[simp] theorem updReel_warp (f : Reel → Reel) : (s.updReel f).warp = s.warp := rfl
@[simp] theorem updReel_faults (f : Reel → Reel) : (s.updReel f).faults = s.faults := rfl
@[simp] theorem updReel_counters (f : Reel → Reel) : (s.updReel f).counters = s.counters := rfl
@[simp] theorem updReel_side (f : Reel → Reel) : (s.updReel f).side = s.side := rfl
@[simp] theorem updReel_draws (f : Reel → Reel) : (s.updReel f).draws = s.draws := rfl
@[simp] theorem updReel_out (f : Reel → Reel) : (s.updReel f).out = s.out := rfl
@[simp] theorem updReel_pending (f : Reel → Reel) : (s.updReel f).pending = s.pending := rfl
@[simp] theorem updReel_self (f : Reel → Reel) : (s.updReel f).reel = f s.reel := rfl

/-! ## `updPcie` changes only `pcie` -/

@[simp] theorem updPcie_time (f : Pcie → Pcie) : (s.updPcie f).time = s.time := rfl
@[simp] theorem updPcie_front (f : Pcie → Pcie) : (s.updPcie f).front = s.front := rfl
@[simp] theorem updPcie_rings (f : Pcie → Pcie) : (s.updPcie f).rings = s.rings := rfl
@[simp] theorem updPcie_cmds (f : Pcie → Pcie) : (s.updPcie f).cmds = s.cmds := rfl
@[simp] theorem updPcie_reel (f : Pcie → Pcie) : (s.updPcie f).reel = s.reel := rfl
@[simp] theorem updPcie_trans (f : Pcie → Pcie) : (s.updPcie f).trans = s.trans := rfl
@[simp] theorem updPcie_ingest (f : Pcie → Pcie) : (s.updPcie f).ingest = s.ingest := rfl
@[simp] theorem updPcie_accum (f : Pcie → Pcie) : (s.updPcie f).accum = s.accum := rfl
@[simp] theorem updPcie_masks (f : Pcie → Pcie) : (s.updPcie f).masks = s.masks := rfl
@[simp] theorem updPcie_poly (f : Pcie → Pcie) : (s.updPcie f).poly = s.poly := rfl
@[simp] theorem updPcie_gate (f : Pcie → Pcie) : (s.updPcie f).gate = s.gate := rfl
@[simp] theorem updPcie_trust (f : Pcie → Pcie) : (s.updPcie f).trust = s.trust := rfl
@[simp] theorem updPcie_rng (f : Pcie → Pcie) : (s.updPcie f).rng = s.rng := rfl
@[simp] theorem updPcie_power (f : Pcie → Pcie) : (s.updPcie f).power = s.power := rfl
@[simp] theorem updPcie_mem (f : Pcie → Pcie) : (s.updPcie f).mem = s.mem := rfl
@[simp] theorem updPcie_warp (f : Pcie → Pcie) : (s.updPcie f).warp = s.warp := rfl
@[simp] theorem updPcie_faults (f : Pcie → Pcie) : (s.updPcie f).faults = s.faults := rfl
@[simp] theorem updPcie_counters (f : Pcie → Pcie) : (s.updPcie f).counters = s.counters := rfl
@[simp] theorem updPcie_side (f : Pcie → Pcie) : (s.updPcie f).side = s.side := rfl
@[simp] theorem updPcie_draws (f : Pcie → Pcie) : (s.updPcie f).draws = s.draws := rfl
@[simp] theorem updPcie_out (f : Pcie → Pcie) : (s.updPcie f).out = s.out := rfl
@[simp] theorem updPcie_pending (f : Pcie → Pcie) : (s.updPcie f).pending = s.pending := rfl
@[simp] theorem updPcie_self (f : Pcie → Pcie) : (s.updPcie f).pcie = f s.pcie := rfl

/-! ## `updRegion` changes only `trans` -/

@[simp] theorem updRegion_time (n : Nat) (f : Region → Region) : (s.updRegion n f).time = s.time := rfl
@[simp] theorem updRegion_front (n : Nat) (f : Region → Region) : (s.updRegion n f).front = s.front := rfl
@[simp] theorem updRegion_rings (n : Nat) (f : Region → Region) : (s.updRegion n f).rings = s.rings := rfl
@[simp] theorem updRegion_cmds (n : Nat) (f : Region → Region) : (s.updRegion n f).cmds = s.cmds := rfl
@[simp] theorem updRegion_reel (n : Nat) (f : Region → Region) : (s.updRegion n f).reel = s.reel := rfl
@[simp] theorem updRegion_pcie (n : Nat) (f : Region → Region) : (s.updRegion n f).pcie = s.pcie := rfl
@[simp] theorem updRegion_ingest (n : Nat) (f : Region → Region) : (s.updRegion n f).ingest = s.ingest := rfl
@[simp] theorem updRegion_accum (n : Nat) (f : Region → Region) : (s.updRegion n f).accum = s.accum := rfl
@[simp] theorem updRegion_masks (n : Nat) (f : Region → Region) : (s.updRegion n f).masks = s.masks := rfl
@[simp] theorem updRegion_poly (n : Nat) (f : Region → Region) : (s.updRegion n f).poly = s.poly := rfl
@[simp] theorem updRegion_gate (n : Nat) (f : Region → Region) : (s.updRegion n f).gate = s.gate := rfl
@[simp] theorem updRegion_trust (n : Nat) (f : Region → Region) : (s.updRegion n f).trust = s.trust := rfl
@[simp] theorem updRegion_rng (n : Nat) (f : Region → Region) : (s.updRegion n f).rng = s.rng := rfl
@[simp] theorem updRegion_power (n : Nat) (f : Region → Region) : (s.updRegion n f).power = s.power := rfl
@[simp] theorem updRegion_mem (n : Nat) (f : Region → Region) : (s.updRegion n f).mem = s.mem := rfl
@[simp] theorem updRegion_warp (n : Nat) (f : Region → Region) : (s.updRegion n f).warp = s.warp := rfl
@[simp] theorem updRegion_faults (n : Nat) (f : Region → Region) : (s.updRegion n f).faults = s.faults := rfl
@[simp] theorem updRegion_counters (n : Nat) (f : Region → Region) : (s.updRegion n f).counters = s.counters := rfl
@[simp] theorem updRegion_side (n : Nat) (f : Region → Region) : (s.updRegion n f).side = s.side := rfl
@[simp] theorem updRegion_draws (n : Nat) (f : Region → Region) : (s.updRegion n f).draws = s.draws := rfl
@[simp] theorem updRegion_out (n : Nat) (f : Region → Region) : (s.updRegion n f).out = s.out := rfl
@[simp] theorem updRegion_pending (n : Nat) (f : Region → Region) : (s.updRegion n f).pending = s.pending := rfl

/-! ## `updMsg` changes only `ingest` -/

@[simp] theorem updMsg_time (n : Nat) (f : Message → Message) : (s.updMsg n f).time = s.time := rfl
@[simp] theorem updMsg_front (n : Nat) (f : Message → Message) : (s.updMsg n f).front = s.front := rfl
@[simp] theorem updMsg_rings (n : Nat) (f : Message → Message) : (s.updMsg n f).rings = s.rings := rfl
@[simp] theorem updMsg_cmds (n : Nat) (f : Message → Message) : (s.updMsg n f).cmds = s.cmds := rfl
@[simp] theorem updMsg_reel (n : Nat) (f : Message → Message) : (s.updMsg n f).reel = s.reel := rfl
@[simp] theorem updMsg_pcie (n : Nat) (f : Message → Message) : (s.updMsg n f).pcie = s.pcie := rfl
@[simp] theorem updMsg_trans (n : Nat) (f : Message → Message) : (s.updMsg n f).trans = s.trans := rfl
@[simp] theorem updMsg_accum (n : Nat) (f : Message → Message) : (s.updMsg n f).accum = s.accum := rfl
@[simp] theorem updMsg_masks (n : Nat) (f : Message → Message) : (s.updMsg n f).masks = s.masks := rfl
@[simp] theorem updMsg_poly (n : Nat) (f : Message → Message) : (s.updMsg n f).poly = s.poly := rfl
@[simp] theorem updMsg_gate (n : Nat) (f : Message → Message) : (s.updMsg n f).gate = s.gate := rfl
@[simp] theorem updMsg_trust (n : Nat) (f : Message → Message) : (s.updMsg n f).trust = s.trust := rfl
@[simp] theorem updMsg_rng (n : Nat) (f : Message → Message) : (s.updMsg n f).rng = s.rng := rfl
@[simp] theorem updMsg_power (n : Nat) (f : Message → Message) : (s.updMsg n f).power = s.power := rfl
@[simp] theorem updMsg_mem (n : Nat) (f : Message → Message) : (s.updMsg n f).mem = s.mem := rfl
@[simp] theorem updMsg_warp (n : Nat) (f : Message → Message) : (s.updMsg n f).warp = s.warp := rfl
@[simp] theorem updMsg_faults (n : Nat) (f : Message → Message) : (s.updMsg n f).faults = s.faults := rfl
@[simp] theorem updMsg_counters (n : Nat) (f : Message → Message) : (s.updMsg n f).counters = s.counters := rfl
@[simp] theorem updMsg_side (n : Nat) (f : Message → Message) : (s.updMsg n f).side = s.side := rfl
@[simp] theorem updMsg_draws (n : Nat) (f : Message → Message) : (s.updMsg n f).draws = s.draws := rfl
@[simp] theorem updMsg_out (n : Nat) (f : Message → Message) : (s.updMsg n f).out = s.out := rfl
@[simp] theorem updMsg_pending (n : Nat) (f : Message → Message) : (s.updMsg n f).pending = s.pending := rfl

/-! ## `updPoly` changes only `poly` -/

@[simp] theorem updPoly_time (f : Poly → Poly) : (s.updPoly f).time = s.time := rfl
@[simp] theorem updPoly_front (f : Poly → Poly) : (s.updPoly f).front = s.front := rfl
@[simp] theorem updPoly_rings (f : Poly → Poly) : (s.updPoly f).rings = s.rings := rfl
@[simp] theorem updPoly_cmds (f : Poly → Poly) : (s.updPoly f).cmds = s.cmds := rfl
@[simp] theorem updPoly_reel (f : Poly → Poly) : (s.updPoly f).reel = s.reel := rfl
@[simp] theorem updPoly_pcie (f : Poly → Poly) : (s.updPoly f).pcie = s.pcie := rfl
@[simp] theorem updPoly_trans (f : Poly → Poly) : (s.updPoly f).trans = s.trans := rfl
@[simp] theorem updPoly_ingest (f : Poly → Poly) : (s.updPoly f).ingest = s.ingest := rfl
@[simp] theorem updPoly_accum (f : Poly → Poly) : (s.updPoly f).accum = s.accum := rfl
@[simp] theorem updPoly_masks (f : Poly → Poly) : (s.updPoly f).masks = s.masks := rfl
@[simp] theorem updPoly_gate (f : Poly → Poly) : (s.updPoly f).gate = s.gate := rfl
@[simp] theorem updPoly_trust (f : Poly → Poly) : (s.updPoly f).trust = s.trust := rfl
@[simp] theorem updPoly_rng (f : Poly → Poly) : (s.updPoly f).rng = s.rng := rfl
@[simp] theorem updPoly_power (f : Poly → Poly) : (s.updPoly f).power = s.power := rfl
@[simp] theorem updPoly_mem (f : Poly → Poly) : (s.updPoly f).mem = s.mem := rfl
@[simp] theorem updPoly_warp (f : Poly → Poly) : (s.updPoly f).warp = s.warp := rfl
@[simp] theorem updPoly_faults (f : Poly → Poly) : (s.updPoly f).faults = s.faults := rfl
@[simp] theorem updPoly_counters (f : Poly → Poly) : (s.updPoly f).counters = s.counters := rfl
@[simp] theorem updPoly_side (f : Poly → Poly) : (s.updPoly f).side = s.side := rfl
@[simp] theorem updPoly_draws (f : Poly → Poly) : (s.updPoly f).draws = s.draws := rfl
@[simp] theorem updPoly_out (f : Poly → Poly) : (s.updPoly f).out = s.out := rfl
@[simp] theorem updPoly_pending (f : Poly → Poly) : (s.updPoly f).pending = s.pending := rfl
@[simp] theorem updPoly_self (f : Poly → Poly) : (s.updPoly f).poly = f s.poly := rfl

/-! ## `updHeddle` changes only `poly` -/

@[simp] theorem updHeddle_time (n : Nat) (f : Heddle → Heddle) : (s.updHeddle n f).time = s.time := rfl
@[simp] theorem updHeddle_front (n : Nat) (f : Heddle → Heddle) : (s.updHeddle n f).front = s.front := rfl
@[simp] theorem updHeddle_rings (n : Nat) (f : Heddle → Heddle) : (s.updHeddle n f).rings = s.rings := rfl
@[simp] theorem updHeddle_cmds (n : Nat) (f : Heddle → Heddle) : (s.updHeddle n f).cmds = s.cmds := rfl
@[simp] theorem updHeddle_reel (n : Nat) (f : Heddle → Heddle) : (s.updHeddle n f).reel = s.reel := rfl
@[simp] theorem updHeddle_pcie (n : Nat) (f : Heddle → Heddle) : (s.updHeddle n f).pcie = s.pcie := rfl
@[simp] theorem updHeddle_trans (n : Nat) (f : Heddle → Heddle) : (s.updHeddle n f).trans = s.trans := rfl
@[simp] theorem updHeddle_ingest (n : Nat) (f : Heddle → Heddle) : (s.updHeddle n f).ingest = s.ingest := rfl
@[simp] theorem updHeddle_accum (n : Nat) (f : Heddle → Heddle) : (s.updHeddle n f).accum = s.accum := rfl
@[simp] theorem updHeddle_masks (n : Nat) (f : Heddle → Heddle) : (s.updHeddle n f).masks = s.masks := rfl
@[simp] theorem updHeddle_gate (n : Nat) (f : Heddle → Heddle) : (s.updHeddle n f).gate = s.gate := rfl
@[simp] theorem updHeddle_trust (n : Nat) (f : Heddle → Heddle) : (s.updHeddle n f).trust = s.trust := rfl
@[simp] theorem updHeddle_rng (n : Nat) (f : Heddle → Heddle) : (s.updHeddle n f).rng = s.rng := rfl
@[simp] theorem updHeddle_power (n : Nat) (f : Heddle → Heddle) : (s.updHeddle n f).power = s.power := rfl
@[simp] theorem updHeddle_mem (n : Nat) (f : Heddle → Heddle) : (s.updHeddle n f).mem = s.mem := rfl
@[simp] theorem updHeddle_warp (n : Nat) (f : Heddle → Heddle) : (s.updHeddle n f).warp = s.warp := rfl
@[simp] theorem updHeddle_faults (n : Nat) (f : Heddle → Heddle) : (s.updHeddle n f).faults = s.faults := rfl
@[simp] theorem updHeddle_counters (n : Nat) (f : Heddle → Heddle) : (s.updHeddle n f).counters = s.counters := rfl
@[simp] theorem updHeddle_side (n : Nat) (f : Heddle → Heddle) : (s.updHeddle n f).side = s.side := rfl
@[simp] theorem updHeddle_draws (n : Nat) (f : Heddle → Heddle) : (s.updHeddle n f).draws = s.draws := rfl
@[simp] theorem updHeddle_out (n : Nat) (f : Heddle → Heddle) : (s.updHeddle n f).out = s.out := rfl
@[simp] theorem updHeddle_pending (n : Nat) (f : Heddle → Heddle) : (s.updHeddle n f).pending = s.pending := rfl

/-! ## `updGate` changes only `gate` -/

@[simp] theorem updGate_time (f : Gate → Gate) : (s.updGate f).time = s.time := rfl
@[simp] theorem updGate_front (f : Gate → Gate) : (s.updGate f).front = s.front := rfl
@[simp] theorem updGate_rings (f : Gate → Gate) : (s.updGate f).rings = s.rings := rfl
@[simp] theorem updGate_cmds (f : Gate → Gate) : (s.updGate f).cmds = s.cmds := rfl
@[simp] theorem updGate_reel (f : Gate → Gate) : (s.updGate f).reel = s.reel := rfl
@[simp] theorem updGate_pcie (f : Gate → Gate) : (s.updGate f).pcie = s.pcie := rfl
@[simp] theorem updGate_trans (f : Gate → Gate) : (s.updGate f).trans = s.trans := rfl
@[simp] theorem updGate_ingest (f : Gate → Gate) : (s.updGate f).ingest = s.ingest := rfl
@[simp] theorem updGate_accum (f : Gate → Gate) : (s.updGate f).accum = s.accum := rfl
@[simp] theorem updGate_masks (f : Gate → Gate) : (s.updGate f).masks = s.masks := rfl
@[simp] theorem updGate_poly (f : Gate → Gate) : (s.updGate f).poly = s.poly := rfl
@[simp] theorem updGate_trust (f : Gate → Gate) : (s.updGate f).trust = s.trust := rfl
@[simp] theorem updGate_rng (f : Gate → Gate) : (s.updGate f).rng = s.rng := rfl
@[simp] theorem updGate_power (f : Gate → Gate) : (s.updGate f).power = s.power := rfl
@[simp] theorem updGate_mem (f : Gate → Gate) : (s.updGate f).mem = s.mem := rfl
@[simp] theorem updGate_warp (f : Gate → Gate) : (s.updGate f).warp = s.warp := rfl
@[simp] theorem updGate_faults (f : Gate → Gate) : (s.updGate f).faults = s.faults := rfl
@[simp] theorem updGate_counters (f : Gate → Gate) : (s.updGate f).counters = s.counters := rfl
@[simp] theorem updGate_side (f : Gate → Gate) : (s.updGate f).side = s.side := rfl
@[simp] theorem updGate_draws (f : Gate → Gate) : (s.updGate f).draws = s.draws := rfl
@[simp] theorem updGate_out (f : Gate → Gate) : (s.updGate f).out = s.out := rfl
@[simp] theorem updGate_pending (f : Gate → Gate) : (s.updGate f).pending = s.pending := rfl
@[simp] theorem updGate_self (f : Gate → Gate) : (s.updGate f).gate = f s.gate := rfl

/-! ## `setSlot` changes only `gate` -/

@[simp] theorem setSlot_time (n : Nat) (f : Option VaultSlot) : (s.setSlot n f).time = s.time := rfl
@[simp] theorem setSlot_front (n : Nat) (f : Option VaultSlot) : (s.setSlot n f).front = s.front := rfl
@[simp] theorem setSlot_rings (n : Nat) (f : Option VaultSlot) : (s.setSlot n f).rings = s.rings := rfl
@[simp] theorem setSlot_cmds (n : Nat) (f : Option VaultSlot) : (s.setSlot n f).cmds = s.cmds := rfl
@[simp] theorem setSlot_reel (n : Nat) (f : Option VaultSlot) : (s.setSlot n f).reel = s.reel := rfl
@[simp] theorem setSlot_pcie (n : Nat) (f : Option VaultSlot) : (s.setSlot n f).pcie = s.pcie := rfl
@[simp] theorem setSlot_trans (n : Nat) (f : Option VaultSlot) : (s.setSlot n f).trans = s.trans := rfl
@[simp] theorem setSlot_ingest (n : Nat) (f : Option VaultSlot) : (s.setSlot n f).ingest = s.ingest := rfl
@[simp] theorem setSlot_accum (n : Nat) (f : Option VaultSlot) : (s.setSlot n f).accum = s.accum := rfl
@[simp] theorem setSlot_masks (n : Nat) (f : Option VaultSlot) : (s.setSlot n f).masks = s.masks := rfl
@[simp] theorem setSlot_poly (n : Nat) (f : Option VaultSlot) : (s.setSlot n f).poly = s.poly := rfl
@[simp] theorem setSlot_trust (n : Nat) (f : Option VaultSlot) : (s.setSlot n f).trust = s.trust := rfl
@[simp] theorem setSlot_rng (n : Nat) (f : Option VaultSlot) : (s.setSlot n f).rng = s.rng := rfl
@[simp] theorem setSlot_power (n : Nat) (f : Option VaultSlot) : (s.setSlot n f).power = s.power := rfl
@[simp] theorem setSlot_mem (n : Nat) (f : Option VaultSlot) : (s.setSlot n f).mem = s.mem := rfl
@[simp] theorem setSlot_warp (n : Nat) (f : Option VaultSlot) : (s.setSlot n f).warp = s.warp := rfl
@[simp] theorem setSlot_faults (n : Nat) (f : Option VaultSlot) : (s.setSlot n f).faults = s.faults := rfl
@[simp] theorem setSlot_counters (n : Nat) (f : Option VaultSlot) : (s.setSlot n f).counters = s.counters := rfl
@[simp] theorem setSlot_side (n : Nat) (f : Option VaultSlot) : (s.setSlot n f).side = s.side := rfl
@[simp] theorem setSlot_draws (n : Nat) (f : Option VaultSlot) : (s.setSlot n f).draws = s.draws := rfl
@[simp] theorem setSlot_out (n : Nat) (f : Option VaultSlot) : (s.setSlot n f).out = s.out := rfl
@[simp] theorem setSlot_pending (n : Nat) (f : Option VaultSlot) : (s.setSlot n f).pending = s.pending := rfl

/-! ## `updTrust` changes only `trust` -/

@[simp] theorem updTrust_time (f : Trust → Trust) : (s.updTrust f).time = s.time := rfl
@[simp] theorem updTrust_front (f : Trust → Trust) : (s.updTrust f).front = s.front := rfl
@[simp] theorem updTrust_rings (f : Trust → Trust) : (s.updTrust f).rings = s.rings := rfl
@[simp] theorem updTrust_cmds (f : Trust → Trust) : (s.updTrust f).cmds = s.cmds := rfl
@[simp] theorem updTrust_reel (f : Trust → Trust) : (s.updTrust f).reel = s.reel := rfl
@[simp] theorem updTrust_pcie (f : Trust → Trust) : (s.updTrust f).pcie = s.pcie := rfl
@[simp] theorem updTrust_trans (f : Trust → Trust) : (s.updTrust f).trans = s.trans := rfl
@[simp] theorem updTrust_ingest (f : Trust → Trust) : (s.updTrust f).ingest = s.ingest := rfl
@[simp] theorem updTrust_accum (f : Trust → Trust) : (s.updTrust f).accum = s.accum := rfl
@[simp] theorem updTrust_masks (f : Trust → Trust) : (s.updTrust f).masks = s.masks := rfl
@[simp] theorem updTrust_poly (f : Trust → Trust) : (s.updTrust f).poly = s.poly := rfl
@[simp] theorem updTrust_gate (f : Trust → Trust) : (s.updTrust f).gate = s.gate := rfl
@[simp] theorem updTrust_rng (f : Trust → Trust) : (s.updTrust f).rng = s.rng := rfl
@[simp] theorem updTrust_power (f : Trust → Trust) : (s.updTrust f).power = s.power := rfl
@[simp] theorem updTrust_mem (f : Trust → Trust) : (s.updTrust f).mem = s.mem := rfl
@[simp] theorem updTrust_warp (f : Trust → Trust) : (s.updTrust f).warp = s.warp := rfl
@[simp] theorem updTrust_faults (f : Trust → Trust) : (s.updTrust f).faults = s.faults := rfl
@[simp] theorem updTrust_counters (f : Trust → Trust) : (s.updTrust f).counters = s.counters := rfl
@[simp] theorem updTrust_side (f : Trust → Trust) : (s.updTrust f).side = s.side := rfl
@[simp] theorem updTrust_draws (f : Trust → Trust) : (s.updTrust f).draws = s.draws := rfl
@[simp] theorem updTrust_out (f : Trust → Trust) : (s.updTrust f).out = s.out := rfl
@[simp] theorem updTrust_pending (f : Trust → Trust) : (s.updTrust f).pending = s.pending := rfl
@[simp] theorem updTrust_self (f : Trust → Trust) : (s.updTrust f).trust = f s.trust := rfl

/-! ## `updRng` changes only `rng` -/

@[simp] theorem updRng_time (f : Rng → Rng) : (s.updRng f).time = s.time := rfl
@[simp] theorem updRng_front (f : Rng → Rng) : (s.updRng f).front = s.front := rfl
@[simp] theorem updRng_rings (f : Rng → Rng) : (s.updRng f).rings = s.rings := rfl
@[simp] theorem updRng_cmds (f : Rng → Rng) : (s.updRng f).cmds = s.cmds := rfl
@[simp] theorem updRng_reel (f : Rng → Rng) : (s.updRng f).reel = s.reel := rfl
@[simp] theorem updRng_pcie (f : Rng → Rng) : (s.updRng f).pcie = s.pcie := rfl
@[simp] theorem updRng_trans (f : Rng → Rng) : (s.updRng f).trans = s.trans := rfl
@[simp] theorem updRng_ingest (f : Rng → Rng) : (s.updRng f).ingest = s.ingest := rfl
@[simp] theorem updRng_accum (f : Rng → Rng) : (s.updRng f).accum = s.accum := rfl
@[simp] theorem updRng_masks (f : Rng → Rng) : (s.updRng f).masks = s.masks := rfl
@[simp] theorem updRng_poly (f : Rng → Rng) : (s.updRng f).poly = s.poly := rfl
@[simp] theorem updRng_gate (f : Rng → Rng) : (s.updRng f).gate = s.gate := rfl
@[simp] theorem updRng_trust (f : Rng → Rng) : (s.updRng f).trust = s.trust := rfl
@[simp] theorem updRng_power (f : Rng → Rng) : (s.updRng f).power = s.power := rfl
@[simp] theorem updRng_mem (f : Rng → Rng) : (s.updRng f).mem = s.mem := rfl
@[simp] theorem updRng_warp (f : Rng → Rng) : (s.updRng f).warp = s.warp := rfl
@[simp] theorem updRng_faults (f : Rng → Rng) : (s.updRng f).faults = s.faults := rfl
@[simp] theorem updRng_counters (f : Rng → Rng) : (s.updRng f).counters = s.counters := rfl
@[simp] theorem updRng_side (f : Rng → Rng) : (s.updRng f).side = s.side := rfl
@[simp] theorem updRng_draws (f : Rng → Rng) : (s.updRng f).draws = s.draws := rfl
@[simp] theorem updRng_out (f : Rng → Rng) : (s.updRng f).out = s.out := rfl
@[simp] theorem updRng_pending (f : Rng → Rng) : (s.updRng f).pending = s.pending := rfl
@[simp] theorem updRng_self (f : Rng → Rng) : (s.updRng f).rng = f s.rng := rfl

/-! ## `updPower` changes only `power` -/

@[simp] theorem updPower_time (f : Power → Power) : (s.updPower f).time = s.time := rfl
@[simp] theorem updPower_front (f : Power → Power) : (s.updPower f).front = s.front := rfl
@[simp] theorem updPower_rings (f : Power → Power) : (s.updPower f).rings = s.rings := rfl
@[simp] theorem updPower_cmds (f : Power → Power) : (s.updPower f).cmds = s.cmds := rfl
@[simp] theorem updPower_reel (f : Power → Power) : (s.updPower f).reel = s.reel := rfl
@[simp] theorem updPower_pcie (f : Power → Power) : (s.updPower f).pcie = s.pcie := rfl
@[simp] theorem updPower_trans (f : Power → Power) : (s.updPower f).trans = s.trans := rfl
@[simp] theorem updPower_ingest (f : Power → Power) : (s.updPower f).ingest = s.ingest := rfl
@[simp] theorem updPower_accum (f : Power → Power) : (s.updPower f).accum = s.accum := rfl
@[simp] theorem updPower_masks (f : Power → Power) : (s.updPower f).masks = s.masks := rfl
@[simp] theorem updPower_poly (f : Power → Power) : (s.updPower f).poly = s.poly := rfl
@[simp] theorem updPower_gate (f : Power → Power) : (s.updPower f).gate = s.gate := rfl
@[simp] theorem updPower_trust (f : Power → Power) : (s.updPower f).trust = s.trust := rfl
@[simp] theorem updPower_rng (f : Power → Power) : (s.updPower f).rng = s.rng := rfl
@[simp] theorem updPower_mem (f : Power → Power) : (s.updPower f).mem = s.mem := rfl
@[simp] theorem updPower_warp (f : Power → Power) : (s.updPower f).warp = s.warp := rfl
@[simp] theorem updPower_faults (f : Power → Power) : (s.updPower f).faults = s.faults := rfl
@[simp] theorem updPower_counters (f : Power → Power) : (s.updPower f).counters = s.counters := rfl
@[simp] theorem updPower_side (f : Power → Power) : (s.updPower f).side = s.side := rfl
@[simp] theorem updPower_draws (f : Power → Power) : (s.updPower f).draws = s.draws := rfl
@[simp] theorem updPower_out (f : Power → Power) : (s.updPower f).out = s.out := rfl
@[simp] theorem updPower_pending (f : Power → Power) : (s.updPower f).pending = s.pending := rfl
@[simp] theorem updPower_self (f : Power → Power) : (s.updPower f).power = f s.power := rfl

/-! ## `updMem` changes only `mem` -/

@[simp] theorem updMem_time (f : Memory → Memory) : (s.updMem f).time = s.time := rfl
@[simp] theorem updMem_front (f : Memory → Memory) : (s.updMem f).front = s.front := rfl
@[simp] theorem updMem_rings (f : Memory → Memory) : (s.updMem f).rings = s.rings := rfl
@[simp] theorem updMem_cmds (f : Memory → Memory) : (s.updMem f).cmds = s.cmds := rfl
@[simp] theorem updMem_reel (f : Memory → Memory) : (s.updMem f).reel = s.reel := rfl
@[simp] theorem updMem_pcie (f : Memory → Memory) : (s.updMem f).pcie = s.pcie := rfl
@[simp] theorem updMem_trans (f : Memory → Memory) : (s.updMem f).trans = s.trans := rfl
@[simp] theorem updMem_ingest (f : Memory → Memory) : (s.updMem f).ingest = s.ingest := rfl
@[simp] theorem updMem_accum (f : Memory → Memory) : (s.updMem f).accum = s.accum := rfl
@[simp] theorem updMem_masks (f : Memory → Memory) : (s.updMem f).masks = s.masks := rfl
@[simp] theorem updMem_poly (f : Memory → Memory) : (s.updMem f).poly = s.poly := rfl
@[simp] theorem updMem_gate (f : Memory → Memory) : (s.updMem f).gate = s.gate := rfl
@[simp] theorem updMem_trust (f : Memory → Memory) : (s.updMem f).trust = s.trust := rfl
@[simp] theorem updMem_rng (f : Memory → Memory) : (s.updMem f).rng = s.rng := rfl
@[simp] theorem updMem_power (f : Memory → Memory) : (s.updMem f).power = s.power := rfl
@[simp] theorem updMem_warp (f : Memory → Memory) : (s.updMem f).warp = s.warp := rfl
@[simp] theorem updMem_faults (f : Memory → Memory) : (s.updMem f).faults = s.faults := rfl
@[simp] theorem updMem_counters (f : Memory → Memory) : (s.updMem f).counters = s.counters := rfl
@[simp] theorem updMem_side (f : Memory → Memory) : (s.updMem f).side = s.side := rfl
@[simp] theorem updMem_draws (f : Memory → Memory) : (s.updMem f).draws = s.draws := rfl
@[simp] theorem updMem_out (f : Memory → Memory) : (s.updMem f).out = s.out := rfl
@[simp] theorem updMem_pending (f : Memory → Memory) : (s.updMem f).pending = s.pending := rfl
@[simp] theorem updMem_self (f : Memory → Memory) : (s.updMem f).mem = f s.mem := rfl

/-! ## `updFaults` changes only `faults` -/

@[simp] theorem updFaults_time (f : Faults → Faults) : (s.updFaults f).time = s.time := rfl
@[simp] theorem updFaults_front (f : Faults → Faults) : (s.updFaults f).front = s.front := rfl
@[simp] theorem updFaults_rings (f : Faults → Faults) : (s.updFaults f).rings = s.rings := rfl
@[simp] theorem updFaults_cmds (f : Faults → Faults) : (s.updFaults f).cmds = s.cmds := rfl
@[simp] theorem updFaults_reel (f : Faults → Faults) : (s.updFaults f).reel = s.reel := rfl
@[simp] theorem updFaults_pcie (f : Faults → Faults) : (s.updFaults f).pcie = s.pcie := rfl
@[simp] theorem updFaults_trans (f : Faults → Faults) : (s.updFaults f).trans = s.trans := rfl
@[simp] theorem updFaults_ingest (f : Faults → Faults) : (s.updFaults f).ingest = s.ingest := rfl
@[simp] theorem updFaults_accum (f : Faults → Faults) : (s.updFaults f).accum = s.accum := rfl
@[simp] theorem updFaults_masks (f : Faults → Faults) : (s.updFaults f).masks = s.masks := rfl
@[simp] theorem updFaults_poly (f : Faults → Faults) : (s.updFaults f).poly = s.poly := rfl
@[simp] theorem updFaults_gate (f : Faults → Faults) : (s.updFaults f).gate = s.gate := rfl
@[simp] theorem updFaults_trust (f : Faults → Faults) : (s.updFaults f).trust = s.trust := rfl
@[simp] theorem updFaults_rng (f : Faults → Faults) : (s.updFaults f).rng = s.rng := rfl
@[simp] theorem updFaults_power (f : Faults → Faults) : (s.updFaults f).power = s.power := rfl
@[simp] theorem updFaults_mem (f : Faults → Faults) : (s.updFaults f).mem = s.mem := rfl
@[simp] theorem updFaults_warp (f : Faults → Faults) : (s.updFaults f).warp = s.warp := rfl
@[simp] theorem updFaults_counters (f : Faults → Faults) : (s.updFaults f).counters = s.counters := rfl
@[simp] theorem updFaults_side (f : Faults → Faults) : (s.updFaults f).side = s.side := rfl
@[simp] theorem updFaults_draws (f : Faults → Faults) : (s.updFaults f).draws = s.draws := rfl
@[simp] theorem updFaults_out (f : Faults → Faults) : (s.updFaults f).out = s.out := rfl
@[simp] theorem updFaults_pending (f : Faults → Faults) : (s.updFaults f).pending = s.pending := rfl
@[simp] theorem updFaults_self (f : Faults → Faults) : (s.updFaults f).faults = f s.faults := rfl

/-! ## `updCounters` changes only `counters` -/

@[simp] theorem updCounters_time (f : Counters → Counters) : (s.updCounters f).time = s.time := rfl
@[simp] theorem updCounters_front (f : Counters → Counters) : (s.updCounters f).front = s.front := rfl
@[simp] theorem updCounters_rings (f : Counters → Counters) : (s.updCounters f).rings = s.rings := rfl
@[simp] theorem updCounters_cmds (f : Counters → Counters) : (s.updCounters f).cmds = s.cmds := rfl
@[simp] theorem updCounters_reel (f : Counters → Counters) : (s.updCounters f).reel = s.reel := rfl
@[simp] theorem updCounters_pcie (f : Counters → Counters) : (s.updCounters f).pcie = s.pcie := rfl
@[simp] theorem updCounters_trans (f : Counters → Counters) : (s.updCounters f).trans = s.trans := rfl
@[simp] theorem updCounters_ingest (f : Counters → Counters) : (s.updCounters f).ingest = s.ingest := rfl
@[simp] theorem updCounters_accum (f : Counters → Counters) : (s.updCounters f).accum = s.accum := rfl
@[simp] theorem updCounters_masks (f : Counters → Counters) : (s.updCounters f).masks = s.masks := rfl
@[simp] theorem updCounters_poly (f : Counters → Counters) : (s.updCounters f).poly = s.poly := rfl
@[simp] theorem updCounters_gate (f : Counters → Counters) : (s.updCounters f).gate = s.gate := rfl
@[simp] theorem updCounters_trust (f : Counters → Counters) : (s.updCounters f).trust = s.trust := rfl
@[simp] theorem updCounters_rng (f : Counters → Counters) : (s.updCounters f).rng = s.rng := rfl
@[simp] theorem updCounters_power (f : Counters → Counters) : (s.updCounters f).power = s.power := rfl
@[simp] theorem updCounters_mem (f : Counters → Counters) : (s.updCounters f).mem = s.mem := rfl
@[simp] theorem updCounters_warp (f : Counters → Counters) : (s.updCounters f).warp = s.warp := rfl
@[simp] theorem updCounters_faults (f : Counters → Counters) : (s.updCounters f).faults = s.faults := rfl
@[simp] theorem updCounters_side (f : Counters → Counters) : (s.updCounters f).side = s.side := rfl
@[simp] theorem updCounters_draws (f : Counters → Counters) : (s.updCounters f).draws = s.draws := rfl
@[simp] theorem updCounters_out (f : Counters → Counters) : (s.updCounters f).out = s.out := rfl
@[simp] theorem updCounters_pending (f : Counters → Counters) : (s.updCounters f).pending = s.pending := rfl
@[simp] theorem updCounters_self (f : Counters → Counters) : (s.updCounters f).counters = f s.counters := rfl

/-! ## `updSide` changes only `side` -/

@[simp] theorem updSide_time (f : Side → Side) : (s.updSide f).time = s.time := rfl
@[simp] theorem updSide_front (f : Side → Side) : (s.updSide f).front = s.front := rfl
@[simp] theorem updSide_rings (f : Side → Side) : (s.updSide f).rings = s.rings := rfl
@[simp] theorem updSide_cmds (f : Side → Side) : (s.updSide f).cmds = s.cmds := rfl
@[simp] theorem updSide_reel (f : Side → Side) : (s.updSide f).reel = s.reel := rfl
@[simp] theorem updSide_pcie (f : Side → Side) : (s.updSide f).pcie = s.pcie := rfl
@[simp] theorem updSide_trans (f : Side → Side) : (s.updSide f).trans = s.trans := rfl
@[simp] theorem updSide_ingest (f : Side → Side) : (s.updSide f).ingest = s.ingest := rfl
@[simp] theorem updSide_accum (f : Side → Side) : (s.updSide f).accum = s.accum := rfl
@[simp] theorem updSide_masks (f : Side → Side) : (s.updSide f).masks = s.masks := rfl
@[simp] theorem updSide_poly (f : Side → Side) : (s.updSide f).poly = s.poly := rfl
@[simp] theorem updSide_gate (f : Side → Side) : (s.updSide f).gate = s.gate := rfl
@[simp] theorem updSide_trust (f : Side → Side) : (s.updSide f).trust = s.trust := rfl
@[simp] theorem updSide_rng (f : Side → Side) : (s.updSide f).rng = s.rng := rfl
@[simp] theorem updSide_power (f : Side → Side) : (s.updSide f).power = s.power := rfl
@[simp] theorem updSide_mem (f : Side → Side) : (s.updSide f).mem = s.mem := rfl
@[simp] theorem updSide_warp (f : Side → Side) : (s.updSide f).warp = s.warp := rfl
@[simp] theorem updSide_faults (f : Side → Side) : (s.updSide f).faults = s.faults := rfl
@[simp] theorem updSide_counters (f : Side → Side) : (s.updSide f).counters = s.counters := rfl
@[simp] theorem updSide_draws (f : Side → Side) : (s.updSide f).draws = s.draws := rfl
@[simp] theorem updSide_out (f : Side → Side) : (s.updSide f).out = s.out := rfl
@[simp] theorem updSide_pending (f : Side → Side) : (s.updSide f).pending = s.pending := rfl
@[simp] theorem updSide_self (f : Side → Side) : (s.updSide f).side = f s.side := rfl

/-! ## `emit` changes only `out` -/

@[simp] theorem emit_time (o : Output) : (emit o s).time = s.time := rfl
@[simp] theorem emit_front (o : Output) : (emit o s).front = s.front := rfl
@[simp] theorem emit_rings (o : Output) : (emit o s).rings = s.rings := rfl
@[simp] theorem emit_cmds (o : Output) : (emit o s).cmds = s.cmds := rfl
@[simp] theorem emit_reel (o : Output) : (emit o s).reel = s.reel := rfl
@[simp] theorem emit_pcie (o : Output) : (emit o s).pcie = s.pcie := rfl
@[simp] theorem emit_trans (o : Output) : (emit o s).trans = s.trans := rfl
@[simp] theorem emit_ingest (o : Output) : (emit o s).ingest = s.ingest := rfl
@[simp] theorem emit_accum (o : Output) : (emit o s).accum = s.accum := rfl
@[simp] theorem emit_masks (o : Output) : (emit o s).masks = s.masks := rfl
@[simp] theorem emit_poly (o : Output) : (emit o s).poly = s.poly := rfl
@[simp] theorem emit_gate (o : Output) : (emit o s).gate = s.gate := rfl
@[simp] theorem emit_trust (o : Output) : (emit o s).trust = s.trust := rfl
@[simp] theorem emit_rng (o : Output) : (emit o s).rng = s.rng := rfl
@[simp] theorem emit_power (o : Output) : (emit o s).power = s.power := rfl
@[simp] theorem emit_mem (o : Output) : (emit o s).mem = s.mem := rfl
@[simp] theorem emit_warp (o : Output) : (emit o s).warp = s.warp := rfl
@[simp] theorem emit_faults (o : Output) : (emit o s).faults = s.faults := rfl
@[simp] theorem emit_counters (o : Output) : (emit o s).counters = s.counters := rfl
@[simp] theorem emit_side (o : Output) : (emit o s).side = s.side := rfl
@[simp] theorem emit_draws (o : Output) : (emit o s).draws = s.draws := rfl
@[simp] theorem emit_pending (o : Output) : (emit o s).pending = s.pending := rfl
@[simp] theorem emit_out (o : Output) : (emit o s).out = s.out ++ [o] := rfl

/-! ## What the updated field holds -/

@[simp] theorem updRing_rings (n : Nat) (f : Ring → Ring) : (s.updRing n f).rings = s.rings.modify n f := rfl
@[simp] theorem updCmd_cmds (n : Nat) (f : Cmd → Cmd) : (s.updCmd n f).cmds = Table.upd s.cmds n f := rfl
@[simp] theorem store_mem (n : Nat) (f : Bytes) : (s.store n f).mem = memStore s.mem n f := rfl
@[simp] theorem updPort_ports (n : Nat) (f : Port → Port) : (s.updPort n f).trans.ports = s.trans.ports.modify n f := rfl
@[simp] theorem updLink_links (n : Nat) (f : Link → Link) : (s.updLink n f).warp.links = s.warp.links.modify n f := rfl

/-- Ring `n` after its own update. -/
@[simp] theorem ring_updRing_same (n : Nat) (f : Ring → Ring) (h : n < s.rings.length) :
    (s.updRing n f).ring n = f (s.ring n) := by
  simp [State.ring, State.updRing, unit, List.getD_eq_getElem?_getD, h]

/-- Ring `m` after an update of another ring. -/
@[simp] theorem ring_updRing_other (n m : Nat) (f : Ring → Ring) (h : n ≠ m) : (s.updRing n f).ring m = s.ring m := by
  simp [State.ring, State.updRing, unit, List.getD_eq_getElem?_getD, h]

end Sys2Proof.Machine
end

