-- ==== Sys2Proof/Laws/Table.lean ====
section
/-! SUPPORT. What a lookup finds after each operation on a table. -/

namespace Sys2Proof.Machine

variable {α : Type}

/-- A put entry is found. -/
@[simp] theorem Table.get?_put_same (t : List (Nat × α)) (k : Nat) (a : α) : Table.get? (Table.put t k a) k = some a := by
  induction t with
  | nil => simp [Table.put, Table.get?]
  | cons e r ih =>
    obtain ⟨i, b⟩ := e
    simp only [Table.put]
    split <;> rename_i h1
    · simp [Table.get?]
    · split <;> rename_i h2
      · simp [Table.get?]
      · simp [Table.get?, h2, ih]

/-- A put leaves every other key's entry. -/
theorem Table.get?_put_other (t : List (Nat × α)) (k m : Nat) (a : α) (h : m ≠ k) :
    Table.get? (Table.put t k a) m = Table.get? t m := by
  induction t with
  | nil => simp [Table.put, Table.get?, h.symm]
  | cons e r ih =>
    obtain ⟨i, b⟩ := e
    simp only [Table.put]
    split <;> rename_i h1
    · simp [Table.get?, h.symm]
    · split <;> rename_i h2
      · subst h2; simp [Table.get?, h.symm]
      · simp [Table.get?, ih]

/-- A deleted key has no entry. -/
@[simp] theorem Table.get?_del_same (t : List (Nat × α)) (k : Nat) : Table.get? (Table.del t k) k = none := by
  induction t with
  | nil => simp [Table.del, Table.get?]
  | cons e r ih =>
    obtain ⟨i, b⟩ := e
    by_cases h : i = k
    · simpa [Table.del, h] using ih
    · simp only [Table.del, List.filter_cons, h, ne_eq, not_false_eq_true, decide_true, ite_true, Table.get?]
      exact ih

/-- A deletion leaves every other key's entry. -/
theorem Table.get?_del_other (t : List (Nat × α)) (k m : Nat) (h : m ≠ k) :
    Table.get? (Table.del t k) m = Table.get? t m := by
  induction t with
  | nil => simp [Table.del, Table.get?]
  | cons e r ih =>
    obtain ⟨i, b⟩ := e
    by_cases h2 : i = k
    · subst h2
      simpa [Table.del, Table.get?, h.symm] using ih
    · simp only [Table.del, List.filter_cons, h2, ne_eq, not_false_eq_true, decide_true, ite_true, Table.get?]
      split
      · rfl
      · exact ih

/-- An update changes its key's entry. -/
@[simp] theorem Table.get?_upd_same (t : List (Nat × α)) (k : Nat) (f : α → α) :
    Table.get? (Table.upd t k f) k = (Table.get? t k).map f := by
  induction t with
  | nil => simp [Table.upd, Table.get?]
  | cons e r ih =>
    obtain ⟨i, b⟩ := e
    by_cases h : i = k
    · simp [Table.upd, Table.get?, h]
    · simpa [Table.upd, Table.get?, h] using ih

/-- An update leaves every other key's entry. -/
theorem Table.get?_upd_other (t : List (Nat × α)) (k m : Nat) (f : α → α) (h : m ≠ k) :
    Table.get? (Table.upd t k f) m = Table.get? t m := by
  induction t with
  | nil => simp [Table.upd, Table.get?]
  | cons e r ih =>
    obtain ⟨i, b⟩ := e
    by_cases h2 : i = k
    · subst h2; simpa [Table.upd, Table.get?, h.symm] using ih
    · by_cases h3 : i = m
      · simp [Table.upd, Table.get?, h3, h]
      · simpa [Table.upd, Table.get?, h2, h3] using ih

/-- A change of every entry changes the entry that is found. -/
@[simp] theorem Table.get?_mapAll (t : List (Nat × α)) (f : Nat → α → α) (k : Nat) :
    Table.get? (Table.mapAll t f) k = (Table.get? t k).map (f k) := by
  induction t with
  | nil => simp [Table.mapAll, Table.get?]
  | cons e r ih =>
    obtain ⟨i, b⟩ := e
    by_cases h : i = k
    · simp [Table.mapAll, Table.get?, h]
    · simpa [Table.mapAll, Table.get?, h] using ih

end Sys2Proof.Machine
end

