-- ==== Sys2Proof/Laws/Frames.lean ====
section
/-! SUPPORT. What tracing, posting an event, settling a ring and completing a command leave unchanged. -/

namespace Sys2Proof.Machine

open Sys2Proof

/-! ## `addTrace` -/

@[simp] theorem addTrace_time (k : Nat) (j g : BitVec 8) (src fd : Nat) (a : Bytes) (s : State) : (addTrace k j g src fd a s).time = s.time := by
  unfold addTrace; dsimp only; split <;> rfl
@[simp] theorem addTrace_front (k : Nat) (j g : BitVec 8) (src fd : Nat) (a : Bytes) (s : State) : (addTrace k j g src fd a s).front = s.front := by
  unfold addTrace; dsimp only; split <;> rfl
@[simp] theorem addTrace_rings (k : Nat) (j g : BitVec 8) (src fd : Nat) (a : Bytes) (s : State) : (addTrace k j g src fd a s).rings = s.rings := by
  unfold addTrace; dsimp only; split <;> rfl
@[simp] theorem addTrace_cmds (k : Nat) (j g : BitVec 8) (src fd : Nat) (a : Bytes) (s : State) : (addTrace k j g src fd a s).cmds = s.cmds := by
  unfold addTrace; dsimp only; split <;> rfl
@[simp] theorem addTrace_reel (k : Nat) (j g : BitVec 8) (src fd : Nat) (a : Bytes) (s : State) : (addTrace k j g src fd a s).reel = s.reel := by
  unfold addTrace; dsimp only; split <;> rfl
@[simp] theorem addTrace_pcie (k : Nat) (j g : BitVec 8) (src fd : Nat) (a : Bytes) (s : State) : (addTrace k j g src fd a s).pcie = s.pcie := by
  unfold addTrace; dsimp only; split <;> rfl
@[simp] theorem addTrace_trans (k : Nat) (j g : BitVec 8) (src fd : Nat) (a : Bytes) (s : State) : (addTrace k j g src fd a s).trans = s.trans := by
  unfold addTrace; dsimp only; split <;> rfl
@[simp] theorem addTrace_ingest (k : Nat) (j g : BitVec 8) (src fd : Nat) (a : Bytes) (s : State) : (addTrace k j g src fd a s).ingest = s.ingest := by
  unfold addTrace; dsimp only; split <;> rfl
@[simp] theorem addTrace_accum (k : Nat) (j g : BitVec 8) (src fd : Nat) (a : Bytes) (s : State) : (addTrace k j g src fd a s).accum = s.accum := by
  unfold addTrace; dsimp only; split <;> rfl
@[simp] theorem addTrace_masks (k : Nat) (j g : BitVec 8) (src fd : Nat) (a : Bytes) (s : State) : (addTrace k j g src fd a s).masks = s.masks := by
  unfold addTrace; dsimp only; split <;> rfl
@[simp] theorem addTrace_poly (k : Nat) (j g : BitVec 8) (src fd : Nat) (a : Bytes) (s : State) : (addTrace k j g src fd a s).poly = s.poly := by
  unfold addTrace; dsimp only; split <;> rfl
@[simp] theorem addTrace_gate (k : Nat) (j g : BitVec 8) (src fd : Nat) (a : Bytes) (s : State) : (addTrace k j g src fd a s).gate = s.gate := by
  unfold addTrace; dsimp only; split <;> rfl
@[simp] theorem addTrace_trust (k : Nat) (j g : BitVec 8) (src fd : Nat) (a : Bytes) (s : State) : (addTrace k j g src fd a s).trust = s.trust := by
  unfold addTrace; dsimp only; split <;> rfl
@[simp] theorem addTrace_rng (k : Nat) (j g : BitVec 8) (src fd : Nat) (a : Bytes) (s : State) : (addTrace k j g src fd a s).rng = s.rng := by
  unfold addTrace; dsimp only; split <;> rfl
@[simp] theorem addTrace_power (k : Nat) (j g : BitVec 8) (src fd : Nat) (a : Bytes) (s : State) : (addTrace k j g src fd a s).power = s.power := by
  unfold addTrace; dsimp only; split <;> rfl
@[simp] theorem addTrace_mem (k : Nat) (j g : BitVec 8) (src fd : Nat) (a : Bytes) (s : State) : (addTrace k j g src fd a s).mem = s.mem := by
  unfold addTrace; dsimp only; split <;> rfl
@[simp] theorem addTrace_warp (k : Nat) (j g : BitVec 8) (src fd : Nat) (a : Bytes) (s : State) : (addTrace k j g src fd a s).warp = s.warp := by
  unfold addTrace; dsimp only; split <;> rfl
@[simp] theorem addTrace_faults (k : Nat) (j g : BitVec 8) (src fd : Nat) (a : Bytes) (s : State) : (addTrace k j g src fd a s).faults = s.faults := by
  unfold addTrace; dsimp only; split <;> rfl
@[simp] theorem addTrace_side (k : Nat) (j g : BitVec 8) (src fd : Nat) (a : Bytes) (s : State) : (addTrace k j g src fd a s).side = s.side := by
  unfold addTrace; dsimp only; split <;> rfl
@[simp] theorem addTrace_draws (k : Nat) (j g : BitVec 8) (src fd : Nat) (a : Bytes) (s : State) : (addTrace k j g src fd a s).draws = s.draws := by
  unfold addTrace; dsimp only; split <;> rfl
@[simp] theorem addTrace_out (k : Nat) (j g : BitVec 8) (src fd : Nat) (a : Bytes) (s : State) : (addTrace k j g src fd a s).out = s.out := by
  unfold addTrace; dsimp only; split <;> rfl
@[simp] theorem addTrace_pending (k : Nat) (j g : BitVec 8) (src fd : Nat) (a : Bytes) (s : State) : (addTrace k j g src fd a s).pending = s.pending := by
  unfold addTrace; dsimp only; split <;> rfl

/-! ## `enterQueue` -/

@[simp] theorem enterQueue_time (e : Event) (s : State) : (enterQueue e s).time = s.time := by
  simp [enterQueue]
@[simp] theorem enterQueue_front (e : Event) (s : State) : (enterQueue e s).front = s.front := by
  simp [enterQueue]
@[simp] theorem enterQueue_rings (e : Event) (s : State) : (enterQueue e s).rings = s.rings := by
  simp [enterQueue]
@[simp] theorem enterQueue_cmds (e : Event) (s : State) : (enterQueue e s).cmds = s.cmds := by
  simp [enterQueue]
@[simp] theorem enterQueue_pcie (e : Event) (s : State) : (enterQueue e s).pcie = s.pcie := by
  simp [enterQueue]
@[simp] theorem enterQueue_trans (e : Event) (s : State) : (enterQueue e s).trans = s.trans := by
  simp [enterQueue]
@[simp] theorem enterQueue_ingest (e : Event) (s : State) : (enterQueue e s).ingest = s.ingest := by
  simp [enterQueue]
@[simp] theorem enterQueue_accum (e : Event) (s : State) : (enterQueue e s).accum = s.accum := by
  simp [enterQueue]
@[simp] theorem enterQueue_masks (e : Event) (s : State) : (enterQueue e s).masks = s.masks := by
  simp [enterQueue]
@[simp] theorem enterQueue_poly (e : Event) (s : State) : (enterQueue e s).poly = s.poly := by
  simp [enterQueue]
@[simp] theorem enterQueue_gate (e : Event) (s : State) : (enterQueue e s).gate = s.gate := by
  simp [enterQueue]
@[simp] theorem enterQueue_trust (e : Event) (s : State) : (enterQueue e s).trust = s.trust := by
  simp [enterQueue]
@[simp] theorem enterQueue_rng (e : Event) (s : State) : (enterQueue e s).rng = s.rng := by
  simp [enterQueue]
@[simp] theorem enterQueue_power (e : Event) (s : State) : (enterQueue e s).power = s.power := by
  simp [enterQueue]
@[simp] theorem enterQueue_mem (e : Event) (s : State) : (enterQueue e s).mem = s.mem := by
  simp [enterQueue]
@[simp] theorem enterQueue_warp (e : Event) (s : State) : (enterQueue e s).warp = s.warp := by
  simp [enterQueue]
@[simp] theorem enterQueue_faults (e : Event) (s : State) : (enterQueue e s).faults = s.faults := by
  simp [enterQueue]
@[simp] theorem enterQueue_side (e : Event) (s : State) : (enterQueue e s).side = s.side := by
  simp [enterQueue]
@[simp] theorem enterQueue_draws (e : Event) (s : State) : (enterQueue e s).draws = s.draws := by
  simp [enterQueue]
@[simp] theorem enterQueue_out (e : Event) (s : State) : (enterQueue e s).out = s.out := by
  simp [enterQueue]
@[simp] theorem enterQueue_pending (e : Event) (s : State) : (enterQueue e s).pending = s.pending := by
  simp [enterQueue]

/-! ## `postFormed` -/

@[simp] theorem postFormed_time (e : Event) (s : State) : (postFormed e s).time = s.time := by
  unfold postFormed; split
  · simp
  · split <;> simp
@[simp] theorem postFormed_front (e : Event) (s : State) : (postFormed e s).front = s.front := by
  unfold postFormed; split
  · simp
  · split <;> simp
@[simp] theorem postFormed_rings (e : Event) (s : State) : (postFormed e s).rings = s.rings := by
  unfold postFormed; split
  · simp
  · split <;> simp
@[simp] theorem postFormed_cmds (e : Event) (s : State) : (postFormed e s).cmds = s.cmds := by
  unfold postFormed; split
  · simp
  · split <;> simp
@[simp] theorem postFormed_pcie (e : Event) (s : State) : (postFormed e s).pcie = s.pcie := by
  unfold postFormed; split
  · simp
  · split <;> simp
@[simp] theorem postFormed_trans (e : Event) (s : State) : (postFormed e s).trans = s.trans := by
  unfold postFormed; split
  · simp
  · split <;> simp
@[simp] theorem postFormed_ingest (e : Event) (s : State) : (postFormed e s).ingest = s.ingest := by
  unfold postFormed; split
  · simp
  · split <;> simp
@[simp] theorem postFormed_accum (e : Event) (s : State) : (postFormed e s).accum = s.accum := by
  unfold postFormed; split
  · simp
  · split <;> simp
@[simp] theorem postFormed_masks (e : Event) (s : State) : (postFormed e s).masks = s.masks := by
  unfold postFormed; split
  · simp
  · split <;> simp
@[simp] theorem postFormed_poly (e : Event) (s : State) : (postFormed e s).poly = s.poly := by
  unfold postFormed; split
  · simp
  · split <;> simp
@[simp] theorem postFormed_gate (e : Event) (s : State) : (postFormed e s).gate = s.gate := by
  unfold postFormed; split
  · simp
  · split <;> simp
@[simp] theorem postFormed_trust (e : Event) (s : State) : (postFormed e s).trust = s.trust := by
  unfold postFormed; split
  · simp
  · split <;> simp
@[simp] theorem postFormed_rng (e : Event) (s : State) : (postFormed e s).rng = s.rng := by
  unfold postFormed; split
  · simp
  · split <;> simp
@[simp] theorem postFormed_power (e : Event) (s : State) : (postFormed e s).power = s.power := by
  unfold postFormed; split
  · simp
  · split <;> simp
@[simp] theorem postFormed_mem (e : Event) (s : State) : (postFormed e s).mem = s.mem := by
  unfold postFormed; split
  · simp
  · split <;> simp
@[simp] theorem postFormed_warp (e : Event) (s : State) : (postFormed e s).warp = s.warp := by
  unfold postFormed; split
  · simp
  · split <;> simp
@[simp] theorem postFormed_faults (e : Event) (s : State) : (postFormed e s).faults = s.faults := by
  unfold postFormed; split
  · simp
  · split <;> simp
@[simp] theorem postFormed_side (e : Event) (s : State) : (postFormed e s).side = s.side := by
  unfold postFormed; split
  · simp
  · split <;> simp
@[simp] theorem postFormed_draws (e : Event) (s : State) : (postFormed e s).draws = s.draws := by
  unfold postFormed; split
  · simp
  · split <;> simp
@[simp] theorem postFormed_out (e : Event) (s : State) : (postFormed e s).out = s.out := by
  unfold postFormed; split
  · simp
  · split <;> simp
@[simp] theorem postFormed_pending (e : Event) (s : State) : (postFormed e s).pending = s.pending := by
  unfold postFormed; split
  · simp
  · split <;> simp

/-! ## `post` -/

@[simp] theorem post_time (t : EventType) (c i : Nat) (j g : BitVec 8) (p : Bytes) (s : State) : (post t c i j g p s).time = s.time := by
  simp [post]
@[simp] theorem post_front (t : EventType) (c i : Nat) (j g : BitVec 8) (p : Bytes) (s : State) : (post t c i j g p s).front = s.front := by
  simp [post]
@[simp] theorem post_rings (t : EventType) (c i : Nat) (j g : BitVec 8) (p : Bytes) (s : State) : (post t c i j g p s).rings = s.rings := by
  simp [post]
@[simp] theorem post_cmds (t : EventType) (c i : Nat) (j g : BitVec 8) (p : Bytes) (s : State) : (post t c i j g p s).cmds = s.cmds := by
  simp [post]
@[simp] theorem post_pcie (t : EventType) (c i : Nat) (j g : BitVec 8) (p : Bytes) (s : State) : (post t c i j g p s).pcie = s.pcie := by
  simp [post]
@[simp] theorem post_trans (t : EventType) (c i : Nat) (j g : BitVec 8) (p : Bytes) (s : State) : (post t c i j g p s).trans = s.trans := by
  simp [post]
@[simp] theorem post_ingest (t : EventType) (c i : Nat) (j g : BitVec 8) (p : Bytes) (s : State) : (post t c i j g p s).ingest = s.ingest := by
  simp [post]
@[simp] theorem post_accum (t : EventType) (c i : Nat) (j g : BitVec 8) (p : Bytes) (s : State) : (post t c i j g p s).accum = s.accum := by
  simp [post]
@[simp] theorem post_masks (t : EventType) (c i : Nat) (j g : BitVec 8) (p : Bytes) (s : State) : (post t c i j g p s).masks = s.masks := by
  simp [post]
@[simp] theorem post_poly (t : EventType) (c i : Nat) (j g : BitVec 8) (p : Bytes) (s : State) : (post t c i j g p s).poly = s.poly := by
  simp [post]
@[simp] theorem post_gate (t : EventType) (c i : Nat) (j g : BitVec 8) (p : Bytes) (s : State) : (post t c i j g p s).gate = s.gate := by
  simp [post]
@[simp] theorem post_trust (t : EventType) (c i : Nat) (j g : BitVec 8) (p : Bytes) (s : State) : (post t c i j g p s).trust = s.trust := by
  simp [post]
@[simp] theorem post_rng (t : EventType) (c i : Nat) (j g : BitVec 8) (p : Bytes) (s : State) : (post t c i j g p s).rng = s.rng := by
  simp [post]
@[simp] theorem post_power (t : EventType) (c i : Nat) (j g : BitVec 8) (p : Bytes) (s : State) : (post t c i j g p s).power = s.power := by
  simp [post]
@[simp] theorem post_mem (t : EventType) (c i : Nat) (j g : BitVec 8) (p : Bytes) (s : State) : (post t c i j g p s).mem = s.mem := by
  simp [post]
@[simp] theorem post_warp (t : EventType) (c i : Nat) (j g : BitVec 8) (p : Bytes) (s : State) : (post t c i j g p s).warp = s.warp := by
  simp [post]
@[simp] theorem post_faults (t : EventType) (c i : Nat) (j g : BitVec 8) (p : Bytes) (s : State) : (post t c i j g p s).faults = s.faults := by
  simp [post]
@[simp] theorem post_side (t : EventType) (c i : Nat) (j g : BitVec 8) (p : Bytes) (s : State) : (post t c i j g p s).side = s.side := by
  simp [post]
@[simp] theorem post_draws (t : EventType) (c i : Nat) (j g : BitVec 8) (p : Bytes) (s : State) : (post t c i j g p s).draws = s.draws := by
  simp [post]
@[simp] theorem post_out (t : EventType) (c i : Nat) (j g : BitVec 8) (p : Bytes) (s : State) : (post t c i j g p s).out = s.out := by
  simp [post]
@[simp] theorem post_pending (t : EventType) (c i : Nat) (j g : BitVec 8) (p : Bytes) (s : State) : (post t c i j g p s).pending = s.pending := by
  simp [post]

/-! ## `postFor` -/

@[simp] theorem postFor_time (t : EventType) (c i : Nat) (j g : BitVec 8) (p : Bytes) (b : Bool) (n : Option Nat) (s : State) : (postFor t c i j g p b n s).time = s.time := by
  simp [postFor]
@[simp] theorem postFor_front (t : EventType) (c i : Nat) (j g : BitVec 8) (p : Bytes) (b : Bool) (n : Option Nat) (s : State) : (postFor t c i j g p b n s).front = s.front := by
  simp [postFor]
@[simp] theorem postFor_rings (t : EventType) (c i : Nat) (j g : BitVec 8) (p : Bytes) (b : Bool) (n : Option Nat) (s : State) : (postFor t c i j g p b n s).rings = s.rings := by
  simp [postFor]
@[simp] theorem postFor_cmds (t : EventType) (c i : Nat) (j g : BitVec 8) (p : Bytes) (b : Bool) (n : Option Nat) (s : State) : (postFor t c i j g p b n s).cmds = s.cmds := by
  simp [postFor]
@[simp] theorem postFor_pcie (t : EventType) (c i : Nat) (j g : BitVec 8) (p : Bytes) (b : Bool) (n : Option Nat) (s : State) : (postFor t c i j g p b n s).pcie = s.pcie := by
  simp [postFor]
@[simp] theorem postFor_trans (t : EventType) (c i : Nat) (j g : BitVec 8) (p : Bytes) (b : Bool) (n : Option Nat) (s : State) : (postFor t c i j g p b n s).trans = s.trans := by
  simp [postFor]
@[simp] theorem postFor_ingest (t : EventType) (c i : Nat) (j g : BitVec 8) (p : Bytes) (b : Bool) (n : Option Nat) (s : State) : (postFor t c i j g p b n s).ingest = s.ingest := by
  simp [postFor]
@[simp] theorem postFor_accum (t : EventType) (c i : Nat) (j g : BitVec 8) (p : Bytes) (b : Bool) (n : Option Nat) (s : State) : (postFor t c i j g p b n s).accum = s.accum := by
  simp [postFor]
@[simp] theorem postFor_masks (t : EventType) (c i : Nat) (j g : BitVec 8) (p : Bytes) (b : Bool) (n : Option Nat) (s : State) : (postFor t c i j g p b n s).masks = s.masks := by
  simp [postFor]
@[simp] theorem postFor_poly (t : EventType) (c i : Nat) (j g : BitVec 8) (p : Bytes) (b : Bool) (n : Option Nat) (s : State) : (postFor t c i j g p b n s).poly = s.poly := by
  simp [postFor]
@[simp] theorem postFor_gate (t : EventType) (c i : Nat) (j g : BitVec 8) (p : Bytes) (b : Bool) (n : Option Nat) (s : State) : (postFor t c i j g p b n s).gate = s.gate := by
  simp [postFor]
@[simp] theorem postFor_trust (t : EventType) (c i : Nat) (j g : BitVec 8) (p : Bytes) (b : Bool) (n : Option Nat) (s : State) : (postFor t c i j g p b n s).trust = s.trust := by
  simp [postFor]
@[simp] theorem postFor_rng (t : EventType) (c i : Nat) (j g : BitVec 8) (p : Bytes) (b : Bool) (n : Option Nat) (s : State) : (postFor t c i j g p b n s).rng = s.rng := by
  simp [postFor]
@[simp] theorem postFor_power (t : EventType) (c i : Nat) (j g : BitVec 8) (p : Bytes) (b : Bool) (n : Option Nat) (s : State) : (postFor t c i j g p b n s).power = s.power := by
  simp [postFor]
@[simp] theorem postFor_mem (t : EventType) (c i : Nat) (j g : BitVec 8) (p : Bytes) (b : Bool) (n : Option Nat) (s : State) : (postFor t c i j g p b n s).mem = s.mem := by
  simp [postFor]
@[simp] theorem postFor_warp (t : EventType) (c i : Nat) (j g : BitVec 8) (p : Bytes) (b : Bool) (n : Option Nat) (s : State) : (postFor t c i j g p b n s).warp = s.warp := by
  simp [postFor]
@[simp] theorem postFor_faults (t : EventType) (c i : Nat) (j g : BitVec 8) (p : Bytes) (b : Bool) (n : Option Nat) (s : State) : (postFor t c i j g p b n s).faults = s.faults := by
  simp [postFor]
@[simp] theorem postFor_side (t : EventType) (c i : Nat) (j g : BitVec 8) (p : Bytes) (b : Bool) (n : Option Nat) (s : State) : (postFor t c i j g p b n s).side = s.side := by
  simp [postFor]
@[simp] theorem postFor_draws (t : EventType) (c i : Nat) (j g : BitVec 8) (p : Bytes) (b : Bool) (n : Option Nat) (s : State) : (postFor t c i j g p b n s).draws = s.draws := by
  simp [postFor]
@[simp] theorem postFor_out (t : EventType) (c i : Nat) (j g : BitVec 8) (p : Bytes) (b : Bool) (n : Option Nat) (s : State) : (postFor t c i j g p b n s).out = s.out := by
  simp [postFor]
@[simp] theorem postFor_pending (t : EventType) (c i : Nat) (j g : BitVec 8) (p : Bytes) (b : Bool) (n : Option Nat) (s : State) : (postFor t c i j g p b n s).pending = s.pending := by
  simp [postFor]

/-! ## `ringSettle` -/

@[simp] theorem ringSettle_time (n : Nat) (s : State) : (ringSettle n s).time = s.time := by
  unfold ringSettle; split
  · rfl
  · dsimp only; split <;> split <;> simp
@[simp] theorem ringSettle_front (n : Nat) (s : State) : (ringSettle n s).front = s.front := by
  unfold ringSettle; split
  · rfl
  · dsimp only; split <;> split <;> simp
@[simp] theorem ringSettle_cmds (n : Nat) (s : State) : (ringSettle n s).cmds = s.cmds := by
  unfold ringSettle; split
  · rfl
  · dsimp only; split <;> split <;> simp
@[simp] theorem ringSettle_pcie (n : Nat) (s : State) : (ringSettle n s).pcie = s.pcie := by
  unfold ringSettle; split
  · rfl
  · dsimp only; split <;> split <;> simp
@[simp] theorem ringSettle_trans (n : Nat) (s : State) : (ringSettle n s).trans = s.trans := by
  unfold ringSettle; split
  · rfl
  · dsimp only; split <;> split <;> simp
@[simp] theorem ringSettle_ingest (n : Nat) (s : State) : (ringSettle n s).ingest = s.ingest := by
  unfold ringSettle; split
  · rfl
  · dsimp only; split <;> split <;> simp
@[simp] theorem ringSettle_accum (n : Nat) (s : State) : (ringSettle n s).accum = s.accum := by
  unfold ringSettle; split
  · rfl
  · dsimp only; split <;> split <;> simp
@[simp] theorem ringSettle_masks (n : Nat) (s : State) : (ringSettle n s).masks = s.masks := by
  unfold ringSettle; split
  · rfl
  · dsimp only; split <;> split <;> simp
@[simp] theorem ringSettle_poly (n : Nat) (s : State) : (ringSettle n s).poly = s.poly := by
  unfold ringSettle; split
  · rfl
  · dsimp only; split <;> split <;> simp
@[simp] theorem ringSettle_gate (n : Nat) (s : State) : (ringSettle n s).gate = s.gate := by
  unfold ringSettle; split
  · rfl
  · dsimp only; split <;> split <;> simp
@[simp] theorem ringSettle_trust (n : Nat) (s : State) : (ringSettle n s).trust = s.trust := by
  unfold ringSettle; split
  · rfl
  · dsimp only; split <;> split <;> simp
@[simp] theorem ringSettle_rng (n : Nat) (s : State) : (ringSettle n s).rng = s.rng := by
  unfold ringSettle; split
  · rfl
  · dsimp only; split <;> split <;> simp
@[simp] theorem ringSettle_power (n : Nat) (s : State) : (ringSettle n s).power = s.power := by
  unfold ringSettle; split
  · rfl
  · dsimp only; split <;> split <;> simp
@[simp] theorem ringSettle_mem (n : Nat) (s : State) : (ringSettle n s).mem = s.mem := by
  unfold ringSettle; split
  · rfl
  · dsimp only; split <;> split <;> simp
@[simp] theorem ringSettle_warp (n : Nat) (s : State) : (ringSettle n s).warp = s.warp := by
  unfold ringSettle; split
  · rfl
  · dsimp only; split <;> split <;> simp
@[simp] theorem ringSettle_faults (n : Nat) (s : State) : (ringSettle n s).faults = s.faults := by
  unfold ringSettle; split
  · rfl
  · dsimp only; split <;> split <;> simp
@[simp] theorem ringSettle_side (n : Nat) (s : State) : (ringSettle n s).side = s.side := by
  unfold ringSettle; split
  · rfl
  · dsimp only; split <;> split <;> simp
@[simp] theorem ringSettle_draws (n : Nat) (s : State) : (ringSettle n s).draws = s.draws := by
  unfold ringSettle; split
  · rfl
  · dsimp only; split <;> split <;> simp
@[simp] theorem ringSettle_out (n : Nat) (s : State) : (ringSettle n s).out = s.out := by
  unfold ringSettle; split
  · rfl
  · dsimp only; split <;> split <;> simp
@[simp] theorem ringSettle_pending (n : Nat) (s : State) : (ringSettle n s).pending = s.pending := by
  unfold ringSettle; split
  · rfl
  · dsimp only; split <;> split <;> simp

/-! ## `completeCode` -/

@[simp] theorem completeCode_time (cid code d r : Nat) (s : State) : (completeCode cid code d r s).time = s.time := by
  unfold completeCode; split
  · rfl
  · dsimp only; split
    · simp [forgetCmd]
    · split <;> simp [forgetCmd]
@[simp] theorem completeCode_front (cid code d r : Nat) (s : State) : (completeCode cid code d r s).front = s.front := by
  unfold completeCode; split
  · rfl
  · dsimp only; split
    · simp [forgetCmd]
    · split <;> simp [forgetCmd]
@[simp] theorem completeCode_ingest (cid code d r : Nat) (s : State) : (completeCode cid code d r s).ingest = s.ingest := by
  unfold completeCode; split
  · rfl
  · dsimp only; split
    · simp [forgetCmd]
    · split <;> simp [forgetCmd]
@[simp] theorem completeCode_accum (cid code d r : Nat) (s : State) : (completeCode cid code d r s).accum = s.accum := by
  unfold completeCode; split
  · rfl
  · dsimp only; split
    · simp [forgetCmd]
    · split <;> simp [forgetCmd]
@[simp] theorem completeCode_masks (cid code d r : Nat) (s : State) : (completeCode cid code d r s).masks = s.masks := by
  unfold completeCode; split
  · rfl
  · dsimp only; split
    · simp [forgetCmd]
    · split <;> simp [forgetCmd]
@[simp] theorem completeCode_gate (cid code d r : Nat) (s : State) : (completeCode cid code d r s).gate = s.gate := by
  unfold completeCode; split
  · rfl
  · dsimp only; split
    · simp [forgetCmd]
    · split <;> simp [forgetCmd]
@[simp] theorem completeCode_trust (cid code d r : Nat) (s : State) : (completeCode cid code d r s).trust = s.trust := by
  unfold completeCode; split
  · rfl
  · dsimp only; split
    · simp [forgetCmd]
    · split <;> simp [forgetCmd]
@[simp] theorem completeCode_power (cid code d r : Nat) (s : State) : (completeCode cid code d r s).power = s.power := by
  unfold completeCode; split
  · rfl
  · dsimp only; split
    · simp [forgetCmd]
    · split <;> simp [forgetCmd]
/-- The end of a command gives back its scratch, and changes no byte of memory. -/
@[simp] theorem completeCode_cells (cid code d r : Nat) (s : State) : (completeCode cid code d r s).mem.cells = s.mem.cells := by
  unfold completeCode; split
  · rfl
  · dsimp only; split
    · simp [forgetCmd]
    · split <;> simp [forgetCmd]
@[simp] theorem completeCode_warp (cid code d r : Nat) (s : State) : (completeCode cid code d r s).warp = s.warp := by
  unfold completeCode; split
  · rfl
  · dsimp only; split
    · simp [forgetCmd]
    · split <;> simp [forgetCmd]
@[simp] theorem completeCode_faults (cid code d r : Nat) (s : State) : (completeCode cid code d r s).faults = s.faults := by
  unfold completeCode; split
  · rfl
  · dsimp only; split
    · simp [forgetCmd]
    · split <;> simp [forgetCmd]
@[simp] theorem completeCode_draws (cid code d r : Nat) (s : State) : (completeCode cid code d r s).draws = s.draws := by
  unfold completeCode; split
  · rfl
  · dsimp only; split
    · simp [forgetCmd]
    · split <;> simp [forgetCmd]
@[simp] theorem completeCode_out (cid code d r : Nat) (s : State) : (completeCode cid code d r s).out = s.out := by
  unfold completeCode; split
  · rfl
  · dsimp only; split
    · simp [forgetCmd]
    · split <;> simp [forgetCmd]
@[simp] theorem completeCode_pending (cid code d r : Nat) (s : State) : (completeCode cid code d r s).pending = s.pending := by
  unfold completeCode; split
  · rfl
  · dsimp only; split
    · simp [forgetCmd]
    · split <;> simp [forgetCmd]

/-! ## `complete` -/

@[simp] theorem complete_time (cid : Nat) (st : Status) (d r : Nat) (s : State) : (complete cid st d r s).time = s.time := by
  simp [complete]
@[simp] theorem complete_front (cid : Nat) (st : Status) (d r : Nat) (s : State) : (complete cid st d r s).front = s.front := by
  simp [complete]
@[simp] theorem complete_ingest (cid : Nat) (st : Status) (d r : Nat) (s : State) : (complete cid st d r s).ingest = s.ingest := by
  simp [complete]
@[simp] theorem complete_accum (cid : Nat) (st : Status) (d r : Nat) (s : State) : (complete cid st d r s).accum = s.accum := by
  simp [complete]
@[simp] theorem complete_masks (cid : Nat) (st : Status) (d r : Nat) (s : State) : (complete cid st d r s).masks = s.masks := by
  simp [complete]
@[simp] theorem complete_gate (cid : Nat) (st : Status) (d r : Nat) (s : State) : (complete cid st d r s).gate = s.gate := by
  simp [complete]
@[simp] theorem complete_trust (cid : Nat) (st : Status) (d r : Nat) (s : State) : (complete cid st d r s).trust = s.trust := by
  simp [complete]
@[simp] theorem complete_power (cid : Nat) (st : Status) (d r : Nat) (s : State) : (complete cid st d r s).power = s.power := by
  simp [complete]
@[simp] theorem complete_cells (cid : Nat) (st : Status) (d r : Nat) (s : State) : (complete cid st d r s).mem.cells = s.mem.cells := by
  simp [complete]
@[simp] theorem complete_warp (cid : Nat) (st : Status) (d r : Nat) (s : State) : (complete cid st d r s).warp = s.warp := by
  simp [complete]
@[simp] theorem complete_faults (cid : Nat) (st : Status) (d r : Nat) (s : State) : (complete cid st d r s).faults = s.faults := by
  simp [complete]
@[simp] theorem complete_draws (cid : Nat) (st : Status) (d r : Nat) (s : State) : (complete cid st d r s).draws = s.draws := by
  simp [complete]
@[simp] theorem complete_out (cid : Nat) (st : Status) (d r : Nat) (s : State) : (complete cid st d r s).out = s.out := by
  simp [complete]
@[simp] theorem complete_pending (cid : Nat) (st : Status) (d r : Nat) (s : State) : (complete cid st d r s).pending = s.pending := by
  simp [complete]

end Sys2Proof.Machine
end

