-- ==== Sys2Proof/Laws/Commands.lean ====
section
/-! SUPPORT. The life of a ring command: when its row runs it, what each verdict leads to, and the record that a completion forms. -/

namespace Sys2Proof.Machine

open Sys2Proof

variable {cid : Nat} {op : Opcode} {c : Cmd} {s : State}

/-- A command of the row's opcode that has started is the one that runs. -/
theorem running?_of_phase (h : s.cmd? cid = some c) (ho : c.op = op) (hp : c.phase = .started ∨ c.phase = .working) :
    running? cid op s = some c := by
  simp [running?, h, ho, hp]

/-- The row of an opcode settles the verdict of its started command, whose events are the command's (R70). -/
theorem runRow_of_phase (f : Nat → Cmd → State → Verdict) (h : s.cmd? cid = some c) (ho : c.op = op)
    (hp : c.phase = .started ∨ c.phase = .working) :
    runRow op f cid s = settle cid c ((f cid c s).ofCommand cid s.reel.queue.length) s := by
  simp [runRow, running?_of_phase h ho hp]

/-- The row does nothing when no such command has started. -/
theorem runRow_of_none (f : Nat → Cmd → State → Verdict) (h : running? cid op s = none) : runRow op f cid s = s := by
  simp [runRow, h]

/-- Where no event was posted, none becomes the command's. -/
theorem ofCommand_of_length {n : Nat} {t : State} (h : t.reel.queue.length ≤ n) : ofCommand cid n t = t := by
  unfold ofCommand
  split
  · rw [List.take_of_length_le h, List.drop_eq_nil_of_le h]; simp
  · rfl

@[simp] theorem ofCommand_self : ofCommand cid s.reel.queue.length s = s := ofCommand_of_length (Nat.le_refl _)

/-- All that running as a command's can change is the event queue. -/
theorem ofCommand_eq (cid n : Nat) (t : State) : ∃ q, ofCommand cid n t = { t with reel := { t.reel with queue := q } } := by
  unfold ofCommand
  split
  · exact ⟨_, rfl⟩
  · exact ⟨t.reel.queue, rfl⟩

@[simp] theorem Verdict.ofCommand_done (n : Nat) (st : Status) (d r : Nat) (t : State) :
    (Verdict.done st d r t).ofCommand cid n = .done st d r (Machine.ofCommand cid n t) := rfl
@[simp] theorem Verdict.ofCommand_goes (n : Nat) (t : State) : (Verdict.goes t).ofCommand cid n = .goes (Machine.ofCommand cid n t) := rfl
@[simp] theorem Verdict.ofCommand_stalls (n : Nat) : Verdict.stalls.ofCommand cid n = .stalls := rfl

@[simp] theorem settle_done (st : Status) (d r : Nat) (t : State) : settle cid c (.done st d r t) s = complete cid st d r t := rfl
@[simp] theorem settle_goes (t : State) : settle cid c (.goes t) s = t := rfl
@[simp] theorem settle_stalls : settle cid c .stalls s = s := rfl

/-- A change of the rest of the state leaves an outstanding command as it is. -/
@[simp] theorem cmd?_updRing (n : Nat) (f : Ring → Ring) (k : Nat) : (s.updRing n f).cmd? k = s.cmd? k := rfl

/-- The command that has completed is outstanding no longer. -/
@[simp] theorem cmd?_complete (st : Status) (d r : Nat) : (complete cid st d r s).cmd? cid = none := by
  unfold complete completeCode
  split
  · assumption
  · dsimp only
    have key : ∀ f : Nat → Cmd → Cmd, Table.get? (Table.mapAll (Table.del s.cmds cid) f) cid = none := by simp
    split
    · simpa [State.cmd?, forgetCmd] using key _
    · split <;> simpa [State.cmd?, forgetCmd] using key _

/-- A ring's own registers are not part of what a forgotten command takes with it. -/
@[simp] theorem forgetCmd_rings : (forgetCmd cid s).rings = s.rings := rfl

/-- The record that a completion forms stands last among the ring's waiting records (R83). -/
theorem complete_records (st : Status) (d r : Nat) (h : s.cmd? cid = some c) (hs : c.silent = false)
    (hd : (s.ring c.ring).discarding = false) (hr : c.ring < s.rings.length) :
    ((complete cid st d r s).ring c.ring).records = (s.ring c.ring).records ++
      [{ cid := cid, tag := slateTag c.slate, status := st.code, opcode := leAt c.slate 0 2, detail := BitVec.ofNat 32 d,
         result := BitVec.ofNat 64 r, notify := slateNotify c.slate }] := by
  unfold complete completeCode
  rw [h]
  dsimp only
  rw [if_neg (by simp [hs])]
  have hd' : ∀ t : State, t.rings = s.rings → (t.ring c.ring).discarding = false := by
    intro t ht; simpa [State.ring, ht] using hd
  rw [if_neg (by rw [hd' _ (by simp)]; simp)]
  rw [ring_updRing_same _ _ _ (by simpa using hr)]
  simp [State.ring]

end Sys2Proof.Machine
end

