-- ==== Sys2Proof/Laws/Crypto.lean ====
section
/-! SUPPORT. What the model knows of the named primitives: their lengths, and that a sealed text opens. -/

namespace Sys2Proof.Machine

open Sys2Proof

@[simp] theorem toLE_length (n v : Nat) : (toLE n v).length = n := by
  induction n generalizing v with
  | zero => rfl
  | succ n ih => simp [toLE, ih]

@[simp] theorem toBE_length (n v : Nat) : (toBE n v).length = n := by simp [toBE]

@[simp] theorem zeros_length (n : Nat) : (zeros n).length = n := by simp [zeros]

@[simp] theorem stream_length (n : Nat) (f : Nat → Byte) : (stream n f).length = n := by simp [stream]

@[simp] theorem fitBytes_length (n : Nat) (b : Bytes) : (fitBytes n b).length = n := by
  simp only [fitBytes, List.length_append, List.length_take, zeros_length]
  omega

@[simp] theorem sha256_length (m : Bytes) : (sha256 m).length = 32 := by simp [sha256]

@[simp] theorem hmac_length (k m : Bytes) : (hmac k m).length = 32 := by simp [hmac, hmacOf]

@[simp] theorem gcmMac_length (key iv aad ct : Bytes) : (gcmMac key iv aad ct).length = 16 := by simp [gcmMac]

@[simp] theorem gcmCrypt_length (key iv m : Bytes) : (gcmCrypt key iv m).length = m.length := by simp [gcmCrypt, xorBytes]

@[simp] theorem slhSign_length (seed ctx m : Bytes) : (slhSign seed ctx m).length = 17088 := by unfold slhSign; simp

@[simp] theorem kemOpen_length (dk ct : Bytes) : (kemOpen dk ct).length = 32 := by unfold kemOpen; simp

theorem xorBytes_twice (a b : Bytes) (h : a.length ≤ b.length) : xorBytes (xorBytes a b) b = a := by
  induction a generalizing b with
  | nil => simp [xorBytes]
  | cons x r ih =>
    cases b with
    | nil => simp at h
    | cons y t =>
      have := ih t (by simpa using h)
      simp only [xorBytes, List.zipWith_cons_cons, BitVec.xor_assoc, BitVec.xor_self, BitVec.xor_zero] at *
      rw [this]

/-- Decryption undoes encryption. -/
theorem gcmCrypt_twice (key iv m : Bytes) : gcmCrypt key iv (gcmCrypt key iv m) = m := by
  have h : (gcmCrypt key iv m).length = m.length := gcmCrypt_length key iv m
  unfold gcmCrypt at *
  rw [h]
  exact xorBytes_twice _ _ (by simp)

/-- A ciphertext with its tag opens. -/
theorem gcmOpen_sealed (key iv aad ct : Bytes) : gcmOpen key iv aad (ct ++ gcmMac key iv aad ct) = some (gcmCrypt key iv ct) := by
  simp [gcmOpen]

/-- What is sealed opens to itself. -/
theorem gcmOpen_gcmSeal (key iv aad m : Bytes) : gcmOpen key iv aad (gcmSeal key iv aad m) = some m := by
  rw [gcmSeal, gcmOpen_sealed, gcmCrypt_twice]

end Sys2Proof.Machine
end

