-- ==== Sys2Proof/Laws/Keys.lean ====
section
/-! SUPPORT. The key store and the working-key register: what an installed key opens to, and what a use of it receives. -/

namespace Sys2Proof.Machine

open Sys2Proof

variable {s t : State} {n m : KeyName} {k : Bytes}

/-- A sealed entry opens to its key. -/
@[simp] theorem openEntry_sealEntry (ks : Bytes) (n : KeyName) (k : Bytes) : openEntry ks (sealEntry ks n k) = some k := by
  have h : ∀ iv b : Bytes, iv.length = 12 → (iv ++ b).take 12 = iv ∧ (iv ++ b).drop 12 = b := by
    intro iv b h; simp [← h]
  unfold openEntry sealEntry
  dsimp only
  rw [(h _ _ (toBE_length 12 _)).1, (h _ _ (toBE_length 12 _)).2]
  exact gcmOpen_gcmSeal _ _ _ _

/-- What a key is read from: the store and KS. -/
theorem key?_congr (h : t.trust.store = s.trust.store) (hk : t.ks = s.ks) (n : KeyName) : t.key? n = s.key? n := by
  simp [State.key?, h, hk]

@[simp] theorem ks_installKey : (installKey n k s).ks = s.ks := rfl
@[simp] theorem ks_dropKeys (p : KeyName → Bool) : (dropKeys p s).ks = s.ks := rfl
@[simp] theorem ks_loadKey : (loadKey k s).ks = s.ks := rfl
@[simp] theorem store_loadKey : (loadKey k s).trust.store = s.trust.store := rfl
@[simp] theorem store_remask : (remask s).trust.store = s.trust.store := rfl

/-- An installed key is the one of its name. -/
@[simp] theorem key?_installKey_same : (installKey n k s).key? n = some k := by simp [State.key?, installKey, State.ks, State.bootId]

/-- Installing a key leaves every other key as it is. -/
theorem key?_installKey_other (h : m ≠ n) : (installKey n k s).key? m = s.key? m := by
  have hn : ¬ n = m := fun e => h e.symm
  simp only [State.key?, ks_installKey, installKey, List.find?_cons, hn, decide_false, List.find?_filter]
  congr 2
  funext e
  by_cases he : e.1 = m <;> simp [he, h]

/-- Erased keys are gone, and the others stay. -/
theorem key?_dropKeys (p : KeyName → Bool) (n : KeyName) : (dropKeys p s).key? n = if p n then none else s.key? n := by
  simp only [State.key?, ks_dropKeys, dropKeys, List.find?_filter]
  split
  · next hp =>
    have : s.trust.store.find? (fun e => !p e.1 && decide (e.1 = n)) = none := by
      rw [List.find?_eq_none]
      rintro e - he
      simp only [Bool.and_eq_true, Bool.not_eq_true', decide_eq_true_eq] at he
      rw [he.2, hp] at he
      exact absurd he.1 (by simp)
    simp [this]
  · next hp =>
    congr 2
    funext e
    by_cases he : e.1 = n <;> simp [he, hp]

/-- A use of the working-key register loads no store entry. -/
@[simp] theorem key?_loadKey (n : KeyName) : (loadKey k s).key? n = s.key? n := key?_congr rfl rfl n

/-- A re-mask changes no key of the store. -/
@[simp] theorem key?_remask (n : KeyName) : (remask s).key? n = s.key? n := key?_congr rfl rfl n

/-- The shares of a loaded key combine to it (R279). -/
@[simp] theorem workingKey_loadKey : (loadKey k s).trust.workingKey = fitBytes 32 k := by
  simp [loadKey, Trust.workingKey, xorBytes_twice]

/-- A re-mask keeps the key that the shares combine to (R279). -/
theorem workingKey_remask (h : s.trust.workingKey.length = 32) : (remask s).trust.workingKey = s.trust.workingKey := by
  have : (remask s).trust.workingKey = xorBytes (xorBytes s.trust.workingKey
    (stream 32 (fun i => aesCtrByte s.trust.maskKey (s.trust.maskPos + i))))
    (stream 32 (fun i => aesCtrByte s.trust.maskKey (s.trust.maskPos + i))) := rfl
  rw [this, xorBytes_twice _ _ (by simp [h])]

/-- What a unit receives of a 32-byte key of the store (R279). -/
theorem using_of_key? (h : s.key? n = some k) (hk : k.length = 32) : s.using n = k := by
  simp [State.using, loadNamed, h, fitBytes, zeros, hk, List.take_of_length_le (Nat.le_of_eq hk)]

/-- HMAC-SHA-256 under a 32-byte key of the store. -/
theorem mac_of_key? (h : s.key? n = some k) (hk : k.length = 32) (b : Bytes) : s.mac n b = hmac k b := by
  have := using_of_key? h hk
  simp only [State.mac, deliverMac, State.using] at *
  rw [this]

end Sys2Proof.Machine
end

