-- ==== Sys2Proof/Laws/Memory.lean ====
section
/-! SUPPORT. Unprotected memory: what a read finds after a write, and that every write keeps the canonical form. -/

namespace Sys2Proof.Machine

open Sys2Proof

/-! ## Lists of cells -/

@[simp] theorem cell?_putCell_same (l : List Host.Cell) (a : Nat) (v : Byte) : cell? (putCell l a v) a = some v := by
  induction l with
  | nil => simp [putCell, cell?]
  | cons c r ih =>
    obtain ⟨b, w⟩ := c
    simp only [putCell]
    split <;> rename_i h1
    · simp [cell?]
    · split <;> rename_i h2
      · simp [cell?]
      · simp [cell?, h2, ih]

theorem cell?_putCell_other (l : List Host.Cell) (a b : Nat) (v : Byte) (h : b ≠ a) : cell? (putCell l a v) b = cell? l b := by
  induction l with
  | nil => simp [putCell, cell?, h.symm]
  | cons c r ih =>
    obtain ⟨i, w⟩ := c
    simp only [putCell]
    split <;> rename_i h1
    · simp [cell?, h.symm]
    · split <;> rename_i h2
      · subst h2; simp [cell?, h.symm]
      · simp [cell?, ih]

@[simp] theorem cell?_dropCell_same (l : List Host.Cell) (a : Nat) : cell? (dropCell l a) a = none := by
  induction l with
  | nil => simp [dropCell, cell?]
  | cons c r ih =>
    obtain ⟨b, w⟩ := c
    by_cases h : b = a
    · simpa [dropCell, h] using ih
    · simp only [dropCell, List.filter_cons, h, ne_eq, not_false_eq_true, decide_true, ite_true, cell?]
      exact ih

theorem cell?_dropCell_other (l : List Host.Cell) (a b : Nat) (h : b ≠ a) : cell? (dropCell l a) b = cell? l b := by
  induction l with
  | nil => simp [dropCell, cell?]
  | cons c r ih =>
    obtain ⟨i, w⟩ := c
    by_cases h2 : i = a
    · subst h2; simpa [dropCell, cell?, h.symm] using ih
    · simp only [dropCell, List.filter_cons, h2, ne_eq, not_false_eq_true, decide_true, ite_true, cell?]
      split
      · rfl
      · exact ih

/-! ## One byte -/

/-- What an unlisted address reads as does not depend on the cells. -/
@[simp] theorem unlisted_cells (m : Memory) (c : List Host.Cell) (a : Nat) : unlisted { m with cells := c } a = unlisted m a := rfl

/-- A write leaves what unlisted addresses read as. -/
@[simp] theorem unlisted_memWrite (m : Memory) (a b : Nat) (v : Byte) : unlisted (memWrite m a v) b = unlisted m b := by
  unfold memWrite; split <;> rfl

/-- A byte reads as it was written. -/
@[simp] theorem memRead_memWrite_same (m : Memory) (a : Nat) (v : Byte) : memRead (memWrite m a v) a = v := by
  unfold memWrite
  split <;> rename_i h
  · simp [memRead, ← h]
  · simp [memRead]

/-- A write of one byte leaves every other byte. -/
theorem memRead_memWrite_other (m : Memory) (a b : Nat) (v : Byte) (h : b ≠ a) : memRead (memWrite m a v) b = memRead m b := by
  unfold memWrite
  split
  · simp [memRead, cell?_dropCell_other _ _ _ h]
  · simp [memRead, cell?_putCell_other _ _ _ _ h]

/-! ## Canonical form -/

theorem rising_iff_pairwise (l : List Host.Cell) : rising l = true ↔ l.Pairwise (fun c d => c.1 < d.1) := by
  induction l with
  | nil => simp [rising]
  | cons c r ih =>
    obtain ⟨a, v⟩ := c
    cases r with
    | nil => simp [rising]
    | cons d r =>
      obtain ⟨b, w⟩ := d
      simp only [rising, Bool.and_eq_true, decide_eq_true_eq, ih, List.pairwise_cons, List.mem_cons]
      constructor
      · rintro ⟨h, h2, h3⟩
        refine ⟨?_, h2, h3⟩
        rintro c (rfl | hc)
        · exact h
        · exact Nat.lt_trans h (h2 c hc)
      · rintro ⟨h, h2, h3⟩
        exact ⟨h _ (Or.inl rfl), h2, h3⟩

theorem rising_dropCell (l : List Host.Cell) (a : Nat) (h : rising l = true) : rising (dropCell l a) = true := by
  rw [rising_iff_pairwise] at *
  exact h.sublist List.filter_sublist

theorem mem_putCell (l : List Host.Cell) (a : Nat) (v : Byte) (c : Host.Cell) (h : c ∈ putCell l a v) : c = (a, v) ∨ c ∈ l := by
  induction l with
  | nil => simpa [putCell] using h
  | cons d r ih =>
    obtain ⟨b, w⟩ := d
    simp only [putCell] at h
    split at h
    · simpa using h
    · split at h
      · simp only [List.mem_cons] at h
        rcases h with h | h
        · exact .inl h
        · exact .inr (List.mem_cons_of_mem _ h)
      · simp only [List.mem_cons] at h
        rcases h with h | h
        · exact .inr (by simp [h])
        · rcases ih h with h | h
          · exact .inl h
          · exact .inr (List.mem_cons_of_mem _ h)

theorem rising_putCell (l : List Host.Cell) (a : Nat) (v : Byte) (h : rising l = true) : rising (putCell l a v) = true := by
  rw [rising_iff_pairwise] at *
  induction l with
  | nil => simp [putCell]
  | cons d r ih =>
    obtain ⟨b, w⟩ := d
    rw [List.pairwise_cons] at h
    simp only [putCell]
    split <;> rename_i h1
    · refine List.pairwise_cons.2 ⟨?_, List.pairwise_cons.2 h⟩
      intro c hc
      rcases List.mem_cons.1 hc with rfl | hc
      · exact h1
      · exact Nat.lt_trans h1 (h.1 c hc)
    · split <;> rename_i h2
      · subst h2; exact List.pairwise_cons.2 h
      · refine List.pairwise_cons.2 ⟨?_, ih h.2⟩
        intro c hc
        rcases mem_putCell _ _ _ _ hc with rfl | hc
        · simp only; omega
        · exact h.1 c hc

/-- The canonical form, as two facts. -/
theorem wf_iff (m : Memory) : m.wf = true ↔ rising m.cells = true ∧ ∀ c ∈ m.cells, c.2 ≠ unlisted m c.1 := by
  simp [Memory.wf]

/-- A write of one byte keeps the canonical form. -/
theorem memWrite_wf (m : Memory) (a : Nat) (v : Byte) (h : m.wf = true) : (memWrite m a v).wf = true := by
  rw [wf_iff] at *
  unfold memWrite
  split <;> rename_i hv
  · refine ⟨rising_dropCell _ _ h.1, ?_⟩
    intro c hc
    simp only [dropCell, List.mem_filter] at hc
    exact h.2 c hc.1
  · refine ⟨rising_putCell _ _ _ h.1, ?_⟩
    intro c hc
    rcases mem_putCell _ _ _ _ hc with rfl | hc
    · exact hv
    · exact h.2 c hc

/-- A write of bytes keeps the canonical form. -/
theorem memWriteBytes_wf (m : Memory) (a : Nat) (bs : Bytes) (h : m.wf = true) : (memWriteBytes m a bs).wf = true := by
  induction bs generalizing m a with
  | nil => exact h
  | cons b r ih => exact ih _ _ (memWrite_wf m a b h)

/-- A write of bytes leaves the bytes outside it. -/
theorem memRead_memWriteBytes_outside (m : Memory) (a b : Nat) (bs : Bytes) (h : b < a ∨ a + bs.length ≤ b) :
    memRead (memWriteBytes m a bs) b = memRead m b := by
  induction bs generalizing m a with
  | nil => rfl
  | cons v r ih =>
    simp only [List.length_cons] at h
    rw [memWriteBytes, ih _ _ (by omega), memRead_memWrite_other _ _ _ _ (by omega)]

/-- Bytes read as they were written. -/
theorem memRead_memWriteBytes_inside (m : Memory) (a i : Nat) (bs : Bytes) (h : i < bs.length) :
    memRead (memWriteBytes m a bs) (a + i) = bs[i] := by
  induction bs generalizing m a i with
  | nil => simp at h
  | cons v r ih =>
    cases i with
    | zero => rw [memWriteBytes, memRead_memWriteBytes_outside _ _ _ _ (by omega)]; simp
    | succ i =>
      have := ih (memWrite m a v) (a + 1) i (by simpa using h)
      rw [memWriteBytes, show a + (i + 1) = a + 1 + i by omega, this]; simp

/-- A read of what was written finds it. -/
theorem memReads_memWriteBytes_same (m : Memory) (a : Nat) (bs : Bytes) : memReads (memWriteBytes m a bs) a bs.length = bs := by
  refine List.ext_getElem (by simp [memReads]) ?_
  intro i _ h
  simp [memReads, memRead_memWriteBytes_inside _ _ _ _ h]

/-- A read apart from what was written finds what it found before. -/
theorem memReads_memWriteBytes_apart (m : Memory) (a b n : Nat) (bs : Bytes) (h : b + n ≤ a ∨ a + bs.length ≤ b) :
    memReads (memWriteBytes m a bs) b n = memReads m b n := by
  refine List.map_congr_left ?_
  intro i hi
  rw [List.mem_range] at hi
  exact memRead_memWriteBytes_outside _ _ _ _ (by omega)

/-! ## The store of a range -/

theorem foldl_keeps {α β : Type} (p : β → Prop) (f : β → α → β) (l : List α) (b : β) (hb : p b) (hf : ∀ b a, p b → p (f b a)) :
    p (l.foldl f b) := by
  induction l generalizing b with
  | nil => exact hb
  | cons a l ih => exact ih _ (hf _ _ hb)

/-- A store keeps the canonical form. -/
theorem memStore_wf (m : Memory) (a : Nat) (bs : Bytes) (h : m.wf = true) : (memStore m a bs).wf = true := by
  unfold memStore
  refine foldl_keeps (fun m : Memory => m.wf = true) _ _ _ h ?_
  intro m i hm
  dsimp only
  generalize (if i = 0 then a else (lineOf a + i) * 64) = start
  split
  · split
    · split
      · exact memWriteBytes_wf _ _ _ hm
      · exact hm
    · exact memWriteBytes_wf _ _ _ hm
  · exact hm

end Sys2Proof.Machine
end

