-- ==== Sys2Proof/Laws/Rings.lean ====
section
/-! SUPPORT. What settling a ring and a ring error cause can do to the rings. -/

namespace Sys2Proof.Machine

open Sys2Proof

variable {s : State} {n m : Nat}

/-- A state with the same rings has the same ring. -/
theorem ring_of_rings {t : State} (h : t.rings = s.rings) (m : Nat) : t.ring m = s.ring m := by simp [State.ring, h]

/-- Settling one ring leaves the others. -/
@[simp] theorem ring_ringSettle_other (h : m ≠ n) : (ringSettle n s).ring m = s.ring m := by
  unfold ringSettle
  split
  · rfl
  · dsimp only
    split <;> split
    · rw [ring_updRing_other _ _ _ _ h.symm, ring_updRing_other _ _ _ _ h.symm]; exact ring_of_rings (by simp) m
    · rw [ring_updRing_other _ _ _ _ h.symm]
    · rw [ring_updRing_other _ _ _ _ h.symm]; exact ring_of_rings (by simp) m
    · rfl

/-- Settling a ring that is not STOPPING at most notes that its RING_ERROR was posted. -/
theorem ring_ringSettle_same (hn : n < s.rings.length) (h : (s.ring n).mode ≠ .stopping) :
    (ringSettle n s).ring n = s.ring n ∨ (ringSettle n s).ring n = { s.ring n with posted := true } := by
  unfold ringSettle
  split
  · exact .inl rfl
  · dsimp only
    rw [if_neg h]
    split
    · right
      rw [ring_updRing_same _ _ _ (by simpa using hn)]
      rw [ring_of_rings (s := s) (by simp) n]
    · exact .inl rfl

/-- Settling a ring with nothing outstanding and no stretch of errors ends STOPPING, and does nothing else. -/
theorem ringSettle_of_idle (h : s.outstanding n = 0) (hs : (s.ring n).stretch = false) :
    ringSettle n s = if (s.ring n).mode = .stopping then
      s.updRing n (fun r => { r with mode := .disabled, enable := false, stretch := false, posted := false, discarding := false,
                                     discarded := 0 }) else s := by
  unfold ringSettle
  simp [h, hs]

/-- Settling a ring with something outstanding does nothing. -/
theorem ringSettle_of_busy (h : s.outstanding n ≠ 0) : ringSettle n s = s := by
  unfold ringSettle; simp [h]

/-- What a cause other than CQ_WRITE_ERROR makes of its ring (R65, R460). -/
theorem ring_ringCause_enabled {bit : Nat} (hn : n < s.rings.length) (hm : (s.ring n).mode = .enabled) (hb : bit ≠ 4) :
    ∃ p, (ringCause n bit s).ring n =
      { s.ring n with errors := (s.ring n).errors ||| (1#6 <<< bit), mode := .error, stretch := true, posted := p } := by
  have key : ∀ f : Ring → Ring,
      (f (s.ring n)) = { s.ring n with errors := (s.ring n).errors ||| (1#6 <<< bit), mode := .error, stretch := true } →
      ∃ p, (ringSettle n (s.updRing n f)).ring n =
        { s.ring n with errors := (s.ring n).errors ||| (1#6 <<< bit), mode := .error, stretch := true, posted := p } := by
    intro f hf
    have h1 : (s.updRing n f).ring n = f (s.ring n) := ring_updRing_same _ _ _ hn
    rcases ring_ringSettle_same (s := s.updRing n f) (n := n) (by simpa using hn) (by rw [h1, hf]; simp) with h | h
    · exact ⟨(s.ring n).posted, by rw [h, h1, hf]⟩
    · exact ⟨true, by rw [h, h1, hf]⟩
  exact key _ (by simp [hm, hb])

/-- A cause changes its own ring only. -/
@[simp] theorem ring_ringCause_other {bit : Nat} (h : m ≠ n) : (ringCause n bit s).ring m = s.ring m := by
  unfold ringCause
  dsimp only
  rw [ring_ringSettle_other h, ring_updRing_other _ _ _ _ h.symm]

@[simp] theorem ringCause_cmds (bit : Nat) : (ringCause n bit s).cmds = s.cmds := by simp [ringCause]
@[simp] theorem ringCause_mem (bit : Nat) : (ringCause n bit s).mem = s.mem := by simp [ringCause]
@[simp] theorem ringCause_out (bit : Nat) : (ringCause n bit s).out = s.out := by simp [ringCause]
@[simp] theorem ringCause_trust (bit : Nat) : (ringCause n bit s).trust = s.trust := by simp [ringCause]
@[simp] theorem ringCause_pending (bit : Nat) : (ringCause n bit s).pending = s.pending := by simp [ringCause]

/-- Commands outstanding do not depend on a ring's other fields. -/
theorem outstanding_congr {t : State} (hc : t.cmds = s.cmds) (hr : (t.ring n).records = (s.ring n).records) :
    t.outstanding n = s.outstanding n := by simp [State.outstanding, hc, hr]

end Sys2Proof.Machine
end

