-- ==== Sys2Proof/WellFormed.lean ====
section
/-! DEFINITION. Which commands can be sent to the block: every operand within the range that the manual gives the thing it names. -/

namespace Sys2Proof

/-- A read of at most `n` bytes. -/
def readOk (r : HostRead) (n : Nat) : Bool :=
  match r with
  | .data b => decide (b.length ≤ n)
  | _ => true

/-- Link speeds 1 to 5, and 8 or 16 lanes (R367). -/
def linkOk (speed : BitVec 3) (width : BitVec 5) : Bool :=
  decide (1 ≤ speed.toNat ∧ speed.toNat ≤ 5) && (width == 8 || width == 16)

/-- A write within BAR0 (64 MiB) or BAR2 (16 MiB), of 32 or 64 bits (R369, R370). -/
def registerOk (bar2 : Bool) (offset : Nat) (wide : Bool) (value : Word64) : Bool :=
  decide (offset < if bar2 then 16777216 else 67108864) && (wide || value >>> 32 == 0)

/-- A BAR4 access within the 1 GiB window and one entry of 128 MiB (R360, R370). -/
def stagingOk (offset : Nat) (a : StagingAccess) : Bool :=
  let n := match a with | .load n => n | .store b _ => b.length
  decide (0 < n ∧ n ≤ 4096 ∧ offset + n ≤ 1073741824 ∧ offset / 134217728 = (offset + n - 1) / 134217728)

/-- A configuration access within the 4 KiB space (R365). -/
def configOk (a : ConfigAccess) : Bool :=
  match a with
  | .load off => decide (off < 4096)
  | .store off _ _ => decide (off < 4096)

/-- Two conditioning blocks' raw samples, 16 bytes of each of eight sources (R311, R314). -/
def freshOk (a b : Bytes) : Bool := decide (a.length = 128 ∧ b.length = 128)

/-- A start-up test takes 1 024 samples of each of eight sources (R312). -/
def samplesOk (l : List Bytes) : Bool := decide (l.length = 8) && l.all (fun b => decide (b.length = 128))

/-- How many units each kind of R410 has. -/
def unitCount : Nat → Nat
  | 0 | 3 | 4 | 5 => 36
  | 1 | 2 => 72
  | 6 | 7 | 10 => 8
  | 8 => 32
  | 9 => 3
  | 11 => 256
  | 12 => 18
  | 13 => 5
  | 14 => 1
  | 15 => 4
  | _ => 0

/-- A unit that the device has (R410). -/
def siteOk (x : FaultSite) : Bool := decide (x.unit < unitCount x.kind)

/-- Outcomes of the power-up checks for eight stacks and eight crossing directions (R426). -/
def healthOk (h : Health) : Bool := decide (h.channelsGood.length = 8 ∧ h.crossingsGood.length = 8)

/-- The work that a tile is exists: a station has an ID of R35. -/
def workOk : TileWork → Bool
  | .station id => decide (1 ≤ id ∧ id ≤ 12)
  | _ => true

/-- Readings of four fields and eight bobbins, and tiles of work that exists, in classes 0 to 3 (R35, R329, R332). -/
def readingOk (w : WindowReading) : Bool :=
  decide (w.fieldTemps.length = 4 ∧ w.bobbinTemps.length = 8 ∧ w.input10mv < 16384)
    && w.tiles.all (fun t => workOk t.work && decide (t.lowered < 4 ∧ t.field < 4))

/-- Errors of a codeword of `n` symbols, each at a position of its own (R356). -/
def errorsOk (n : Nat) (l : List (Nat × Byte)) : Bool := l.all (fun e => decide (e.1 < n)) && (l.map (·.1)).Nodup

/-- What patrol scrub reports names lines, banks and stacks that exist (R355, R358). -/
def findingsOk (f : ScrubFindings) : Bool :=
  f.lines.all (fun l => decide (l.addr % 64 = 0) && errorsOk 72 l.errors)
    && f.rows.all (fun r => decide (r.core < 36 ∧ r.bank < 48) && errorsOk 36 r.errors) && f.late.all (fun b => decide (b < 8))

/-- What training learns of a peer: an identity hash, a set ID and a member number (R385). -/
def peerOk (p : WarpPeer) : Bool := decide (p.idHash.length = 32 ∧ p.setId.length = 16 ∧ p.member < 65536)

/-- An IPv4 or IPv6 datagram to port 47 300; its payload may still be malformed (R117, R118). -/
def packetFits (p : Packet) : Bool :=
  (p.ipVer == 4 || p.ipVer == 6) && decide (p.srcIp.length = 16 ∧ p.dstIp.length = 16)
    && decide (p.body.length ≤ 65527)

/-- The operands of a command lie within their ranges. -/
def Instr.wellFormed (i : Instr) : Bool :=
  match i with
  | .powerApplied | .inputOutOfRange | .inputRemoved | .intermediateBusRetry _ _ | .oscTrim | .ptimeMirrorUpdate
  | .secPtimeLowRead | .secPtimeHighRead | .pwrOkQualify | .zeroizeNAssert | .zeroizeNRelease | .hotInNAssert | .hotInNRelease
  | .thermTripNExternal | .vio3v3Loss | .perstNAssert | .perstNRelease | .hotResetOrDlDown | .flr | .powerStateChange _ _ _
  | .barBadAccess _ _ _ | .commandTimeout _ | .nop _ | .identify _ | .setHostTime _ | .cmdAbort _ | .tenantOpen _
  | .tenantHandover _ | .tenantPolicySet _ | .jobOpen _ | .jobClose _ | .takeOpen _ | .takeOpenResume _ | .takeClose _
  | .takeCloseBarrier _ | .takeAbort _ | .setBudget _ | .regionRegister _ | .regionRevoke _ | .connOpen _ | .connClose _
  | .wrPost _ | .wrCancel _ | .stagingMap _ | .scrubConfigure _ | .graphLoad _ | .groupOpen _ | .groupDrain _
  | .drainBarrierAccepted _ | .groupClose _ | .accConfigure _ | .accCombine _ | .accCombineDone _ | .maskConfigure _
  | .maskSeedsSubmit _ | .maskRemove _ | .maskRemoveUnmask _ | .polyParamsLoad _ | .polyTableBuild _ | .tableBuildDone _
  | .polyKeyLoad _ | .polyObjectFree _ | .polyNtt _ | .polyAdd _ | .polyKeyswitch _ | .polyModred _ | .polyEncNoise _
  | .polyDecShare _ | .polyToShares _ | .polyCommit _ | .gatePolicySet _ | .gateRelease _ | .gateReleaseCommit _
  | .vaultConfigure _ | .vaultLoad _ | .vaultStep _ | .vaultExport _ | .attest _ | .challenge _ | .ownerEnrol _ | .keyUpdate _
  | .devsetEnrol _ | .keyStage _ | .keyCommit _ | .getRandom _ | .cntRead _ | .cntConfigure _ | .dailiesConfigure _
  | .traceConfigure _ | .traceRead _ | .debugRead _ | .warpConfigure _ | .warpRetrain _ | .linkTest _ | .selfTest _
  | .fwStage _ | .fwActivate _ | .reelEnable _ | .reelDisable _ | .reelHeadWrite _ | .hstReelLostRead _ | .reelRecordWrite
  | .ingHsStatusRead _ | .ingRcptLateRead _ | .decapsulationDone | .openAdmit | .segmentVerified _ _ | .messageCommit _
  | .secondPassTile _ _ | .gatRefusalsRead _ | .accCombineDropsRead _ | .mskRegenRead _ | .polRefusalsRead _
  | .polObjSelWrite _ | .secCountsRead _ | .workingKeyRemask | .rngStartupRepeat | .rngRetestTimer | .rngRetest | .drbgGenerate
  | .rngCountsRead _ | .kCalibration | .baseVoltageRecompute | .pwrThrottleCntRead _ | .memoryRefresh | .memSramEccRead _
  | .memStagingMissRead _ | .shuttleCompletionTimeout _ | .dmaBarErrRead _ | .dmaBytesReadRead _ | .dmaBytesWrittenRead _
  | .dmaPreemptRead _ | .deviceWarmRestart | .faultInject _ | .fltCountsRead _ | .fltCpRead _ | .dailiesLatch
  | .dailiesRecordWrite | .cntDailiesHeadWrite _ | .cntDailiesStatusRead _ | .cntTraceStatusRead _ | .cntDeniedRead _
  | .setEndpointId _ _ | .getEndpointId | .getMctpVersionSupport | .getMessageTypeSupport | .gettid | .settid _
  | .getpldmversion _ | .getpldmtypes | .getpldmcommands _ | .getpdr _ | .getpdrrepositoryinfo | .getsensorreading _
  | .setnumericeffectervalue _ _ | .getnumericeffectervalue _ | .idcode | .samplePreload | .extest | .extestPulse
  | .extestTrain | .clamp | .highz | .scanEnter | .bypass | .testLogicReset | .referenceLost | .referencePresent
  | .warpRetrainTimeout _ | .pwrOkRelease | .vaultStepDone _ => true
  | .inputExcursion input10mv | .inputBackInRange input10mv => decide (input10mv < 16384)
  | .sidebandUnqualified input | .tstSidebandCntRead input _ => decide (input < 5)
  | .configRequest access => configOk access
  | .pcieLinkRetrain speed width => linkOk speed width
  | .registerWrite bar2 offset wide _ value => registerOk bar2 offset wide value
  | .stagingAccess offset access => stagingOk offset access
  | .msixVectorUnmask vector | .vectorDelayExpiry vector => decide (vector < 256)
  | .sqDoorbell ring _ | .cqDoorbell ring _ | .ringEnable ring _ | .ringDisable ring _ | .cqRecordWrite ring => decide (ring < 64)
  | .slateFetch r => readOk r 64
  | .slatePhaseReread ring r => decide (ring < 64) && readOk r 64
  | .commandStart _ block => readOk block 65535
  | .handoverSettleEnd _ fresh0 fresh1 | .rngReseed fresh0 fresh1 | .drbgReseedDue fresh0 fresh1 => freshOk fresh0 fresh1
  | .regionFreed index | .sessionExpire index => decide (index < 65536)
  | .disconnectFreeTimer conn | .wrStart conn | .ackTimer conn | .retransmitTimerExpiry conn | .connectRetryTimer conn
  | .halfOpenTimeout conn | .reassemblyTimerExpiry conn _ | .messageVisible conn | .nakRetryUsExpiry conn _ =>
    decide (conn < 65536)
  | .maskRegenTile ledger _ => decide (ledger < 32)
  | .tableLimbBuilt heddle _ _ => decide (heddle < 72)
  | .polyObjectErase object => decide (object < 65536)
  | .linkTestEnd _ lanes _ => decide (lanes.length ≤ 9)
  | .selfTestEnd _ failing _ _ => failing.all siteOk
  | .rateLimitWindowEnd type srcClass srcInst => decide (type < 65536) && decide (srcClass < 256) && decide (srcInst < 256)
  | .portEnable port _ | .portDisable port _ | .portLanesLocked port | .ethernetLaneFail port _ _ | .ingPortDropsRead port _
  | .arpRequest port _ _ _ | .neighbourSolicitation port _ _ _ | .malformedFrame port _ => decide (port < 8)
  | .write port packet | .send port packet | .readReq port packet | .readResp port packet | .atomicAdd port packet
  | .compareSwap port packet | .atomicResp port packet | .ackReceived port packet | .nakReceived port packet
  | .connectReq port packet | .connectAccept port packet | .connectReject port packet | .disconnect port packet =>
    decide (port < 8) && packetFits packet
  | .descentWritten group _ _ seqs => decide (group < 64) && !seqs.isEmpty
  | .scaleConfirm group _ | .scaleConfirmTimeout group _ | .spillUpdateApply group _ _ | .bankFinal group _
  | .bankZeroed group _ | .stationTileTimeout group _ | .sliceMigrationMerge group _ | .lateEpochTile group _ _ _ =>
    decide (group < 64)
  | .rngStartupTestDone samples _ | .rngRetestDone samples _ => samplesOk samples
  | .healthTestFail source _ => decide (source < 8)
  | .budgetWindow reading => readingOk reading
  | .scrubPass findings => findingsOk findings
  | .spareCopyDone stack | .reshapeDone stack | .memEccCountRead stack _ => decide (stack < 8)
  | .shuttleReadCompletion _ _ result => readOk result 4096
  | .warpTrainingDone link peer => decide (link < 8) && peerOk peer
  | .warpLaneFail link lane | .wrpLaneErrRead link lane _ => decide (link < 8) && decide (lane < 9)
  | .linkFrameData link frame | .linkFrameAck link frame | .linkFrameNak link frame =>
    decide (link < 8) && decide (frame.length ≤ 8284)
  | .warpReplayTimer link | .warpCreditStarvation link | .wrpRetryRead link _ => decide (link < 8)
  | .faultDetected detector site => decide (detector < 12) && siteOk site
  | .handshakeWatchdog site | .recoveryDone site _ _ => siteOk site
  | .coreTileTimeout core | .splEngineFaultsRead core _ | .splReplaysRead core _ => decide (core < 36)
  | .handlerTimeout site => site.all siteOk
  | .cpHeartbeatMiss processor | .cpWatchdog processor | .cpRestartDone processor _ => decide (processor < 5)
  | .deviceWarmRestartEnd named health => named.all siteOk && healthOk health
  | .counterIncrement event inst job _ => decide (event < 65536) && decide (inst < 256) && decide (job < 256)
  | .sampleRequest slot inst job _ station core _ =>
    decide (slot < 256) && decide (inst < 256) && decide (job < 256) && decide (core < 256) && decide (station < 256)
  | .dbgRead addr => decide (addr % 64 = 0) && decide (addr < 2 ^ 48)

end Sys2Proof
end

