-- ==== Sys2Proof/Tests/Slice0.lean ====
section
/-! SUPPORT. Smoke tests, and a witness for the hypotheses of every clause of the statements. -/

namespace Sys2Proof.Tests

open Sys2Proof Sys2Proof.Machine

set_option maxRecDepth 20000
set_option exponentiation.threshold 2000

/-! ## Small states -/

/-- Bytes with fields put into `n` zero bytes: offset, width, little-endian value. -/
def fields (n : Nat) (l : List (Nat × Nat × Nat)) : Bytes :=
  l.foldl (fun b e => b.take e.1 ++ toLE e.2.1 e.2.2 ++ b.drop (e.1 + e.2.1)) (zeros n)

/-- A device after power-up, serving its rings, with its BARs open and the shuttle free to issue. -/
def w : State :=
  { State.reset with
    pcie := { Pcie.reset with ready := true, busMaster := true, memSpace := true }
    side := { Side.reset with step := 11, qualified := 16, raw := 31 } }

/-- A started command whose INLINE fields are given by their offsets. -/
def cmd (op : Opcode) (job group : Nat) (inl : List (Nat × Nat × Nat)) (block : Bytes := []) : Cmd :=
  { (default : Cmd) with
    op := op, phase := .started, block := block
    slate := fields 64 ([(0, 2, op.row.code), (8, 1, job), (9, 1, group), (10, 1, 0xF0), (11, 1, 0xFF)] ++ inl.map (fun e => (32 + e.1, e.2))) }

/-- `s` with one outstanding command, numbered 7. -/
def withCmd (s : State) (c : Cmd) : State := { s with cmds := [(7, c)] }

theorem started (s : State) (c : Cmd) (h : s.cmd? 7 = some c) (p : c.phase = .started) : Started s 7 c.op c := ⟨h, rfl, .inl p⟩

/-- `s` with keys installed in its store. -/
def keyed (l : List (KeyName × Bytes)) (s : State) : State := l.foldl (fun s e => installKey e.1 e.2 s) s

/-- `s` with one ring changed. -/
def ringed (s : State) (n : Nat) (r : Ring) : State := s.updRing n (fun _ => r)

/-- An enabled bulk ring of 16 slots. -/
def ringOn : Ring := { Ring.reset with enable := true, mode := .enabled, sqBase := 0x100, cqBase := 0x200 }

/-- A ring whose CQ holds records that the host has not consumed. -/
def ringFull : Ring := { ringOn with cqTail := 9, head := 4 }

/-- A configured ring, not yet enabled. -/
def ringSet : Ring := { Ring.reset with sqBase := 0x100, cqBase := 0x200 }

/-- `s` with the reel enabled at 64 records. -/
def reeled (s : State) (tail head : BitVec 16) (q : List Event) : State :=
  { s with reel := { Reel.reset with enable := true, enabled := true, base := 0x300, tail := tail, head := head, queue := q } }

/-- `w` with ring 0 enabled and a NOP outstanding on it. -/
def wNop : State := withCmd (ringed w 0 ringOn) (cmd .nop 0xFF 0xFF [])

/-- A slate of the right phase, as written into a slot. -/
def nopSlate : Bytes := fields 64 [(0, 2, Opcode.nop.row.code), (2, 2, 16), (8, 1, 0xFF), (9, 1, 0xFF), (10, 1, 0xF0), (11, 1, 0xFF)]

/-- A ring with one unfetched slate in its last slot. -/
def ringDue : Ring := { ringOn with sqHead := 15, tail := 0 }

/-- A record that waits for its CQ slot. -/
def rec0 : WaitingRecord := { (default : WaitingRecord) with cid := 3, status := 0 }

/-- A rate window with suppressed events. -/
def window1 : RateWindow := { (default : RateWindow) with type := .portLink, srcClass := 2, srcInst := 5, count := 4 }

/-- `w` with an unmasked vector that has records pending. -/
def vectored : State :=
  { w with
    pcie := { w.pcie with msixEnable := true, table := [{ addr := 0xFEE00000, data := 0x40, mask := false }] }
    reel := { w.reel with vectors := [{ VecMod.reset with pending := 1 }] } }

theorem regs_open : RegistersOpen w := ⟨rfl, rfl⟩

/-- The started NOP, with its ring enabled. -/
def wN : State := withCmd (ringed w 0 ringOn) (cmd .nop 0xFF 0xFF [])

def cIdentify : Cmd := cmd .identify 0xFF 0xFF [(0, 8, 0x40), (8, 4, 512)]

def cHostTime : Cmd := cmd .setHostTime 0xFF 0xFF [(0, 8, 5)]

/-- A command before it starts. -/
def fetched (c : Cmd) : Cmd := { c with phase := .fetched }

/-- A bulk ring's outstanding NOP that has just been fetched. -/
def wF : State := withCmd (ringed w 0 ringOn) (fetched (cmd .nop 0xFF 0xFF []))

/-- A fetched NOP that names a parameter block of 8 bytes. -/
def cBlock : Cmd :=
  let c := fetched (cmd .nop 0xFF 0xFF [])
  { c with slate := fields 64 [(8, 1, 0xFF), (9, 1, 0xFF), (10, 1, 0xF0), (11, 1, 0xFF), (12, 2, 8), (16, 8, 64)] }

def cAbort : Cmd := cmd .cmdAbort 0xFF 0xFF [(0, 1, 63), (4, 4, 9)]

/-- A command that waits for entropy. -/
def wWaits : State :=
  { withCmd w (cmd .getRandom 0xFF 0xFF []) with rng := { w.rng with requests := [{ level := 3, consumer := .command 7, size := 32, left := 32, got := [], piece := 32, draw := none }] } }

/-- `w` with one read of 4 bytes outstanding for command 7. -/
def wRead (c : Option Cmd) : State :=
  { w with cmds := (c.map (fun c => [(7, c)])).getD [], pcie := { w.pcie with reads := [(.command 7, 0, 0x1000, 4)] } }

def cReads : Cmd := { cmd .cntConfigure 0xFF 0xFF [] with inputLen := 16 }

/-- `w` with every core active and every stack in service. -/
def wc : State :=
  { w with
    faults := { w.faults with cores := List.replicate 36 { CoreUnit.reset with role := .active } }
    mem := { w.mem with bobbins := List.replicate 8 { Stack.reset with inService := true } } }

/-- A trusted-mode graph that serves group 3: INGEST, HANDSHAKE, OPEN, ACCUMULATE and GATE. -/
def graph3 : Graph :=
  { mode := .trusted, nodes := [1, 2, 3, 5, 10].map (fun x => { station := x, inst := 0, maxTiles := 0, groups := 8 })
    edges := [(255, 0, 1), (0, 1, 0), (0, 2, 0), (1, 2, 0), (2, 3, 0), (3, 4, 0)].map
      (fun e => { src := e.1, dst := e.2.1, kind := e.2.2, depth := 0, group := 255 })
    layout := [(3, 0)], segments := 1 }

/-- The same graph as GRAPH_LOAD's block for job 2. -/
def graphBlock : Bytes :=
  fields 32 [(0, 2, 1), (2, 1, 2), (3, 1, 3), (4, 1, 5), (5, 1, 6), (6, 1, 1), (8, 4, 168), (12, 4, 1)]
  ++ (([1, 2, 3, 5, 10] : List Nat).map (fun x => fields 16 [(0, 1, x), (8, 8, 8)])).flatten
  ++ (([(255, 0, 1), (0, 1, 0), (0, 2, 0), (1, 2, 0), (2, 3, 0), (3, 4, 0)] : List (Nat × Nat × Nat)).map
      (fun e => fields 8 [(0, 1, e.1), (1, 1, e.2.1), (2, 1, e.2.2), (4, 1, 255)])).flatten
  ++ fields 8 [(0, 1, 3)]

/-- Job 2, with no take open. -/
def job2 : Job := { (default : Job) with graph := some graph3, mode := some .trusted, kinds := 3, tokensMax := 100, lifeS := 60, sessionMsgs := 10 }

/-- Group 3 of job 2: 16 elements of U32 in one slice on core 5, with banks in the modes given. -/
def group3 (a b : BankMode) : Group :=
  { (default : Group) with
    job := 2, format := 2, kind := 1, count := 16, sliceTiles := 1, slices := [{ core := 5, epoch := 0, moves := [] }]
    bankA := { Bank.zeroed 0 with mode := a, take := 7 }, bankB := { Bank.zeroed 0 with mode := b, take := 7 } }

/-- `wc` with a job 2 and a group 3. -/
def wg (j : Job) (g : Group) : State := { wc with accum := { wc.accum with jobs := [(2, j)], groups := [(3, g)] } }

def filling2 : Job := { job2 with filling := some 7, lastTake := some 7 }

def cGroupOpen : Cmd := cmd .groupOpen 2 63 [(0, 1, 63), (1, 1, 2), (2, 1, 2), (3, 1, 1), (4, 4, 1)]

def wOpen : State := withCmd (wg job2 (group3 .zero .zero)) cGroupOpen

def cGraph : Cmd := cmd .graphLoad 2 0xFF [] graphBlock

def wGraph : State := withCmd (wg job2 (group3 .zero .zero)) cGraph

def cClose : Cmd := cmd .groupClose 2 3 []

def wClose : State := withCmd (wg job2 (group3 .zero .zero)) cClose

def cTakeOpen : Cmd := cmd .takeOpen 2 0xFF [(0, 4, 8)]

def wTake : State := withCmd (wg { job2 with lastTake := some 7 } (group3 .zero .final)) cTakeOpen

def cTakeClose : Cmd := cmd .takeClose 2 0xFF []

def wTakeClose (m : Mode) : State := withCmd (wg { filling2 with mode := some m } (group3 .filling .zero)) cTakeClose

def cDrain : Cmd := cmd .groupDrain 2 3 []

def wDrain : State := withCmd (wg filling2 (group3 .filling .zero)) cDrain

def cTakeAbort : Cmd := cmd .takeAbort 2 0xFF []

def wTakeAbort : State := withCmd (wg filling2 (group3 .filling .zero)) cTakeAbort

/-- A committed envelope whose contribution to group 3 has sequence number `q`. -/
def inFlight3 (q : Nat) : Message :=
  { (default : Message) with
    job := 2, take := 7, segCount := 1, stage := .committed, seqs := [(3, q)], flying := [3], verified := [0]
    tiles := [{ group := 3, tile := 0, segment := 0, core := 5, slot := some .committed, mark := 0, desc := [], data := (List.replicate 16 [5, 0, 0, 0]).flatten,
                epoch := 0, place := .node, done := [], made := [] }] }

/-- `wg` with one committed envelope. -/
def wm (g : Group) : State :=
  { wg filling2 g with ingest := { w.ingest with msgs := [(0, inFlight3 0)], nextMsg := 1 } }

/-- A migration of the slice from core 5 to core 6 at boundary 0, in take 7. -/
def move3 : MoveStep := { boundary := 0, oldCore := 5, oldEpoch := 0, core := 6, epoch := 1, cause := 1, take := 7 }

def moving3 : Group :=
  { group3 .filling .zero with nextSeq := 1, slices := [{ core := 6, epoch := 1, moves := [move3] }] }

def late3 : Group := { group3 .filling .zero with nextSeq := 1, slices := [{ core := 6, epoch := 0, moves := [] }] }

/-- An ingest region over the first 2 MiB of device memory. -/
def region0 : Region := { (default : Region) with gen := 1, space := .ingest, job := 2, rights := 2, base := 0, len := 0x200000 }

/-- A KEM envelope of one segment in region 0. -/
def env0 (stage : MsgStage) : Message :=
  { (default : Message) with kem := true, job := 2, take := 7, segCount := 1, len := 4160, stage := stage, token := zeros 16, nonceBase := zeros 12 }

/-- Job 2 with a take open on group 3, and envelope 0 at a stage. -/
def we (g : Group) (m : Message) : State :=
  { wg filling2 g with
    trans := { w.trans with regions := [(0, region0)] }
    ingest := { w.ingest with msgs := [(0, m)], nextMsg := 1, hsQueue := if m.stage = .handshake then [0] else [],
                              keyOrder := if m.stage = .keyed then [0] else [] } }

def fill3 : Group := group3 .filling .zero

/-- A group of 49 tiles of 65536 bytes, all of one slice on core 5. -/
def wide3 : Group := { fill3 with count := 49 * 16384, sliceTiles := 64 }

def envWide : Message := { env0 .keyed with segCount := 49, len := headerBytes true 49 + 49 * 65536 }

def wWide : State :=
  { we wide3 envWide with accum := { wc.accum with jobs := [(2, { filling2 with graph := some { graph3 with segments := 49 } })], groups := [(3, wide3)] } }

/-- An envelope that holds every splice slot of core 5. -/
def envFull : Message := { env0 .opening with tiles := List.replicate 64 { (default : SpliceTile) with core := 5, slot := some .opened } }

def wFullCore : State :=
  { we fill3 (env0 .keyed) with ingest := { w.ingest with msgs := [(0, env0 .keyed), (1, envFull)], nextMsg := 2, keyOrder := [0] } }

/-- Memory that holds a segment of zeros and the tag that verifies it. -/
def wSealed (m : Message) : State :=
  let s := we { fill3 with nextSeq := 1 } m
  let tag := gcmMac m.kMsg (segmentIv m.nonceBase 0) (segmentAad m 0) (zeros 64)
  { s with mem := memWriteBytes w.mem 1168 tag }

theorem memWriteBytes_poison (m : Memory) (a : Nat) (bs : Bytes) : (memWriteBytes m a bs).poison = m.poison := by
  induction bs generalizing m a with
  | nil => rfl
  | cons b r ih => rw [memWriteBytes, ih]; unfold memWrite; split <;> rfl

theorem wSealed_mem (m : Message) :
    (wSealed m).mem = memWriteBytes w.mem 1168 (gcmMac m.kMsg (segmentIv m.nonceBase 0) (segmentAad m 0) (zeros 64)) := by
  simp only [wSealed]

theorem wSealed_poison (m : Message) : (wSealed m).mem.poison = [] := memWriteBytes_poison _ _ _

theorem wSealed_opens (m : Message) (hr : m.region = 0) (ha : m.raddr = 0) (hk : m.kem = true) (hs : m.segCount = 1) :
    (wSealed m).openSegment m graph3 0 = some (gcmCrypt m.kMsg (segmentIv m.nonceBase 0) (zeros 64)) := by
  have hn : (gcmMac m.kMsg (segmentIv m.nonceBase 0) (segmentAad m 0) (zeros 64)).length = 16 := by simp [gcmMac, toBE, toLE]
  have h1 : memReads (wSealed m).mem 4096 64 = zeros 64 := by
    rw [wSealed_mem, memReads_memWriteBytes_apart _ _ _ _ _ (.inr (by rw [hn] <;> decide))]
    decide
  have h2 : memReads (wSealed m).mem 1168 16 = gcmMac m.kMsg (segmentIv m.nonceBase 0) (segmentAad m 0) (zeros 64) := by
    have := memReads_memWriteBytes_same w.mem 1168 (gcmMac m.kMsg (segmentIv m.nonceBase 0) (segmentAad m 0) (zeros 64))
    rwa [hn, ← wSealed_mem] at this
  have h3 : ∀ a n, poisoned (wSealed m).mem a n = false := fun a n => by rw [poisoned, wSealed_poison]; rfl
  have h4 : (wSealed m).segLen graph3 0 = 64 := rfl
  have h5 : Table.get? (wSealed m).trans.regions m.region = some region0 := by rw [hr]; rfl
  unfold State.openSegment
  rw [h5]
  simp only [hk, hs, ha, h3, h4, or_self, Bool.false_eq_true, if_false]
  rw [show region0.base + 0 + headerBytes true 1 + 65536 * 0 = 4096 from rfl, show region0.base + 0 + tagTable true + 16 * 0 = 1168 from rfl,
    h1, h2]
  exact gcmOpen_sealed _ _ _ _

/-- An envelope whose first segment is poisoned. -/
def wPoison : State :=
  let s := we { fill3 with nextSeq := 1 } (env0 .opening)
  { s with mem := { s.mem with poison := [64] } }

def late : Job := { filling2 with filling := some 8 }

def wLate : State := { we fill3 (env0 .verified) with accum := { wc.accum with jobs := [(2, late)], groups := [(3, fill3)] } }

/-- A committed large envelope, before its second pass. -/
def envLarge : Message := { env0 .committed with large := true, flying := [3], seqs := [(3, 0)] }

def session0 : Session := { (default : Session) with job := 2, created := 5 }

def wSession (now : Word64) : State :=
  { we fill3 (env0 .opening) with time := { w.time with ptime := now }, ingest := { w.ingest with sessions := [(65535, session0)] } }

def set0 : ParamSet := { (default : ParamSet) with logN := 12, limbs := 2, primes := [97, 193] }

def wSet : State := { wg filling2 { fill3 with format := 0x30, kind := 2 } with poly := { w.poly with sets := [(0, set0)] } }

/-- Group 3 after one commit. -/
def one3 : Group := { fill3 with nextSeq := 1 }

/-- FIX16 sums in 16 bits whose first element is at its top. -/
def top3 : Group :=
  { one3 with format := 0x20, kind := 0, bankA := { one3.bankA with elems := [(0, { a := 32767, x := 0, y := 0 })] } }

/-- `g` with its banks in bobbin memory. -/
def spill (g : Group) : Group := { g with spilled := true }

/-- A bank whose slice has reported an overflow, after a number of steps. -/
def reported3 (steps : Nat) : Group := { top3 with bankA := { top3.bankA with reports := [(0, 0)], steps := steps } }

def cAcc (policy clip : Nat) : Cmd := cmd .accConfigure 2 3 [(0, 1, 3), (1, 1, policy), (8, 8, clip)]

def wAcc : State := withCmd (wg job2 (group3 .zero .zero)) (cAcc 0 0)

/-- A job whose graph has CLIP, and a group of FP32. -/
def clipped2 : Job := { job2 with graph := some { graph3 with nodes := graph3.nodes ++ [{ station := 4, inst := 0, maxTiles := 0, groups := 8 }] } }

def float3 : Group := { group3 .zero .zero with format := 0x12, kind := 3 }

def wAccClip : State := withCmd (wg clipped2 float3) (cAcc 1 0x3FF0000000000000)

/-- A FINAL, DRAINING or other bank A of group 3 whose take is 7. -/
def draining3 : Group := { group3 .draining .zero with nextSeq := 1, bankA := { (group3 .draining .zero).bankA with stop := some 1, elems := [(0, { a := 4, x := 0, y := 0 })] } }

/-- A command that waits for that bank alone. -/
def cWaits : Cmd := { cmd .takeClose 2 0xFF [] with phase := .committed, work := .draining [(3, false)] false 0 }

/-- Job 2 with a graph whose ACCUMULATE feeds no station. -/
def lone2 : Job := { job2 with graph := some { graph3 with edges := graph3.edges.take 5 } }

/-- Job 2 with a graph in which COMBINE serves group 3. -/
def combining2 : Job := { job2 with graph := some { graph3 with nodes := graph3.nodes ++ [{ station := 8, inst := 0, maxTiles := 0, groups := 8 }] } }

def final3 : Group := { group3 .final .zero with nextSeq := 1, bankA := { (group3 .final .zero).bankA with stop := some 1, count := 1, cohort := 1 } }

/-- An open connection of job 2. -/
def conn2 : Conn := { (default : Conn) with phase := .opened, job := 2, peerConn := 9 }

def cCombine : Cmd := cmd .accCombine 2 3 [] (fields 24 [(1, 1, 1), (4, 4, 7), (16, 2, 5)])

def wCombine (c : Cmd) : State :=
  let s := withCmd (wg combining2 final3) c
  { s with trans := { s.trans with conns := [(5, conn2)] } }

/-- The one source of an ACC_COMBINE, with its one tile. -/
def source5 : CombineSource := { conn := 5, connId := 0, head := some (2, 0, 2, 0), tiles := [(0, (List.replicate 16 [3, 0, 0, 0]).flatten)] }

def cCombining : Cmd := { cCombine with phase := .committed, work := .combining false 7 [source5] }

/-- FIX16 sums whose scale has been lowered eight times, and a source at their top. -/
def low3 : Group := { final3 with format := 0x20, kind := 0, startScale := 8, bankA := { final3.bankA with elems := [(0, { a := 32767, x := 0, y := 0 })] } }

def sourceTop : CombineSource := { conn := 5, connId := 0, head := some (2, 0, 2, 0), tiles := [(0, (List.replicate 16 [255, 127]).flatten)] }

def cTop : Cmd := { cCombine with phase := .committed, work := .combining false 7 [sourceTop] }

def wTop : State :=
  let s := withCmd (wg combining2 low3) cTop
  { s with trans := { s.trans with conns := [(5, conn2)] } }

def masked2 : Job := { job2 with mode := some .masked, graph := some { graph3 with mode := .masked, nodes := graph3.nodes ++ [{ station := 6, inst := 0, maxTiles := 0, groups := 8 }] } }

def cMask : Cmd := cmd .maskConfigure 2 0xFF [(0, 1, 1), (1, 1, 128)]

/-- A seed ledger of take 7 with one committed client. -/
def ledger4 : Ledger := { (default : Ledger) with take := 7, committed := [zeros 15 ++ [1]], thresh := 2 }

/-- One self-mask record with two shares. -/
def seeds1 : Bytes :=
  fields 16 [(0, 4, 7), (4, 4, 1)] ++ fields 136 [(0, 1, 1), (1, 1, 2), (23, 1, 1), (40, 4, 1), (56, 8, 5), (88, 4, 2), (104, 8, 6)]

def record1 : SeedRecord :=
  { kind := 1, token := zeros 15 ++ [1], peer := zeros 16, shares := [{ x := 1, y0 := 5, y1 := 0 }, { x := 2, y0 := 6, y1 := 0 }], clean := true }

def cSeeds : Cmd :=
  { cmd .maskSeedsSubmit 2 0xFF [] (fields 24 [(0, 2, 1), (8, 8, 0x1000), (16, 4, 152)]) with inputLen := 152, input := seeds1 }

def wMask (c : Cmd) (g : Group) (k : Ledger) : State :=
  let s := withCmd (wg masked2 g) c
  { s with masks := { s.masks with ledgers := [(4, k)] } }

/-- A work item over the one tile of group 3. -/
def item0 : RegenItem := { ledger := 4, group := 3, slice := 0, key := zeros 32, negative := true, next := 0, last := 1 }

def wItem : State := wMask cSeeds fill3 { ledger4 with items := [item0] }

def cRemove : Cmd := cmd .maskRemove 2 3 [(4, 4, 7)]

def sealed4 : Ledger := { ledger4 with selfs := ledger4.committed }

def cUnmask : Cmd := { cRemove with phase := .committed, work := .unmasking false 7 }

/-- A policy block: noise or none, a least cohort and σ. -/
def policyBlock (noisy : Nat) (sigma : Nat) : Bytes := fields 32 [(0, 1, 1), (1, 1, noisy), (2, 1, 7), (4, 4, 1), (8, 6, sigma), (16, 4, 1), (20, 1, 60)]

def cPolicy (group : Nat) : Cmd := cmd .gatePolicySet 2 group [] (policyBlock 1 (2 ^ 32))

/-- The item of bank A of group 3. -/
def item3 (released : Bool) (kept : Bytes) : GateItem := { (default : GateItem) with job := 2, take := 7, released := released, kept := kept }

/-- `wg` with that item, its policy, a region of device memory with right W and an RNG that is READY. -/
def wGate (c : Cmd) (g : Group) (it : GateItem) (p : GatePolicy) : State :=
  { withCmd (wg job2 g) c with
    trans := { w.trans with regions := [(0, { region0 with space := .device })] }
    gate := { w.gate with items := [(6, it)], policies := [(3, p)] }
    rng := { w.rng with mode := .ready } }

def quiet : GatePolicy := policyOf (policyBlock 0 0)

def noisy : GatePolicy := policyOf (policyBlock 1 1)

def cRelease (flags dest : Nat) : Cmd := cmd .gateRelease 2 3 [(1, 1, flags), (2, 1, dest), (4, 4, 7), (8, 4, if dest = 0 then 1 else 0)]

def cCommit (num den : Nat) : Cmd := { cRelease 0 0 with work := .seeds num den }

/-- The same with one seed generated. -/
def wSeeded : State :=
  { wGate (cCommit 1 1) final3 (item3 false []) noisy with
    rng := { w.rng with mode := .ready, requests := [{ level := 3, consumer := .command 7, size := 32, left := 0, got := zeros 32, piece := 32, draw := none }] } }

def strict : GatePolicy := { quiet with minCohort := 2 }

/-- A parameter set with N = 1024, one limb and no table. -/
def setBlock : Bytes := fields 72 [(0, 2, 0x100), (2, 1, 10), (3, 1, 1), (7, 1, 1), (16, 8, 2), (64, 8, 1054721)]

def cParams : Cmd := cmd .polyParamsLoad 0xFF 0xFF [] setBlock

/-- A small set with N = 2 and the prime 17, with version 1 of its tables defined or not. -/
def set2 (tables : Bool) : ParamSet :=
  { (default : ParamSet) with logN := 1, limbs := 1, t := 2, eta := 2, primes := [17], versions := if tables then [(1, [4])] else [] }

/-- `wc` with that set as set 0x100 and a command. -/
def wPoly (p : ParamSet) (c : Cmd) : State := withCmd { wc with poly := { w.poly with sets := [(0x100, p)] } } c

/-- A started command with AUTH set and a trailer. -/
def withTrailer (c : Cmd) : Cmd := { c with slate := c.slate.set 2 8, block := c.block ++ zeros 48 }

def cTable : Cmd := cmd .polyTableBuild 0xFF 0xFF [] (fields 16 [(0, 2, 0x100), (2, 2, 1)])

def cRoots : Cmd := withTrailer (cmd .polyTableBuild 0xFF 0xFF [] (fields 24 [(0, 2, 0x100), (2, 2, 1), (4, 1, 1), (16, 8, 4)]))

/-- A slot of version 1 of set 0x100. -/
def slot1 (m : SlotState) (built : Nat) : TableSlot := { (default : TableSlot) with set := 0x100, ver := 1, state := m, built := built }

/-- `wPoly` with heddle 15 holding that slot and the other heddles out of service. -/
def wHeddle (p : ParamSet) (c : Cmd) (m : SlotState) : State :=
  (wPoly p c).updPoly (fun k => { k with heddles := (List.replicate 15 default) ++ [{ (default : Heddle) with slot1 := slot1 m 0, inService := true }] })

def cBuilding : Cmd := { cTable with phase := .committed, work := .tables 0x100 1 0 }

/-- POLY_KEY_LOAD's block for a public key with handle 5 and the identity "a". -/
def keyBlock : Bytes :=
  fields 16 [(1, 1, 3), (2, 2, 5), (4, 2, 0x100), (6, 2, 1), (9, 1, 1)] ++ (toLE 32 0x66687aadf862bd776c8fc18b8e9f8e20089714856ee233b3902a591d0d5f2925).reverse ++ [97] ++ zeros 79 ++ fields 24 [(0, 2, 1), (16, 4, 32)]

def cKey : Cmd := { cmd .polyKeyLoad 2 0xFF [] keyBlock with input := zeros 32 }

def wKey (c : Cmd) : State := { wPoly (set2 true) c with accum := { w.accum with jobs := [(2, { job2 with mode := some .homomorphic })] } }

def noObject : PolyObject :=
  { kind := 1, paramSet := 0x100, tableVer := 0, level := 0, ntt := false, keyTag := 0, targetTag := 0, noise := 0, count := 1, dnum := 0, special := 0,
    comps := 2, contribs := 0, auxBits := 0, take := 0, idHash := [], seqEnd := 0, data := [1, 2, 3, 4], headers := [], freeing := false, users := [], sources := [],
    sigma := none, unbounded := false, seqStart := 0, combined := false }

/-- `wKey` with object 5 of job 2. -/
def wObject (c : Cmd) (o : PolyObject) : State := (wKey c).updPoly (fun k => { k with objects := [(objId 2 5, o)] })

def cFree : Cmd := cmd .polyKeyLoad 2 0xFF [] (fields 128 [(0, 1, 1), (2, 2, 5)])

def cFreeing : Cmd := { cFree with phase := .committed, work := .freeing (objId 2 5) }

/-- A POLY operation of job 2 on object 5 into object 9. -/
def cPoly (op : Opcode) (flags : Nat) (l : List (Nat × Nat × Nat)) : Cmd :=
  cmd op 2 0xFF ([(0, 2, 9), (2, 1, flags), (3, 1, 255), (4, 1, 1), (6, 2, 5)] ++ l)

def cAdd : Cmd := cPoly .polyAdd 0 [(8, 1, 1), (10, 2, 5)]

/-- The set with a prime that leaves room for noise. -/
def set3 : ParamSet := { set2 true with primes := [1054721], versions := [(1, [6])] }

def wOps (c : Cmd) : State :=
  (wHeddle set3 c .ready).updPoly (fun k => { k with objects := [(objId 2 5, noObject), (objId 2 6, { noObject with kind := 3, tableVer := 1, ntt := true })] })

def wOp (c : Cmd) : State :=
  { wOps c with
    accum := { w.accum with jobs := [(2, { job2 with mode := some .homomorphic })] }
    rng := { w.rng with mode := .ready } }

def cEnc : Cmd := cPoly .polyEncNoise 0 [(12, 2, 6), (14, 2, 1)]

def cDec : Cmd := { cPoly .polyDecShare 0 [(12, 2, 6), (14, 2, 1), (16, 4, 8), (20, 4, 1)] with phase := .started, work := .poly false 0x100 1 0 1 }

def wDrawn (c : Cmd) : State :=
  { wOp c with rng := { w.rng with mode := .ready, requests := [{ level := 3, consumer := .command 7, size := 16, left := 0, got := zeros 16, piece := 16, draw := none }] } }

def cAdding : Cmd := { cPoly .polyAdd 0 [(8, 1, 1), (10, 2, 5)] with phase := .working, work := .poly true 0x100 0 0 1 }

def wDrawn2 (c : Cmd) : State :=
  { wOp c with rng := { w.rng with mode := .ready, requests := [{ level := 3, consumer := .command 7, size := 64, left := 0, got := zeros 64, piece := 64, draw := none }] } }

def cSharing : Cmd := { cPoly .polyToShares 1 [(12, 2, 6), (14, 2, 1), (16, 4, 8), (20, 4, 1), (24, 2, 10)] with phase := .working, work := .poly true 0x100 1 0 1 }

/-- Slot 7, of job 2: one element and plain descent. -/
def slot7 : VaultSlot := { freshSlot (zeros 1184) with job := 2, elems := 1, modelId := zeros 8, lr := fone, eps := fone }

/-- VAULT_CONFIGURE's block for slot 7. -/
def vaultBlock (action : Nat) : Bytes :=
  fields 64 [(0, 1, 7), (1, 1, action), (4, 4, 1), (16, 8, 0x3FF0000000000000), (40, 8, 0x3FF0000000000000)] ++ zeros 1184

def cVault (action : Nat) : Cmd := cmd .vaultConfigure 2 0xFF [] (vaultBlock action)

/-- `wGate` with that slot. -/
def wVault (c : Cmd) (k : Option VaultSlot) : State :=
  let s := keyed [(.wrap, zeros 32)] (wGate c final3 (item3 true []) quiet)
  { s with gate := { s.gate with slots := List.replicate 7 none ++ [k] } }

/-- The header of a model of one element wrapped to the set: W alone. -/
def modelHead : Bytes := ascii "LNVW" ++ [1, 1, 1, 0] ++ toLE 4 1 ++ zeros 52

/-- The key that the model is wrapped with. -/
def modelK : Bytes := zeros 32

def cLoad : Cmd :=
  { cmd .vaultLoad 2 0xFF [] (fields 40 [(0, 1, 7), (16, 2, 1), (32, 4, 100)]) with
    input := modelHead ++ (zeros 20 ++ gcmMac modelK (setIv 0 0) modelHead (zeros 20)) }

theorem findSome_head {α β : Type} {f : α → Option β} {a : α} {l : List α} {b : β} (h : f a = some b) : (a :: l).findSome? f = some b := by
  rw [List.findSome?_cons, h]

theorem wVault_wrap (c : Cmd) (k : Option VaultSlot) : (wVault c k).key? .wrap = some (zeros 32) := by
  rw [show (wVault c k).key? .wrap = (keyed [(.wrap, zeros 32)] (wGate c final3 (item3 true []) quiet)).key? .wrap from key?_congr rfl rfl _]
  simp [keyed]

theorem cLoad_opens : (wVault cLoad (some slot7)).openModel slot7 cLoad.input = some (gcmCrypt modelK (setIv 0 0) (zeros 20)) := by
  have hk : (wVault cLoad (some slot7)).key? .wrap = some modelK := wVault_wrap _ _
  have hu : (wVault cLoad (some slot7)).using .wrap = modelK := using_of_key? hk (zeros_length 32)
  have hl : modelHead.length = 64 := by decide
  have hs (i n : Nat) (h : i + n ≤ 64) : slice cLoad.input i n = slice modelHead i n := by
    rw [slice, slice, show cLoad.input = modelHead ++ (zeros 20 ++ gcmMac modelK (setIv 0 0) modelHead (zeros 20)) from rfl,
      List.drop_append_of_le_length (by omega), List.take_append_of_le_length (by rw [List.length_drop]; omega)]
  have hb : byteAt cLoad.input 5 = 1 := rfl
  rw [State.openModel, if_pos hb, hk, hu]
  refine findSome_head ?_
  rw [Option.map_some, Option.bind_some, leAt, leAt, hs 12 2 (by decide), hs 40 8 (by decide), show cLoad.input = modelHead ++ (zeros 20 ++ gcmMac modelK (setIv 0 0) modelHead (zeros 20)) from rfl,
    List.take_left' hl, List.drop_left' hl, show leNat (slice modelHead 12 2) = 0 from by decide, show leNat (slice modelHead 40 8) = 0 from by decide, gcmOpen_sealed]

def cStep (w : Work) : Cmd := { cmd .vaultStep 2 3 [(0, 1, 7), (4, 4, 7)] with work := w }

/-- Slot 7 and the bank's item, released to it: element 0 is 2 (in U32 with no fractional bits). -/
def wStep (w : Work) : State :=
  let s := wGate (cStep w) { final3 with count := 1 } { item3 true [] with slot := some 7, elems := [(0, { a := 2, x := 0, y := 0 })] } quiet
  { s with gate := { s.gate with slots := List.replicate 7 none ++ [some slot7] } }

def cModelOut (wrap : Nat) : Cmd := cmd .vaultExport 2 0xFF [] (fields 32 [(0, 1, 7), (1, 1, wrap), (2, 1, 1), (4, 4, 1)])

/-- The same with 32 random bytes generated for it. -/
def wModelOut : State :=
  { wVault (cModelOut 3) (some slot7) with
    rng := { w.rng with mode := .ready, requests := [{ level := 2, consumer := .command 7, size := 32, left := 0, got := zeros 32, piece := 32, draw := none }] } }

def tenant0 : Tenant := { id := zeros 16, openHash := zeros 32, policy := fields 64 [(0, 1, 1)], counter := 0, uctr := 0 }

/-- Its K_UPD, its K_DLV and DK_ENR. -/
def updK : Bytes := zeros 32

def dlvK : Bytes := zeros 32

def enrolK : Bytes := zeros 2400

/-- `wc` with a tenant, an enrolment pair and a command. -/
def wt (c : Cmd) : State :=
  keyed [(.update, updK), (.delivery, dlvK), (.tenantRoot, zeros 32), (.enrolDk, enrolK)]
    { withCmd wc c with
      trust := { w.trust with tenant := some tenant0, enrol := some (zeros 1184) }
      rng := { w.rng with mode := .ready } }

/-- The keys of a state whose store is that of `wt`. -/
theorem keys_wt {s : State} (c : Cmd) (h : s.trust.store = (wt c).trust.store) (hk : s.ks = (wt c).ks) :
    s.key? .update = some updK ∧ s.key? .delivery = some dlvK ∧ s.key? .enrolDk = some enrolK := by
  have k (n : KeyName) := key?_congr h hk n
  rw [k, k, k]
  simp [wt, keyed, key?_installKey_other]

/-- A MAC under K_UPD in such a state. -/
theorem mac_wt {s : State} (c : Cmd) (h : s.trust.store = (wt c).trust.store) (hk : s.ks = (wt c).ks) (m : Bytes) :
    s.mac .update m = hmac updK m := mac_of_key? (keys_wt c h hk).1 (zeros_length 32) m

/-- K_DLV as a unit receives it in such a state. -/
theorem dlv_wt {s : State} (c : Cmd) (h : s.trust.store = (wt c).trust.store) (hk : s.ks = (wt c).ks) :
    s.using .delivery = dlvK := using_of_key? (keys_wt c h hk).2.1 (zeros_length 32)

def cAttest : Cmd := cmd .attest 0xFF 0xFF [] (fields 64 [(40, 4, 0x10000)])

theorem attest_len (s : State) (n : Bytes) (x : Tenant) (he : attestEntries s = []) (ht : s.trust.tenant = some x) (hr : s.trust.romMode = false) :
    (attestBody s n 0).length = 1472 := by
  unfold attestBody
  simp only [he, ht, hr, List.length_append, fitBytes_length, sha256_length, toBE_length, toLE_length, List.flatten_nil, List.length_cons,
    List.length_nil, Bool.false_eq_true, if_false, show (ascii "LNAT").length = 4 from by decide]

theorem attest_fits :
    (attestBody (wt cAttest) (cAttest.parB 0 32) (cAttest.par 48 1) ++ identitySign (wt cAttest) (attestBody (wt cAttest) (cAttest.parB 0 32) (cAttest.par 48 1))
      ++ (if cAttest.par 48 1 = 1 then fitBytes 29952 (wt cAttest).trust.flash.cert else [])).length ≤ leAt cAttest.block 40 4 := by
  have h0 : cAttest.par 48 1 = 0 := rfl
  have h1 : leAt cAttest.block 40 4 = 0x10000 := by decide
  rw [h0, h1, if_neg Nat.zero_ne_one, List.append_nil, List.length_append, attest_len _ _ tenant0 rfl rfl rfl, identitySign, slhSign_length]
  decide

def cChallenge : Cmd := cmd .challenge 0xFF 0xFF [] (fields 64 [(0, 1, 1), (48, 4, 48)])

/-- TENANT_OPEN's block before its capsule. -/
def openHead : Bytes := fields 24 [(0, 1, 1)] ++ zeros 1088 ++ sha256 (zeros 1184)

theorem openHead_length : openHead.length = 1144 := by simp [openHead]; decide

def openKey : Bytes := hkdf (kemOpen enrolK (zeros 1088)) (sha256 (zeros 1088)) (ascii "LN7300-TOPEN" ++ zeros 32)

/-- The capsule's plaintext: the tenant's root, no model owner, and policy version 1. -/
def openText : Bytes := fields 128 [(64, 1, 1)]

def cTenant : Cmd := cmd .tenantOpen 0xFF 0xFF [] (openHead ++ gcmSeal openKey (zeros 12) openHead openText)

theorem cTenant_ct : cTenant.parB 24 1088 = zeros 1088 := by
  rw [Cmd.parB, slice, show cTenant.block = fields 24 [(0, 1, 1)] ++ (zeros 1088 ++ (sha256 (zeros 1184) ++ gcmSeal openKey (zeros 12) openHead openText)) from by
    simp [cTenant, cmd, openHead, List.append_assoc], List.drop_left' (by decide), List.take_left' (zeros_length _)]

/-- No tenant yet. -/
def wNoTenant : State := { wt cTenant with trust := { (wt cTenant).trust with tenant := none } }

theorem cTenant_opens : gcmOpen (hkdf (kemOpen enrolK (cTenant.parB 24 1088)) (sha256 (cTenant.parB 24 1088)) (ascii "LN7300-TOPEN" ++ wNoTenant.identityHash))
    (zeros 12) (cTenant.block.take 1144) (cTenant.parB 1144 144) = some openText := by
  have h1 : cTenant.block.take 1144 = openHead := List.take_left' openHead_length
  have h2 : cTenant.parB 1144 144 = gcmSeal openKey (zeros 12) openHead openText := by
    have hn : (gcmSeal openKey (zeros 12) openHead openText).length = 144 := by simp [gcmSeal, show openText.length = 128 from by decide]
    rw [Cmd.parB, slice, show cTenant.block = openHead ++ gcmSeal openKey (zeros 12) openHead openText from rfl, List.drop_left' openHead_length, ← hn, List.take_length]
  rw [h1, h2, cTenant_ct]
  exact gcmOpen_gcmSeal _ _ _ _

theorem cTenant_hash : cTenant.parB 1112 32 = sha256 (zeros 1184) := by
  rw [Cmd.parB, slice, show cTenant.block = (fields 24 [(0, 1, 1)] ++ zeros 1088) ++ (sha256 (zeros 1184) ++ gcmSeal openKey (zeros 12) openHead openText) from by
    simp [cTenant, cmd, openHead, List.append_assoc], List.drop_left' (by simp; decide), List.take_left' (by simp)]

theorem cTenant_length : cTenant.body.length = 1288 := by
  rw [show cTenant.body = cTenant.block from rfl, show cTenant.block = openHead ++ gcmSeal openKey (zeros 12) openHead openText from rfl, List.length_append,
    openHead_length]
  simp [gcmSeal, show openText.length = 128 from by decide]

def cTenantPolicy : Cmd := cmd .tenantPolicySet 0xFF 0xFF [] (fields 64 [(0, 1, 1), (1, 1, 15), (2, 1, 16)])

/-- A key message: `head`, then its MAC under the tenant's K_UPD, then `rest`. -/
def keyMessage (op : Opcode) (head rest : Bytes) : Cmd := cmd op 0xFF 0xFF [] (head ++ (hmac updK head ++ rest))

theorem keyMessage_mac (op : Opcode) (head rest : Bytes) (n : Nat) (hn : head.length = n) :
    (keyMessage op head rest).parB n 32 = hmac updK ((keyMessage op head rest).block.take n) := by
  rw [Cmd.parB, slice, show (keyMessage op head rest).block = head ++ (hmac updK head ++ rest) from rfl, List.drop_left' hn, List.take_left' hn,
    List.take_left' (hmac_length _ _)]

/-- A sealed field of a key message of UCTR 1: its plaintext is what 32 zero bytes decrypt to. -/
def sealedField (tag : String) (head : Bytes) : Bytes := zeros 32 ++ gcmMac dlvK (ascii tag ++ toLE 8 1) head (zeros 32)

theorem sealedField_opens (c : Cmd) (t : Tenant) (tag : String) (off : Nat) (head rest : Bytes) (hb : c.block = head ++ (sealedField tag head ++ rest))
    (s : State) (ht : s.using .delivery = dlvK) (hu : t.uctr = 1) (hn : head.length = off) :
    openField c t tag off s = some (gcmCrypt dlvK (ascii tag ++ toLE 8 1) (zeros 32)) := by
  have hl : (sealedField tag head).length = 48 := by simp [sealedField]
  rw [openField, ht, hu, Cmd.parB, slice, hb, List.drop_left' hn, List.take_left' hn, List.take_left' hl]
  exact gcmOpen_sealed _ _ _ _

/-- OWNER_ENROL's message before its capsule. -/
def ownerHead : Bytes := fields 48 [(0, 1, 1), (40, 8, 1)] ++ sha256 (zeros 1184)

def ownerKey : Bytes := hkdf (kemOpen enrolK (zeros 1088)) (sha256 (zeros 1088)) (ascii "LN7300-OWNER" ++ zeros 32)

theorem ownerHead_length : ownerHead.length = 80 := by simp [ownerHead]; decide

def ownerBody : Bytes := ownerHead ++ (zeros 1088 ++ (zeros 32 ++ gcmMac ownerKey (zeros 12) ownerHead (zeros 32)))

theorem ownerBody_length : ownerBody.length = 1216 := by
  rw [ownerBody, List.length_append, ownerHead_length]
  simp

def cOwner : Cmd := keyMessage .ownerEnrol ownerBody []

theorem cOwner_block : cOwner.block = ownerHead ++ (zeros 1088 ++ ((zeros 32 ++ gcmMac ownerKey (zeros 12) ownerHead (zeros 32)) ++ (hmac updK ownerBody ++ []))) := by
  simp only [cOwner, keyMessage, cmd, ownerBody, List.append_assoc]

theorem cOwner_opens : gcmOpen (hkdf (kemOpen enrolK (cOwner.parB 80 1088)) (sha256 (cOwner.parB 80 1088)) (ascii "LN7300-OWNER" ++ (wt cOwner).identityHash))
    (zeros 12) (cOwner.block.take 80) (cOwner.parB 1168 48) = some (gcmCrypt ownerKey (zeros 12) (zeros 32)) := by
  have h1 : cOwner.block.take 80 = ownerHead := by rw [cOwner_block]; exact List.take_left' ownerHead_length
  have h2 : cOwner.parB 80 1088 = zeros 1088 := by
    rw [Cmd.parB, slice, cOwner_block, List.drop_left' ownerHead_length, List.take_left' (zeros_length _)]
  have h3 : cOwner.parB 1168 48 = zeros 32 ++ gcmMac ownerKey (zeros 12) ownerHead (zeros 32) := by
    rw [Cmd.parB, slice, cOwner_block, ← List.append_assoc, List.drop_left' (by rw [List.length_append, ownerHead_length]; simp), List.take_left' (by simp)]
  rw [h1, h2, h3]
  exact gcmOpen_sealed _ _ _ _

theorem cOwner_hash : cOwner.parB 48 32 = sha256 (zeros 1184) := by
  rw [Cmd.parB, slice, cOwner_block, ownerHead, List.append_assoc, List.drop_left' (by decide), List.take_left' (sha256_length _)]

theorem cOwner_length : cOwner.body.length = 1248 := by
  rw [show cOwner.body = ownerBody ++ (hmac updK ownerBody ++ []) from rfl, List.length_append, ownerBody_length]
  simp

/-- KEY_UPDATE's message before its sealed field. -/
def updHead (kind job : Nat) : Bytes := fields 48 [(0, 1, 1), (1, 1, kind), (2, 1, job), (40, 8, 1)]

def cKeyUpdate : Cmd := keyMessage .keyUpdate (updHead 1 0xFF ++ sealedField "KUPD" (updHead 1 0xFF)) []

def cPair : Cmd := keyMessage .keyUpdate (updHead 2 2 ++ zeros 48) []

def wJobKey (c : Cmd) : State := { wt c with accum := { wc.accum with jobs := [(2, job2)] } }

def cPairing : Cmd := { cPair with phase := .working, work := .none }

def wPairing : State :=
  { wJobKey cPairing with
    rng := { w.rng with mode := .ready, requests := [{ level := 2, consumer := .command 7, size := 64, left := 0, got := zeros 64, piece := 64, draw := none }] } }

/-- DEVSET_ENROL's message before its sealed field, for member 1 of 2 of the set numbered 1. -/
def setHead (action : Nat) : Bytes := fields 64 [(0, 1, 1), (1, 1, action), (2, 2, 1), (4, 2, 2), (8, 1, 1), (56, 8, 1)]

def cEnter : Cmd := keyMessage .devsetEnrol (setHead 0 ++ (sealedField "DSET" (setHead 0) ++ zeros 32)) []

def devset1 : DeviceSet := { id := 1 :: zeros 15, member := 1, members := 2, hash := sha256 (zeros 64) }

def wEntered (c : Cmd) : State := { wt c with trust := { (wt c).trust with set := some devset1, kgen := 4, staged := some 5 } }

/-- The same with the staged set key. -/
def wMember (c : Cmd) : State := keyed [(.stagedSet, zeros 32)] (wEntered c)

def cLeave : Cmd := keyMessage .devsetEnrol (setHead 1 ++ zeros 80) []

def stageHead : Bytes := fields 64 [(0, 1, 1), (8, 1, 1), (56, 8, 1)]

def cStage : Cmd := keyMessage .keyStage (stageHead ++ sealedField "KSTG" stageHead) (fields 16 [(8, 4, 32)])

def commitHead : Bytes := fields 80 [(0, 1, 1), (8, 1, 1), (56, 8, 1), (64, 4, 5)]

/-- The two members' proofs. -/
def proof0 : Bytes := possession (zeros 32) devset1.id 0 (zeros 32) 5

def proof1 : Bytes := possession (zeros 32) devset1.id 1 (zeros 32) 5

/-- The two members' entries: identity hashes of zeros and their proofs. -/
def memberEntries : Bytes := zeros 32 ++ (proof0 ++ (zeros 32 ++ proof1))

theorem proof0_length : proof0.length = 32 := hmac_length _ _

theorem proof1_length : proof1.length = 32 := hmac_length _ _

def cKeyCommit : Cmd := keyMessage .keyCommit commitHead memberEntries

theorem cKeyCommit_block (a b : Bytes) (h : memberEntries = a ++ b) : cKeyCommit.block = (commitHead ++ (hmac updK commitHead ++ a)) ++ b := by
  rw [cKeyCommit, keyMessage, h]
  simp [cmd]

theorem cKeyCommit_at (a b c : Bytes) (n : Nat) (h : memberEntries = a ++ (b ++ c)) (hn : n = 112 + a.length) (hb : b.length = 32) : cKeyCommit.parB n 32 = b := by
  rw [Cmd.parB, slice, cKeyCommit_block a (b ++ c) h, List.drop_left' (by simp [hn, show commitHead.length = 80 from by decide]; omega), List.take_left' hb]

theorem cKeyCommit_entries : cKeyCommit.parB 112 32 = zeros 32 ∧ cKeyCommit.parB 144 32 = proof0
    ∧ cKeyCommit.parB 176 32 = zeros 32 ∧ cKeyCommit.parB 208 32 = proof1 :=
  ⟨cKeyCommit_at [] (zeros 32) (proof0 ++ (zeros 32 ++ proof1)) 112 (by rw [List.nil_append, memberEntries]) rfl (zeros_length _),
    cKeyCommit_at (zeros 32) proof0 (zeros 32 ++ proof1) 144 (by rw [memberEntries]) (by rw [zeros_length]) proof0_length,
    cKeyCommit_at (zeros 32 ++ proof0) (zeros 32) proof1 176 (by rw [memberEntries, List.append_assoc])
      (by rw [List.length_append, zeros_length, proof0_length]) (zeros_length _),
    cKeyCommit_at (zeros 32 ++ (proof0 ++ zeros 32)) proof1 [] 208 (by simp only [memberEntries, List.append_assoc, List.append_nil])
      (by rw [List.length_append, List.length_append, zeros_length, proof0_length]) proof1_length⟩

theorem cKeyCommit_matches : membersMatch cKeyCommit devset1 (wMember cKeyCommit).identityHash = true := by
  obtain ⟨h0, _, h1, _⟩ := cKeyCommit_entries
  have hl : cKeyCommit.block.length = 240 := by
    rw [show cKeyCommit.block = commitHead ++ (hmac updK commitHead ++ memberEntries) from rfl]
    simp [memberEntries, proof0_length, proof1_length, show commitHead.length = 80 from by decide]
  have hs : ((List.range devset1.members).map (fun m => cKeyCommit.parB (112 + 64 * m) 32)).flatten = zeros 64 := by
    show (List.map (fun m => cKeyCommit.parB (112 + 64 * m) 32) [0, 1]).flatten = _
    simp only [List.map_cons, List.map_nil, Nat.mul_zero, Nat.mul_one, Nat.add_zero, h0]
    rw [show 112 + 64 = 176 from rfl, h1]
    rfl
  have hk : cKeyCommit.parB (112 + 64 * devset1.member) 32 = (wMember cKeyCommit).identityHash := h1
  rw [membersMatch, hl, hs, hk, show cKeyCommit.parB 8 16 = devset1.id from rfl]
  simp [devset1]

theorem cKeyCommit_proofs : badProof? cKeyCommit devset1 (zeros 32) (5 : Word32).toNat = none := by
  obtain ⟨h0, p0, h1, p1⟩ := cKeyCommit_entries
  rw [badProof?, show List.range devset1.members = [0, 1] from rfl, show (5 : Word32).toNat = 5 from rfl]
  simp only [List.find?, Nat.mul_zero, Nat.mul_one, Nat.add_zero, h0, p0, show 112 + 64 = 176 from rfl, show 144 + 64 = 208 from rfl, h1, p1,
    show possession (zeros 32) devset1.id 0 (zeros 32) 5 = proof0 from rfl, show possession (zeros 32) devset1.id 1 (zeros 32) 5 = proof1 from rfl,
    bne_self_eq_false]

/-- A firmware image of security version 1 for both order codes, with a body of one byte. -/
def image : Bytes := fields 32 [(0, 4, 0x57464E4C), (4, 2, 1), (12, 4, 1), (16, 8, 1), (24, 1, 3)] ++ zeros 29889

theorem image_shape : imageShape image = true := by
  have hl : image.length = 29921 := by
    rw [image, List.length_append, zeros_length, show (fields 32 [(0, 4, 0x57464E4C), (4, 2, 1), (12, 4, 1), (16, 8, 1), (24, 1, 3)]).length = 32 from by decide]
  unfold imageShape
  rw [hl]
  decide

def cImage : Cmd := { cmd .fwStage 0xFF 0xFF [] (fields 24 [(0, 2, 1), (16, 4, 29921)]) with input := image }

/-- No tenant, fuses of security version `svn`. -/
def wImage (c : Cmd) (svn : Nat) : State :=
  { withCmd wc c with trust := { w.trust with fuses := Fuses.of (fuseImage (zeros 32) (zeros 32) (zeros 32) (zeros 16) 2 1 [0, 9, 18, 27] svn), flash := { w.trust.flash with staged := true } } }

theorem image_fits : piecesLen [{ addr := 0, len := 29921 }] ≤ cImage.input.length := by
  rw [show cImage.input = image from rfl, image, List.length_append, zeros_length,
    show (fields 32 [(0, 4, 0x57464E4C), (4, 2, 1), (12, 4, 1), (16, 8, 1), (24, 1, 3)]).length = 32 from by decide]
  decide

def cActivate : Cmd := cmd .fwActivate 0xFF 0xFF []

def wRemask : State := { w with rng := { w.rng with bootSeeded := true }, trust := { w.trust with shareA := zeros 32, shareB := zeros 32 } }

/-- JOB_OPEN's block for job 15 before its sealed secret. -/
def jobHead : Bytes := fields 48 [(0, 1, 15)]

def sealed0 : Bytes := zeros 32 ++ gcmMac dlvK (ascii "JSEC" ++ toLE 8 0) jobHead (zeros 32)

def cJob : Cmd := withTrailer (cmd .jobOpen 0xFF 0xFF [] (jobHead ++ sealed0))

theorem cJob_opens : gcmOpen dlvK (ascii "JSEC" ++ toLE 8 cJob.counter) (cJob.block.take 48) (cJob.parB 48 48)
    = some (gcmCrypt dlvK (ascii "JSEC" ++ toLE 8 0) (zeros 32)) := by
  have hc : cJob.counter = 0 := by
    have hl : cJob.block.length = 144 := by simp [cJob, withTrailer, cmd, sealed0, show jobHead.length = 48 from by decide]
    rw [Cmd.counter, hl, leAt, slice, show cJob.block = (jobHead ++ sealed0 ++ zeros 8) ++ zeros 40 from by simp [cJob, withTrailer, cmd, zeros],
      List.drop_left' (by simp [sealed0, show jobHead.length = 48 from by decide])]
    decide
  have hb : cJob.block = jobHead ++ (sealed0 ++ zeros 48) := by simp [cJob, withTrailer, cmd]
  rw [hc, Cmd.parB, slice, hb, List.drop_left' (show jobHead.length = 48 from by decide), List.take_left' (show jobHead.length = 48 from by decide),
    List.take_left' (by simp [sealed0])]
  exact gcmOpen_sealed _ _ _ _

def wJobPair : State :=
  { wt cJob with rng := { w.rng with mode := .ready, requests := [{ level := 2, consumer := .command 7, size := 64, left := 0, got := zeros 64, piece := 64, draw := none }] } }

def cJobClose : Cmd := cmd .jobClose 2 0xFF []

/-- Job 2 with a region. -/
def wClosing (c : Cmd) : State := { withCmd (wg job2 (group3 .zero .zero)) c with trans := { w.trans with regions := [(0, region0)] } }

def wRevoking : State :=
  { withCmd wc { cJobClose with phase := .committed, work := .closing 2 } with trans := { w.trans with regions := [(0, { region0 with revoking := true })] } }

def cHandover : Cmd := cmd .tenantHandover 0xFF 0xFF []

/-- A handover whose memory settled 1 ms ago. -/
def wSettling (now : Word64) : State :=
  { wt { cHandover with phase := .committed, work := .none } with
    trust := { (wt cHandover).trust with tenant := none, enrol := none, handover := some { cid := 7, settleStart := 5 } }
    time := { w.time with ptime := now } }

/-- The same where the fields' temperatures have stood for 250 windows. -/
def wSettled (now : Word64) : State :=
  { wSettling now with power := { w.power with history := List.replicate 251 { (default : PowerSample) with temps := [100, 100, 100, 100] } } }

/-- 1 024 samples of each source, alternating, and the same with a source that is stuck at 0. -/
def samples (good : Bool) : List Bytes := List.replicate 7 (List.replicate 128 0x55) ++ [List.replicate 128 (if good then 0x55 else 0)]

theorem samples_good : failing (samples true) = 0 := by decide +kernel

theorem samples_bad : failing (samples false) ≠ 0 := by decide +kernel

def wRng (m : RngMode) (testing : Bool) : State := { w with rng := { w.rng with mode := m, testing := testing } }

/-- A GET_RANDOM of 16 bytes. -/
def cRandom : Cmd := cmd .getRandom 0xFF 0xFF [(8, 4, 16), (16, 4, 16)]

def wRandom (q : List RngRequest) : State := { withCmd wc cRandom with rng := { w.rng with mode := .ready, requests := q } }

def asked : RngRequest := { level := 4, consumer := .command 7, size := 16, left := 16, got := [], piece := 16, draw := none }

def got : RngRequest := { asked with left := 0, got := zeros 16 }

/-- `wc` with its rails on. -/
def wOn : State := { wc with power := { wc.power with railsOn := true } }

/-- A window's readings: the hottest field, the others cold, and the hottest bobbin. -/
def reading (field bobbin : Int) : WindowReading :=
  { (default : WindowReading) with fieldTemps := [field, 0, 99, 100], bobbinTemps := List.replicate 7 0 ++ [bobbin] }

def cBudget (cap v : Nat) : Cmd := cmd .setBudget 0xFF 0xFF [(0, 2, cap), (2, 2, v)]

def wBudget (c : Cmd) : State := withCmd wOn c

def wLimit : State := { wOn with power := { wOn.power with inputLimit := true } }

def wHot : State := { wOn with side := { wOn.side with qualified := 18 }, power := { wOn.power with hotIn := true } }

/-- `wc` with stack 7 in a move. -/
def wMove (m : Move) : State :=
  { wc with mem := { wc.mem with bobbins := List.replicate 7 { Stack.reset with inService := true } ++ [{ Stack.reset with inService := true, move := some m }] } }

def lineErr (l : List (Nat × Byte)) : LineErrors := { (default : LineErrors) with addr := 64, errors := l }

def rowErr : RowErrors := { (default : RowErrors) with core := 35, bank := 47, errors := [(0, 1)] }

def cScrub (which n : Nat) : Cmd := cmd .scrubConfigure 0xFF 0xFF [(0, 1, which), (4, 4, n)]

def cStaging : Cmd := cmd .stagingMap 0xFF 0xFF [(0, 1, 7), (1, 1, 1)]

/-- Entry 0 of the window mapped to address 0, or to an address that no memory has, with line 0 poisoned or not. -/
def wStaging (entry : Option Nat) (bad : Bool) : State :=
  { wc with mem := { wc.mem with staging := wc.mem.staging.set 0 entry, poison := if bad then [0] else [] } }

def farEntry : Nat := 2 ^ 40 / stagingBytes

/-- Vector 255 pending, with MSI-X enabled and the vector unmasked. -/
def vectored2 : State :=
  { w with pcie := { w.pcie with pba := 1#256 <<< 255, msixEnable := true, functionMask := false
                                 table := List.replicate 256 { addr := 0xFEE00000, data := 5, mask := false } } }

def cDebug (space n : Nat) (a : Nat) : Cmd := cmd .debugRead 0xFF 0xFF [(8, 4, n), (16, 1, space), (20, 4, n), (24, 8, a)]

def cpUnit (r : CpRole) (busy : Bool) (f : BitVec 4) : Cp := { role := r, recovering := busy, fields := f, faults := [] }

/-- `wOn` with its four processors active, one spare, and recoveries under way. -/
def wf (rs : List Recovery) : State :=
  { wOn with faults := { wOn.faults with
      recoveries := rs, cps := [cpUnit .active false 1, cpUnit .active false 2, cpUnit .active false 4, cpUnit .active false 8, cpUnit .spare false 0] } }

def recovery (kind no level : Nat) : Recovery :=
  { kind := kind, unit := no, level := level, detector := 0, since := 0, origin := wholeUnit kind no, retire := [] }

def warm0 (started : Bool) (activate : Option Nat) : WarmRestart :=
  { activate := activate, selfTest := [], causeType := 0, causeSource := 0, since := 0, started := started, last := false }

/-- `wf` with a warm restart. -/
def wWarm (c : Cmd) (k : WarmRestart) (times : List Nat) : State :=
  withCmd { wf [recovery 0 3 1] with faults := { (wf [recovery 0 3 1]).faults with warm := some k, restarts := times } } c

/-- A field's recovery that retires nothing. -/
def field3 : Recovery := recovery 15 3 3

/-- CP2 restarts: with a spare or with none. -/
def wCp (spare : Bool) : State :=
  { wf [recovery 13 2 5] with faults := { (wf [recovery 13 2 5]).faults with
      cps := [cpUnit .active false 1, cpUnit .active false 6, cpUnit .active false 8, cpUnit (if spare then .active else .off) false 8,
        cpUnit (if spare then .spare else .off) false 0] } }

def cActivated : Cmd := { cActivate with phase := .committed, work := .none }

/-- Slot 0 counts event 1 of instance 2 for any job, with a sample counter at 3; slot 255 counts the same, one short of its end. -/
def slotA : CounterSlot :=
  { event := 1, inst := 2, job := 255, enable := true, sample := true, period := 10, left := 3, due := 0, value := 5, ovf := false }

def wCount (c : Cmd) : State :=
  { withCmd w c with counters := { w.counters with slots := { slotA with due := 1 } :: List.replicate 254 CounterSlot.reset ++ [{ slotA with value := 0xFFFFFFFFFFFF }] } }

def cSlots : Cmd :=
  { cmd .cntConfigure 0xFF 0xFF [] (fields 24 [(0, 2, 1), (16, 4, 16)]) with input := fields 16 [(0, 2, 255), (2, 2, 0x101), (4, 1, 35), (5, 1, 15), (6, 1, 5)] }

def cCounts : Cmd := cmd .cntRead 0xFF 0xFF [(8, 4, 4096), (16, 2, 255), (18, 2, 1)]

def cDailies : Cmd := cmd .dailiesConfigure 0xFF 0xFF [(0, 1, 1), (1, 1, 12), (4, 4, 60000)]

def wDailies (head : BitVec 12) (n : Option Snapshot) : State :=
  { w with counters := { w.counters with dailies := true, tail := 15, head := head, snapshot := n } }

def snapshot0 : Snapshot := { (default : Snapshot) with slots := [] }

def cTrace : Cmd := cmd .traceConfigure 0xFF 0xFF [(0, 1, 2), (4, 2, 0x3FE)]

def cTraced : Cmd := cmd .traceRead 0xFF 0xFF [(8, 4, 64)]

def wTraced : State :=
  { withCmd w cTraced with counters := { w.counters with trace := List.replicate 3 { kind := 1, job := 255, group := 255, source := 0, ptime := 0, arg := zeros 8 } } }

/-- `wc` with link 7 as given, job 2, group 3, connection 5, a set and a command. -/
def wl (l : Link) (c : Cmd) : State :=
  { withCmd (wg job2 (group3 .zero .zero)) c with
    warp := { w.warp with links := List.replicate 7 Link.reset ++ [l] }
    trans := { w.trans with conns := [(5, conn2)] }
    trust := { w.trust with set := some devset1 } }

def linkOn : Link := { Link.reset with enable := true, inService := true }

def linkUp : Link := { linkOn with up := true, width := 3, lanes := [0, 1, 2, 3, 4, 5, 6, 7], lanesGood := 0xFF }

def cLink (flags : Nat) : Cmd := cmd .warpConfigure 0xFF 0xFF [(1, 1, 7), (2, 1, flags)]

def cLinkConn (active : Nat) : Cmd := cmd .warpConfigure 2 0xFF [(0, 1, 1), (1, 1, 7), (2, 1, active)]

def cRoute (again : Nat) : Cmd := cmd .warpConfigure 2 3 [(0, 1, 2), (2, 1, again), (8, 2, 5)]

def wAgain : State := { wl linkUp (cRoute 1) with warp := { (wl linkUp (cRoute 1)).warp with exported := [((3, false), [zeros 64])] } }

def cRetrain : Cmd := cmd .warpRetrain 0xFF 0xFF [(0, 1, 7), (1, 1, 1)]

def cRetraining : Cmd := { cRetrain with phase := .committed, work := .retraining 7 }

def peer (good : BitVec 9) (member : Nat) : WarpPeer := { good := 0x1FF, peerGood := good, idHash := zeros 32, setId := zeros 16, member := member }

def linkTrains : Link := { linkOn with training := some 0, maxWidth := 8, expectMember := 9, allowDegrade := true }

/-- A link frame without a packet. -/
def frame0 (type lseq : Nat) : Bytes :=
  let b := fields 4 [(0, 1, type)] ++ toBE 4 lseq ++ zeros 8
  b ++ toBE 4 (crc32c b).toNat

def linkKeeps (tries : Nat) : Link := { linkUp with replayBuf := [(5, zeros 8)], tries := tries, queue := [zeros 300], credit := 1 }

/-- `wc` with job 2, region 1, connection 5 as given and a command. -/
def wn (k : Conn) (c : Cmd) : State :=
  { withCmd (wg job2 (group3 .zero .zero)) c with
    trans := { w.trans with conns := [(5, k)], regions := [(1, { region0 with space := .device, rights := 1 })] } }

def cRegister : Cmd := cmd .regionRegister 0xFF 0xFF [(1, 1, 2), (2, 1, 15), (16, 8, 2 ^ 33)]

def cRevoke : Cmd := cmd .regionRevoke 0xFF 0xFF [(0, 4, 257)]

def cPost : Cmd :=
  { cmd .wrPost 0xFF 0xFF [] (fields 24 [(0, 2, 1), (16, 4, 128)]) with
    input := fields 64 [(2, 2, 5), (24, 8, 1)] ++ fields 64 [(0, 1, 5), (2, 2, 5), (24, 8, 2 ^ 33)] }

def wCancelNone : State := withCmd wc (cmd .wrCancel 0xFF 0xFF [(0, 2, 5), (2, 1, 1)])

def cCancel : Cmd := cmd .wrCancel 0xFF 0xFF [(0, 2, 5), (2, 1, 1)]

/-- A work request: a WRITE of 8 bytes from region 1. -/
def wr0 (len : Nat) : WorkReq :=
  { (default : WorkReq) with lkey := 257, len := len, threshold := 1 }

def connWr (len : Nat) : Conn := { conn2 with wrs := [wr0 len] }

def openConn (role : Nat) : Cmd :=
  let c := cmd .connOpen 0xFF 0xFF [] (fields 64 ([(0, 1, role), (1, 1, 2), (3, 1, 255)] ++ if role = 1 then [(14, 1, 4)] else []))
  { c with slate := c.slate.set 12 64 }

/-- The same with nonces in the pools. -/
def wNonce : State := { wn conn2 (openConn 1) with rng := { w.rng with mode := .ready, pools := List.replicate 16 [zeros 16, zeros 16] } }

def cConnClose (listener : Nat) : Cmd := cmd .connClose 0xFF 0xFF [(0, 1, listener), (4, 2, 5)]

def wListener : State :=
  { wn { conn2 with listener := some 5 } (cConnClose 1) with trans := { (wn { conn2 with listener := some 5 } (cConnClose 1)).trans with listeners := [(5, default)] } }

def connIn (p : ConnPhase) (tries : Nat) : Conn := { conn2 with phase := p, tries := tries, cid := some 7 }

/-- A connection with a packet that is not acknowledged, a message to send again, and data to acknowledge. -/
def connDue (expiries : Nat) : Conn :=
  { conn2 with ipVer := 4, portMask := 1, sinceAck := 1, expiries := expiries, retries := [0], unacked := [{ psn := 0, type := 1, body := zeros 32, sacked := false }] }

/-- `wn` with port 0 up for IPv4. -/
def wPort (k : Conn) : State :=
  { wn k (cConnClose 0) with trans := { (wn k (cConnClose 0)).trans with
      ports := { Port.reset with enable := true, linkUp := true, inService := true, ipv4En := true, lanesGood := 15, width := 2 } :: List.replicate 7 Port.reset } }

def wLocking : State := { w with trans := { w.trans with ports := [{ Port.reset with enable := true, inService := true }] } }

def wPort6 : State :=
  { wPort conn2 with trans := { (wPort conn2).trans with ports := [{ Port.reset with enable := true, linkUp := true, inService := true, ipv6En := true }] } }

/-- A transport header with big-endian fields. -/
def tHead (type psn : Nat) (l : List (Nat × Nat × Nat)) : Bytes :=
  ([(0, 1, 1), (1, 1, type), (4, 2, 5), (6, 2, 9), (8, 8, psn)] ++ l).foldl (fun (b : Bytes) (e : Nat × Nat × Nat) => b.take e.1 ++ toBE e.2.1 e.2.2 ++ b.drop (e.1 + e.2.1)) (zeros 56)

/-- Every byte complemented. -/
def flipped (b : Bytes) : Bytes := b.map (fun x => ~~~x)

theorem byte_flip : ∀ x : Byte, ~~~x ≠ x := by decide

theorem flipped_ne (b : Bytes) (h : b.length = 16) : flipped b ≠ b := by
  cases b with
  | nil => simp at h
  | cons x r => intro e; exact byte_flip x (List.cons.inj e).1

/-- A packet for connection 5 as its key seals it, or with a wrong tag. -/
def packetFor (c : Conn) (type psn : Nat) (l : List (Nat × Nat × Nat)) (data : Bytes) (good : Bool) : Bytes :=
  let m := gcmMac (c.key false) (c.iv false (type == 0x10) psn) (tHead type psn l ++ data) []
  (tHead type psn l ++ data) ++ (if good then m else flipped m)

theorem packetFor_parts (c : Conn) (type psn : Nat) (l : List (Nat × Nat × Nat)) (data : Bytes) (good : Bool) (hh : (tHead type psn l).length = 56) :
    (packetFor c type psn l data good).length = 72 + data.length
    ∧ (packetFor c type psn l data good).take ((packetFor c type psn l data good).length - 16) = tHead type psn l ++ data
    ∧ (packetFor c type psn l data good).drop ((packetFor c type psn l data good).length - 16)
      = (if good then gcmMac (c.key false) (c.iv false (type == 0x10) psn) (tHead type psn l ++ data) []
         else flipped (gcmMac (c.key false) (c.iv false (type == 0x10) psn) (tHead type psn l ++ data) [])) := by
  have hl : (packetFor c type psn l data good).length = 72 + data.length := by
    cases good <;> simp [packetFor, flipped, hh] <;> omega
  rw [hl]
  have hn : (tHead type psn l ++ data).length = 72 + data.length - 16 := by simp [hh]; omega
  exact ⟨rfl, List.take_left' hn, List.drop_left' hn⟩

theorem packetFor_opens (c : Conn) (type psn : Nat) (l : List (Nat × Nat × Nat)) (data : Bytes) (hc : c.link = none) (hh : (tHead type psn l).length = 56)
    (ht : (headOf (packetFor c type psn l data true)).type = type) (hp : (headOf (packetFor c type psn l data true)).psn = psn) :
    c.openPacket (packetFor c type psn l data true) = some data := by
  obtain ⟨h1, h2, h3⟩ := packetFor_parts c type psn l data true hh
  rw [Conn.openPacket, if_neg (by simp [hc])]
  simp only [h2, h3, ht, hp, if_true]
  rw [h1, slice, packetFor, List.append_assoc, List.drop_left' hh, List.take_left' (by omega)]

theorem packetFor_fails (c : Conn) (type psn : Nat) (l : List (Nat × Nat × Nat)) (data : Bytes) (hc : c.link = none) (hh : (tHead type psn l).length = 56)
    (ht : (headOf (packetFor c type psn l data false)).type = type) (hp : (headOf (packetFor c type psn l data false)).psn = psn) :
    c.openPacket (packetFor c type psn l data false) = none := by
  obtain ⟨_, h2, h3⟩ := packetFor_parts c type psn l data false hh
  rw [Conn.openPacket, if_neg (by simp [hc])]
  simp only [h2, h3, ht, hp]
  exact if_neg (flipped_ne _ (gcmMac_length _ _ _ _))

/-- A connection with credit, two started requests and a receive request. -/
def connRx : Conn :=
  { conn2 with creditInit := 16, granted := 16, recvs := [wr0 8], wrs := [{ wr0 8 with kind := 2, msgId := some 1 }, { wr0 8 with kind := 3, msgId := some 2 }] }

/-- `wPort` with all rights on region 1. -/
def wRx (c : Conn) : State :=
  let s := wPort c
  { s with trans := { s.trans with regions := [(1, { region0 with space := .device, rights := 15 })] } }

def frameFor (body : Bytes) : Packet :=
  { ipVer := 4, srcMac := 7, dstMac := ((wRx connRx).port 0).mac, srcIp := zeros 16, dstIp := ((wRx connRx).port 0).ip 4, body := body }

def from0 : Arrival := { path := 0, ipVer := 4, mac := 7, ip := zeros 16 }

/-- A WRITE of 2 bytes at offset 6 of region 1. -/
def writeFields : List (Nat × Nat × Nat) := [(16, 4, 0), (20, 4, 257), (24, 8, 2), (40, 8, 6), (50, 2, 2)]

def goodWrite (psn : Nat) : Bytes := packetFor connRx 1 psn writeFields [8, 9] true

/-- No connection. -/
def wNoConn : State := { wRx connRx with trans := { (wRx connRx).trans with conns := [] } }

def badWrite : Bytes := packetFor connRx 1 0 writeFields [8, 9] false

/-- An ACK of CUM_PSN 1. -/
def ackPacket : Bytes := packetFor connRx 0x10 0 [(16, 8, 1)] [] true

def headFor (type len : Nat) : Head :=
  { (default : Head) with type := type, dst := 5, msgId := 0, rkey := 257, len := len, raddr := 6, bytes := len }

def headAnswers (type : Nat) (m : Word32) : Head := { headFor type 8 with msgId := m }

def connQuiet : Conn := { conn2 with unacked := [{ psn := 0, type := 1, body := zeros 32, sacked := false }, { psn := 2, type := 1, body := zeros 32, sacked := false }] }

def rx (type : Nat) (units : List Nat) (data : List (Nat × Bytes)) (failed : Bool) : RxMsg :=
  { type := type, rkey := 257, len := 8, raddr := 0, trigger := true, trigId := 63, units := units, data := data, failed := failed, recv := none, path := 0 }

def connMsg (k : RxMsg) : Conn := { conn2 with msgs := [(0, k)] }

/-- TS of job 2. -/
def secret2 : Bytes := zeros 32

/-- A handshake packet under job 2's key, with a right or a wrong tag. -/
def greetingFor (type : Nat) (l : List (Nat × Nat × Nat)) (good : Bool) : Bytes :=
  let m := gcmMac (hsKey (secret2) 2) (zeros 12) (tHead type 0 ([(16, 1, 2)] ++ l)) []
  tHead type 0 ([(16, 1, 2)] ++ l) ++ (if good then m else flipped m)

theorem greetingFor_parts (type : Nat) (l : List (Nat × Nat × Nat)) (good : Bool) (h : (tHead type 0 ([(16, 1, 2)] ++ l)).length = 56) :
    (greetingFor type l good).take 56 = tHead type 0 ([(16, 1, 2)] ++ l)
    ∧ (greetingFor type l good).drop 56 = (if good then gcmMac (hsKey (secret2) 2) (zeros 12) (tHead type 0 ([(16, 1, 2)] ++ l)) []
        else flipped (gcmMac (hsKey (secret2) 2) (zeros 12) (tHead type 0 ([(16, 1, 2)] ++ l)) [])) :=
  ⟨List.take_left' h, List.drop_left' h⟩

def wGreet : State :=
  let s := keyed [(.transport 2, secret2)] (wRx conn2)
  { s with
    trans := { s.trans with listeners := [(1, { (default : Listener) with job := 2, portMask := 1, max := 1 })] }
    rng := { w.rng with mode := .ready, pools := List.replicate 16 [zeros 16, zeros 16] } }

def connAsks : Conn := { conn2 with phase := .connecting, cid := some 7, initiator := true, nonceI := zeros 16 }

def wAsks : State := keyed [(.transport 2, secret2)] (wRx connAsks)

/-- The secret of job 2's connections on Ethernet in such a state. -/
theorem secret_keyed {s : State} {t : State} (h : s.trust.store = (keyed [(.transport 2, secret2)] t).trust.store) (hk : s.ks = t.ks) :
    s.connSecret 2 none = secret2 := by
  refine using_of_key? ?_ (zeros_length 32)
  rw [key?_congr (t := s) (s := keyed [(.transport 2, secret2)] t) h hk]
  simp [keyed]

theorem asks_answer (type : Nat) (l : List (Nat × Nat × Nat)) (h : (tHead type 0 ([(16, 1, 2)] ++ l)).length = 56) (hd : (headOf (greetingFor type l true)).dst = 5)
    (hr : slice (greetingFor type l true) 40 12 = zeros 12) (hi : slice (greetingFor type l true) 24 16 = zeros 16) (hj : byteAt (greetingFor type l true) 16 = 2) :
    wAsks.answers? from0 (headOf (greetingFor type l true)) (greetingFor type l true) = .inr (connAsks, secret2) := by
  have hg : ∀ x, wAsks.conn? x = if x = 5 then some connAsks else none := fun x => by
    show Table.get? [(5, connAsks)] x = _
    simp [Table.get?, eq_comm]
  unfold State.answers?
  rw [hd, hg, if_pos rfl]
  dsimp only
  rw [if_neg (by decide), show wAsks.job? connAsks.job = some job2 from rfl]
  dsimp only
  rw [show wAsks.connSecret connAsks.job connAsks.link = secret2 from secret_keyed rfl rfl]
  rw [if_neg (by rw [(greetingFor_parts type l true h).1, (greetingFor_parts type l true h).2, hr]; simp only [if_true]; exact fun e => e rfl),
    if_neg (by rw [hi, hj] <;> decide)]

def wBus (step : BitVec 4) : State := { State.reset with side := { Side.reset with step := step, halted := true } }

def wRails (step : BitVec 4) (rom : Bool) (q : BitVec 5) : State :=
  { wOn with side := { Side.reset with step := step, qualified := q, health := { healthy with romGood := rom } }, power := { wOn.power with railsOn := true } }

def wTesting : State := { wRails 5 true 16 with rng := { w.rng with mode := .unseeded, testing := true } }

def wStep4 (n : BitVec 4) : State := { wOn with side := { wOn.side with step := n } }

def wHeld : State := { wOn with side := { wOn.side with testHold := true } }

def cLinkTest (target no lanes : Nat) : Cmd := cmd .linkTest 0xFF 0xFF [(8, 4, 160), (16, 1, target), (17, 1, no), (18, 2, lanes), (20, 1, 5), (24, 4, 60000)]

/-- `wc` with every crossing channel in service. -/
def wTest (c : Cmd) : State :=
  { withCmd wc c with faults := { wc.faults with crossings := List.replicate 8 { inService := 0xFFFFFFFFFFFFFFFF, retired := 0, wires := [] } } }

def cTestRuns : Cmd := { cLinkTest 3 3 63 with phase := .committed, work := .none }

def wRuns : State := { wTest cTestRuns with side := { w.side with tests := [{ cid := 7, target := 3, unit := 3, lanes := 63 }] } }

def cSelf : Cmd := cmd .selfTest 0xFF 0xFF [(8, 4, 64), (16, 4, 127)]

def cSelfRuns : Cmd := { cSelf with phase := .committed, work := .none }

def wSelf : State := { wTest cSelfRuns with side := { w.side with selfTest := some 7 } }

/-! ## Ill-formed commands are refused -/

/-- A packet from an IPv4 address with no payload. -/
def bare : Packet := { ipVer := 4, srcMac := 0, dstMac := 0, srcIp := zeros 16, dstIp := zeros 16, body := [] }

/-- A peer that names no set. -/
def nobody : WarpPeer := { good := 0, peerGood := 0, idHash := zeros 32, setId := zeros 16, member := 0 }

/-- A window in which nothing is ready. -/
def calm : WindowReading :=
  { fieldTemps := [100, 100, 100, 100], bobbinTemps := List.replicate 8 100, input10mv := 5400, inputUj := 0, dieMw := 0, bobbinMw := 0,
    tiles := [] }

/-- A module in which nothing works. -/
def noHealth : Health :=
  { busGood := false, railsGood := false, romGood := false, cpsGood := 0,
    channelsGood := [], coresGood := 0, crossingsGood := [] }

theorem test_illformed_read : (Instr.slateFetch (.data (zeros 65))).wellFormed = false ∧ (Instr.slateFetch (.data (zeros 64))).wellFormed
    ∧ (Instr.slatePhaseReread 64 (.data [])).wellFormed = false ∧ (Instr.slatePhaseReread 0 (.data (zeros 65))).wellFormed = false
    ∧ (Instr.commandStart 0 .timeout).wellFormed := by decide

theorem test_illformed_link : (Instr.pcieLinkRetrain 0 16).wellFormed = false ∧ (Instr.pcieLinkRetrain 5 4).wellFormed = false
    ∧ (Instr.pcieLinkRetrain 5 16).wellFormed := by decide

theorem test_illformed_register : (Instr.registerWrite false 67108864 true false 0).wellFormed = false
    ∧ (Instr.registerWrite true 16777216 true false 0).wellFormed = false
    ∧ (Instr.registerWrite false 0 false false 0x100000000).wellFormed = false ∧ (Instr.registerWrite false 0 true false 0x100000000).wellFormed := by
  decide

theorem test_illformed_staging : (Instr.stagingAccess 0 (.load 0)).wellFormed = false
    ∧ (Instr.stagingAccess 0 (.load 4097)).wellFormed = false ∧ (Instr.stagingAccess 1073741823 (.load 2)).wellFormed = false
    ∧ (Instr.stagingAccess 134217727 (.load 2)).wellFormed = false ∧ (Instr.stagingAccess 0 (.store [1] true)).wellFormed := by decide

theorem test_illformed_config : (Instr.configRequest (.load 4096)).wellFormed = false
    ∧ (Instr.configRequest (.store 4096 0 0)).wellFormed = false ∧ (Instr.configRequest (.load 4092)).wellFormed := by decide

theorem test_illformed_entropy : (Instr.rngReseed (zeros 127) (zeros 128)).wellFormed = false
    ∧ (Instr.drbgReseedDue (zeros 128) []).wellFormed = false ∧ (Instr.handoverSettleEnd true [] []).wellFormed = false
    ∧ (Instr.rngStartupTestDone (List.replicate 7 (zeros 128)) true).wellFormed = false
    ∧ (Instr.rngRetestDone (List.replicate 8 (zeros 127)) true).wellFormed = false ∧ (Instr.healthTestFail 8 false).wellFormed = false := by decide

theorem test_illformed_site : (Instr.faultDetected 0 ⟨0, 36, none, false⟩).wellFormed = false
    ∧ (Instr.faultDetected 12 ⟨0, 35, none, false⟩).wellFormed = false ∧ (Instr.handshakeWatchdog ⟨16, 0, none, false⟩).wellFormed = false
    ∧ (Instr.recoveryDone ⟨12, 18, none, false⟩ 0 0).wellFormed = false ∧ (Instr.handlerTimeout (some ⟨14, 1, none, false⟩)).wellFormed = false
    ∧ (Instr.coreTileTimeout 36).wellFormed = false ∧ (Instr.cpHeartbeatMiss 5).wellFormed = false ∧ (Instr.cpWatchdog 5).wellFormed = false
    ∧ (Instr.cpRestartDone 5 true).wellFormed = false ∧ (Instr.deviceWarmRestartEnd [] noHealth).wellFormed = false
    ∧ (Instr.selfTestEnd 0 [⟨13, 5, none, false⟩] 0 0).wellFormed = false ∧ (Instr.faultDetected 11 ⟨13, 4, none, false⟩).wellFormed := by decide

theorem test_illformed_reading : (Instr.budgetWindow { calm with fieldTemps := [] }).wellFormed = false
    ∧ (Instr.budgetWindow { calm with tiles := [⟨.station 1, 0, 4, 1⟩] }).wellFormed = false ∧ (Instr.budgetWindow calm).wellFormed
    ∧ (Instr.inputExcursion 16384).wellFormed = false ∧ (Instr.inputBackInRange 16384).wellFormed = false := by decide

theorem test_illformed_scrub : (Instr.scrubPass ⟨[⟨1, []⟩], [], []⟩).wellFormed = false ∧ (Instr.scrubPass ⟨[⟨0, [(72, 1)]⟩], [], []⟩).wellFormed = false
    ∧ (Instr.scrubPass ⟨[⟨0, [(3, 1), (3, 2)]⟩], [], []⟩).wellFormed = false ∧ (Instr.scrubPass ⟨[], [⟨36, 0, 0, .scratch, []⟩], []⟩).wellFormed = false
    ∧ (Instr.scrubPass ⟨[], [⟨0, 0, 0, .scratch, [(36, 1)]⟩], []⟩).wellFormed = false ∧ (Instr.scrubPass ⟨[], [], [8]⟩).wellFormed = false
    ∧ (Instr.scrubPass ⟨[⟨64, [(71, 1)]⟩], [], [7]⟩).wellFormed := by decide

theorem test_illformed_peer : (Instr.warpTrainingDone 8 nobody).wellFormed = false
    ∧ (Instr.warpTrainingDone 0 { nobody with idHash := [] }).wellFormed = false ∧ (Instr.warpTrainingDone 0 { nobody with member := 65536 }).wellFormed = false
    ∧ (Instr.warpLaneFail 0 9).wellFormed = false ∧ (Instr.wrpLaneErrRead 8 0 .both).wellFormed = false ∧ (Instr.warpReplayTimer 8).wellFormed = false
    ∧ (Instr.warpCreditStarvation 8).wellFormed = false ∧ (Instr.wrpRetryRead 8 .both).wellFormed = false
    ∧ (Instr.linkFrameData 8 []).wellFormed = false ∧ (Instr.linkFrameAck 8 []).wellFormed = false ∧ (Instr.linkFrameNak 8 []).wellFormed = false
    ∧ (Instr.linkFrameNak 0 (zeros 8285)).wellFormed = false := by decide +kernel

theorem test_illformed_packet : (Instr.write 8 bare).wellFormed = false ∧ (Instr.write 0 { bare with ipVer := 5 }).wellFormed = false
    ∧ (Instr.send 0 { bare with srcIp := [] }).wellFormed = false ∧ (Instr.readReq 0 { bare with dstIp := [] }).wellFormed = false
    ∧ (Instr.readResp 8 bare).wellFormed = false ∧ (Instr.atomicAdd 8 bare).wellFormed = false ∧ (Instr.compareSwap 8 bare).wellFormed = false
    ∧ (Instr.atomicResp 8 bare).wellFormed = false ∧ (Instr.ackReceived 8 bare).wellFormed = false ∧ (Instr.nakReceived 8 bare).wellFormed = false
    ∧ (Instr.connectReq 8 bare).wellFormed = false ∧ (Instr.connectAccept 8 bare).wellFormed = false ∧ (Instr.connectReject 8 bare).wellFormed = false
    ∧ (Instr.disconnect 8 bare).wellFormed = false ∧ (Instr.disconnect 7 bare).wellFormed ∧ (Instr.malformedFrame 8 .pause).wellFormed = false := by decide

theorem test_illformed_number : (Instr.sidebandUnqualified 5).wellFormed = false ∧ (Instr.tstSidebandCntRead 5 .both).wellFormed = false
    ∧ (Instr.msixVectorUnmask 256).wellFormed = false ∧ (Instr.vectorDelayExpiry 256).wellFormed = false ∧ (Instr.sqDoorbell 64 0).wellFormed = false
    ∧ (Instr.cqDoorbell 64 0).wellFormed = false ∧ (Instr.ringEnable 64 0).wellFormed = false ∧ (Instr.ringDisable 64 0).wellFormed = false
    ∧ (Instr.cqRecordWrite 64).wellFormed = false ∧ (Instr.regionFreed 65536).wellFormed = false ∧ (Instr.sessionExpire 65536).wellFormed = false
    ∧ (Instr.wrStart 65536).wellFormed = false ∧ (Instr.maskRegenTile 32 0).wellFormed = false ∧ (Instr.tableLimbBuilt 72 false true).wellFormed = false
    ∧ (Instr.polyObjectErase 65536).wellFormed = false ∧ (Instr.linkTestEnd 0 (List.replicate 10 ⟨0, 0, true⟩) 0).wellFormed = false
    ∧ (Instr.rateLimitWindowEnd 65536 0 0).wellFormed = false ∧ (Instr.portEnable 8 0).wellFormed = false
    ∧ (Instr.descentWritten 64 0 0 [1]).wellFormed = false ∧ (Instr.descentWritten 0 0 0 []).wellFormed = false ∧ (Instr.bankFinal 64 false).wellFormed = false
    ∧ (Instr.spareCopyDone 8).wellFormed = false ∧ (Instr.splReplaysRead 36 .both).wellFormed = false ∧ (Instr.counterIncrement 0 256 0 1).wellFormed = false
    ∧ (Instr.sampleRequest 256 0 0 0 0 0 0).wellFormed = false ∧ (Instr.dbgRead 63).wellFormed = false ∧ (Instr.dbgRead (2 ^ 48)).wellFormed = false := by decide

/-! ## The manual's worked examples -/

/-- SLICE_TILES of "Matching and slices": 262 144 tiles over 32 active cores (R46). -/
theorem test_slice_size : sliceSize 0 262144 32 = 4096 ∧ sliceSize 0 256 32 = 8 ∧ sliceSize 16 256 32 = 16 := by decide

/-- All cores good, with the spares that unprogrammed fuses give: 8, 17, 26 and 35 (R17). -/
def allGood : State :=
  { State.reset with faults := { State.reset.faults with
      cores := (List.range 36).map (fun c => { CoreUnit.reset with role := if State.reset.trust.fuses.spareOf (c / 9) = c then .spare else .active })
      cps := (List.range 5).map (fun n => cpUnit (if n = 4 then .spare else .active) false 0) } }

/-- Three retirements in one field: F2 uses core 26, then core 8 of F0 (a tie), then core 35 of F3 (R28). -/
theorem test_spare_order :
    allGood.spareFor 20 = some 26 ∧ (retireCore 20 allGood).spareFor 22 = some 8
      ∧ (retireCore 22 (retireCore 20 allGood)).spareFor 19 = some 35
      ∧ (retireCore 19 (retireCore 22 (retireCore 20 allGood))).spareCores = [17]
      ∧ (retireCore 19 (retireCore 22 (retireCore 20 allGood))).activeCores.length = 32 := by decide +kernel

/-- A wrap, a refusal and a barrier: four slates are unfetched and 31 completion slots are free (R67, R68). -/
theorem test_ring_wrap :
    ({ ringOn with cqLog2 := 5, tail := 2, sqHead := 14 } : Ring).unfetched = 4
      ∧ ({ ringOn with cqLog2 := 5, head := 30, cqTail := 30 } : Ring).cqFree = 31 := by decide

/-- The slate of that example's slot 14 names GROUP_DRAIN, job 3 and group 5 (R74). -/
theorem test_slate_bytes :
    (cmd .groupDrain 3 5 []).slate.take 2 = [0x11, 0x02] ∧ (cmd .groupDrain 3 5 []).slate.drop 8 = [3, 5, 0xF0, 0xFF] ++ zeros 52 := by decide

/-- RFC 8439's first keystream bytes of the zero key. -/
theorem test_chacha20 : beNat ((chachaBlock (zeros 32) 0).take 16) = 0x76b8e0ada0f13d90405d6ae55386bd28 := by decide +kernel

/-- One step across two slices: halves round to even (R170, R181). -/
theorem test_halving : rheShift (-20001) 1 = -10000 ∧ rheShift 10001 1 = 5000 ∧ rheShift 3 1 = 2 := by decide

/-- CAP(2), CAP(1) and LOG2F(q_2) of parameter set 0x0101 (R220, R233). -/
theorem test_capacities :
    capBits [2013265921, 998244353, 469762049] 2 65537 = some 18587 ∧ capBits [2013265921, 998244353, 469762049] 1 65537 = some 11213
      ∧ log2F 469762049 = 7374 := by decide +kernel

/-- SUMB of the same example, in units of 1/256 (R233). -/
theorem test_sum_bounds :
    sumB [(4000, 5120)] = 8184 ∧ sumB [(1, 8184), (1, 9728)] = 9734 ∧ sumB [(1, 2360), (1, 3072)] = 3123
      ∧ sumB [(1, 3123), (3, 10752)] = 11158 ∧ sumB [(1, 3123), (3, 10240)] = 10646 := by decide +kernel

/-- A cap lowered under load: s at 0.625 V and 70 °C is 0.70 (R327). -/
theorem test_speed : let x := speed 625 280; 100 * x.1 = 70 * x.2 := by decide

/-- A scatter list through the funnel: 36 requests with these lengths (R380). -/
theorem test_scatter :
    (readRequests 512 [⟨0x400000F3A, 7000⟩, ⟨0x420000100, 10240⟩]).map (fun r => r.2.1)
      = [198] ++ List.replicate 13 512 ++ [146, 256] ++ List.replicate 19 512 ++ [256] := by decide +kernel

/-- Request 36 of that list. -/
theorem test_scatter_last :
    (readRequests 512 [⟨0x400000F3A, 7000⟩, ⟨0x420000100, 10240⟩]).getLast? = some (0x420002800, 256, 16984) := by decide +kernel

/-- GROUP_OPEN of group 63 with a U32 group of 294 913 elements, 19 tiles, in slices of 2 tiles. -/
def cSlices (tiles : Nat) : Cmd :=
  cmd .groupOpen 2 63 [(0, 1, 63), (1, 1, 2), (2, 1, 2), (3, 1, 1), (4, 4, 294913), (8, 2, tiles)]

/-- The device with that command started. -/
def wSlices (tiles : Nat) : State := withCmd wOpen (cSlices tiles)

theorem wit_slices_1 (h : Obligations.SlicesFitTheActiveCores) : (groupOf (cSlices 2) (wSlices 2)).sliceTiles = 2 :=
  (h (wSlices 2) (runRow .groupOpen opGroupOpen 7 (wSlices 2)) 7 (cSlices 2) (groupOf (cSlices 2) (wSlices 2)) (started _ _ rfl rfl) (by decide)
    rfl (by decide +kernel)).1 (by decide)

theorem wit_slices_2 (h : Obligations.SlicesFitTheActiveCores) : ∃ i ≤ 12, (groupOf (cSlices 0) (wSlices 0)).sliceTiles = 2 ^ i :=
  ((h (wSlices 0) (runRow .groupOpen opGroupOpen 7 (wSlices 0)) 7 (cSlices 0) (groupOf (cSlices 0) (wSlices 0)) (started _ _ rfl rfl)
    (by decide) rfl (by decide +kernel)).2.1 (by decide)).elim fun i k => ⟨i, k.1, k.2.1⟩

/-- The module of "A cap lowered under load": 32 cores at 70 °C, every port and link up, a masked job filling, a host cap of 300 W. -/
def underLoad : State :=
  { allGood with
    power := { allGood.power with hostCap := 300, vMax := 800, k := 1024, fields := allGood.power.fields.map (fun f => { f with temp := 280 }) }
    trans := { allGood.trans with ports := allGood.trans.ports.map (fun p => { p with linkUp := true, width := 2 }) }
    warp := { allGood.warp with links := allGood.warp.links.map (fun l => { l with up := true }) }
    accum := { allGood.accum with jobs := [(3, { filling2 with graph := some { graph3 with mode := .masked } })] } }

/-- V_B is 0.625 V there, R is 373 333 MB/s and POOL is 82 031 units; R at 0.65 V would be 330.7 GB/s (R337, R338). -/
theorem test_base_voltage :
    underLoad.fixedUw = 176000000 ∧ underLoad.baseVoltage 300 = 625 ∧ underLoad.rateAt 300 625 = 373333 ∧ (underLoad.rateAt 300 650 + 50) / 100 = 3307
      ∧ underLoad.rateAt 300 550 / 100 = 2773 ∧ poolOf 373333 = 82031 := by decide +kernel

theorem wit_step_idles : Obligations.StepRunsTheFrontCommand → step w = .next w :=
  fun h => h.2 w rfl

theorem wit_doorbells_1 : Obligations.DoorbellsMoveOrStopTheirRing → ∃ t, exec (.sqDoorbell 63 15) (ringed w 63 ringOn) = .next t :=
  fun h => ⟨_, h.1.1 (ringed w 63 ringOn) 63 15 (by decide) (by decide) (by decide)⟩

theorem wit_doorbells_2 : Obligations.DoorbellsMoveOrStopTheirRing → ∃ t, exec (.cqDoorbell 0 9) (ringed w 0 ringFull) = .next t :=
  fun h => ⟨_, h.1.2.1 (ringed w 0 ringFull) 0 9 (by decide) (by decide) (by decide) (by decide)⟩

theorem wit_doorbells_3 : Obligations.DoorbellsMoveOrStopTheirRing → ∃ t, exec (.reelHeadWrite 3) (reeled w 3 62 []) = .next t :=
  fun h => ⟨_, h.1.2.2 (reeled w 3 62 []) 3 (by decide) (by decide) (by decide)⟩

theorem wit_doorbells_4 : Obligations.DoorbellsMoveOrStopTheirRing → ∃ t, exec (.sqDoorbell 0 16) (ringed w 0 ringOn) = .next t :=
  fun h => ((h.2 (ringed w 0 ringOn) 0 16 (by decide) (by decide)).1 (by decide) (by decide)).elim fun _ k => ⟨_, k.1⟩

theorem wit_doorbells_5 : Obligations.DoorbellsMoveOrStopTheirRing → ∃ t, exec (.cqDoorbell 0 16) (ringed w 0 ringOn) = .next t :=
  fun h => ((h.2 (ringed w 0 ringOn) 0 16 (by decide) (by decide)).2.1 (by decide) (by decide)).elim fun _ k => ⟨_, k.1⟩

theorem wit_doorbells_6 : Obligations.DoorbellsMoveOrStopTheirRing → ∃ t, exec (.sqDoorbell 63 0) (w) = .next t :=
  fun h => ⟨_, ((h.2 w 63 0 (by decide) (by decide)).2.2 (by decide) (by decide)).1⟩

theorem wit_enables_1 : Obligations.EnablesAndDisables → ∃ t, exec (.ringEnable 0 0x112) (ringed w 0 ringSet) = .next t :=
  fun h => ⟨_, h.1 (ringed w 0 ringSet) 0 0x112 (by decide) (by decide) (by decide) (by decide) (by decide) (by decide) (by decide) (by decide) (by decide) (by decide) (by decide)⟩

theorem wit_enables_2 : Obligations.EnablesAndDisables → ∃ t, exec (.ringDisable 0 0) (wNop) = .next t :=
  fun h => ⟨_, h.2.1 wNop 0 0 (by decide) (by decide) (by decide) (by decide)⟩

theorem wit_enables_3 : Obligations.EnablesAndDisables → ∃ t, exec (.ringDisable 0 0) (ringed w 0 ringOn) = .next t :=
  fun h => (h.2.2.1 (ringed w 0 ringOn) 0 0 (by decide) (by decide) (by decide) (by decide) (by decide)).elim fun _ k => ⟨_, k.1⟩

theorem wit_enables_4 : Obligations.EnablesAndDisables → ∃ t, exec (.reelEnable 0x20) ({ w with reel := { Reel.reset with base := 1 } }) = .next t :=
  fun h => ⟨_, h.2.2.2.1 { w with reel := { Reel.reset with base := 1 } } 0x20 (by decide) (by decide) (by decide) (by decide) (by decide)⟩

theorem wit_enables_5 : Obligations.EnablesAndDisables → ∃ t, exec (.reelDisable 0) (reeled w 0 0 []) = .next t :=
  fun h => ⟨_, h.2.2.2.2 (reeled w 0 0 []) 0 (by decide) (by decide)⟩

theorem wit_fetch_1 : Obligations.FetchedSlatesBecomeCommands → ∃ t, exec (.slateFetch (.data nopSlate)) (ringed w 5 ringDue) = .next t :=
  fun h => (h.1 (ringed w 5 ringDue) 5 { w.front with lastBulk := some 5, taken := 1 } nopSlate .nop (by decide) (by decide) (by decide) (by decide) (by decide) (by decide) (by decide) (by decide) (by decide) (by decide) (by decide)).elim fun _ k => ⟨_, k.1⟩

theorem wit_fetch_2 : Obligations.FetchedSlatesBecomeCommands → ∃ t, exec (.slatePhaseReread 5 (.data nopSlate)) (ringed w 5 { ringDue with reread := true }) = .next t :=
  fun h => (h.2 (ringed w 5 { ringDue with reread := true }) 5 nopSlate .nop (by decide) (by decide) (by decide) (by decide) (by decide) (by decide) (by decide) (by decide) (by decide) (by decide) (by decide) (by decide)).elim fun _ k => ⟨_, k.1⟩

theorem wit_room_1 : Obligations.FetchNeedsRoomInTheCompletionQueue → w = w ∨ ∃ n, (w.ring n).cqFree > w.outstanding n ∧ ∀ m, m ≠ n → w.ring m = w.ring m :=
  fun h => h.1 w w (.data []) rfl

theorem wit_room_2 : Obligations.FetchNeedsRoomInTheCompletionQueue → (ringFull.cqFree : Int) = ((ringFull.head.toNat : Int) - ringFull.cqTail.toNat - 1) % ringFull.cqSize :=
  fun h => h.2.1 ringFull (by decide) (by decide)

theorem wit_room_3 : Obligations.FetchNeedsRoomInTheCompletionQueue → (w.updRing 1 (fun r => { r with head := 0 })).fetchable 0 = w.fetchable 0 :=
  fun h => h.2.2 w 1 0 0 (by decide)

theorem wit_class_1 : Obligations.ControlRingsTakeControlOpcodes → (consumeSlate 0 (fields 64 [(0, 2, Opcode.polyNtt.row.code)]) (ringed w 0 { ringDue with control := true })).cmds = [] :=
  fun h => (h.1 (ringed w 0 { ringDue with control := true }) 0 (fields 64 [(0, 2, Opcode.polyNtt.row.code)]) .polyNtt (by decide) (by decide) (by decide) (by decide)).1

theorem wit_class_2 : Obligations.ControlRingsTakeControlOpcodes → ∃ c, (consumeSlate 0 nopSlate (ringed w 0 ringDue)).cmd? 0 = some c ∧ c.op = .nop :=
  fun h => h.2.1 (ringed w 0 ringDue) 0 nopSlate .nop (by decide) (by decide) (by decide) (by decide)

theorem wit_records_1 : Obligations.RecordsAreWritten → ∃ t, exec (.cqRecordWrite 63) (ringed w 63 { ringOn with records := [rec0], cqTail := 15, head := 2 }) = .next t :=
  fun h => (h.1 (ringed w 63 { ringOn with records := [rec0], cqTail := 15, head := 2 }) 63 rec0 [] (by decide) (by decide) (by decide) (by decide) (by decide) (by decide)).elim fun _ k => k.elim fun _ k => ⟨_, k.1⟩

theorem wit_records_2 : Obligations.RecordsAreWritten → ∃ t, exec (.reelRecordWrite) (reeled w 63 2 [default]) = .next t :=
  fun h => (h.2.1 (reeled w 63 2 [default]) default [] (by decide) (by decide) (by decide) (by decide) (by decide) (by decide) (by decide)).elim fun _ k => k.elim fun _ k => ⟨_, k.1⟩

theorem wit_records_3 : Obligations.RecordsAreWritten → ∃ t, exec (.rateLimitWindowEnd EventType.portLink.code 2 5) ({ w with reel := { w.reel with windows := [window1] } }) = .next t :=
  fun h => (h.2.2.1 { w with reel := { w.reel with windows := [window1] } } window1 EventType.portLink.code 2 5 (by decide) (by decide) (by decide)).elim fun _ k => ⟨_, k.1⟩

theorem wit_records_4 : Obligations.RecordsAreWritten → ∃ t, exec (.vectorDelayExpiry 0) (vectored) = .next t :=
  fun h => (h.2.2.2 vectored 0 (by decide) (by decide) (by decide) (by decide) (by decide)).elim fun _ k => ⟨_, k.1⟩

theorem wit_reads_1 : Obligations.ReadsClearWhatTheyReturn → ∃ t, exec (.hstReelLostRead .both) (w) = .next t :=
  fun h => ⟨_, (h.1.1 w regs_open).1⟩

theorem wit_reads_2 : Obligations.ReadsClearWhatTheyReturn → ∃ t, exec (.ingPortDropsRead 7 .low) (w) = .next t :=
  fun h => ⟨_, (h.1.2.2.2.2.2.1 7 w regs_open).2.1⟩

theorem wit_reads_3 : Obligations.ReadsClearWhatTheyReturn → ∃ t, exec (.memEccCountRead 7 .high) (w) = .next t :=
  fun h => ⟨_, (h.2.2.2.2.1 7 w regs_open).2.2⟩

theorem wit_reads_4 : Obligations.ReadsClearWhatTheyReturn → ∃ t, exec (.wrpLaneErrRead 7 8 .both) (w) = .next t :=
  fun h => ⟨_, (h.2.2.2.2.2.2.2.2.1 7 8 w regs_open).1⟩

theorem wit_reads_5 : Obligations.ReadsClearWhatTheyReturn → ∃ t, exec (.splEngineFaultsRead 35 .both) (w) = .next t :=
  fun h => ⟨_, (h.2.2.2.2.2.2.2.2.2.2.2.1 35 w regs_open).1⟩

theorem wit_reads_6 : Obligations.ReadsClearWhatTheyReturn → ∃ t, exec (.tstSidebandCntRead 4 .both) (w) = .next t :=
  fun h => ⟨_, (h.2.2.2.2.2.2.2.2.2.2.2.2.2.2.2.2.1 4 w regs_open).1⟩

theorem wit_reads_7 : Obligations.ReadsClearWhatTheyReturn → ∃ t, exec (.secPtimeLowRead) (w) = .next t :=
  fun h => ⟨_, (h.2.2.2.2.2.2.2.2.2.2.2.2.2.2.2.2.2 w regs_open).1⟩

theorem wit_device_1 : Obligations.DeviceCommandsComplete → ∃ t, exec (.nop 7) (wN) = .next t :=
  fun h => ⟨_, h.1 wN 7 (cmd .nop 0xFF 0xFF []) (started _ _ rfl rfl) (by decide)⟩

theorem wit_device_2 : Obligations.DeviceCommandsComplete → ∃ t, exec (.identify 7) (withCmd w cIdentify) = .next t :=
  fun h => ⟨_, (h.2.1 (withCmd w cIdentify) 7 cIdentify (started _ _ rfl rfl) (by decide) (by decide) (by decide) (by decide) (by decide) (by decide)).2⟩

theorem wit_device_3 : Obligations.DeviceCommandsComplete → ∃ t, exec (.setHostTime 7) (withCmd w cHostTime) = .next t :=
  fun h => ⟨_, h.2.2 (withCmd w cHostTime) 7 cHostTime (started _ _ rfl rfl) (by decide)⟩

theorem wit_one_record : Obligations.CommandsEndInOneRecord → (complete 7 .ok 0 0 wN).cmd? 7 = none :=
  fun h => (h.1 wN 7 (cmd .nop 0xFF 0xFF []) .ok 0 0 (by decide) (by decide) (by decide) (by decide)).1

theorem wit_refused : Obligations.CommandsEndInOneRecord → (runRow .nop (fun _ _ _ => .refuse .badParam 40 0) 7 wN).cmd? 7 = none :=
  fun h => (h.2 wN 7 (cmd .nop 0xFF 0xFF []) .nop (fun _ _ _ => .refuse .badParam 40 0) .badParam 40 0 (started _ _ rfl rfl) rfl).1

theorem wit_starts_1 : Obligations.CommandsStartAndEnd → ∃ t, exec (.commandStart 7 (.data [])) (wF) = .next t :=
  fun h => (h.1 wF 7 (fetched (cmd .nop 0xFF 0xFF [])) _ (.data []) none (by decide) (by decide) (by decide) (by decide) (by decide) (.inl ⟨by decide, rfl, by decide⟩) rfl (fun t e => ⟨by rw [e]; rfl, fun st d q => by change Verdict.done .ok 0 0 t ≠ _; simp⟩) (by decide)).elim fun _ k => k.elim fun _ k => ⟨_, k.1⟩

theorem wit_starts_2 : Obligations.CommandsStartAndEnd → ∃ t, exec (.commandStart 7 (.data (zeros 8))) (withCmd w cBlock) = .next t :=
  fun h => (h.1 (withCmd w cBlock) 7 cBlock _ (.data (zeros 8)) none (by decide) (by decide) (by decide) (by decide) (by decide) (.inr ⟨zeros 8, rfl, by decide, by decide, rfl, by decide, by decide, by decide⟩) rfl (fun t e => ⟨by rw [e]; rfl, fun st d q => by change Verdict.done .ok 0 0 t ≠ _; simp⟩) (by decide)).elim fun _ k => k.elim fun _ k => ⟨_, k.1⟩

theorem wit_times_out_1 : Obligations.CommandsStartAndEnd → ∃ t, exec (.commandTimeout 7) (wN) = .next t :=
  fun h => ⟨_, (h.2.1 wN 7 (cmd .nop 0xFF 0xFF []) (by decide) (by decide) (by decide)).1 (by decide)⟩

theorem wit_times_out_2 : Obligations.CommandsStartAndEnd → ∃ t, exec (.commandTimeout 7) (wWaits) = .next t :=
  fun h => ⟨_, (h.2.1 wWaits 7 (cmd .getRandom 0xFF 0xFF []) (by decide) (by decide) (by decide)).2 (by decide) (by decide)⟩

theorem wit_aborts : Obligations.CommandsStartAndEnd → ∃ t, exec (.cmdAbort 7) (withCmd w cAbort) = .next t :=
  fun h => ⟨_, h.2.2 (withCmd w cAbort) 7 cAbort (started _ _ rfl rfl) (by decide) (by decide) (by decide)⟩

theorem wit_reads_end_1 : Obligations.ReadsOfHostMemoryEnd → ∃ t, exec (.shuttleReadCompletion (.command 7) 0 (.data [1, 2, 3, 4])) (wRead (some cReads)) = .next t :=
  fun h => (h.1 (wRead (some cReads)) 7 0 0x1000 cReads [1, 2, 3, 4] (by decide) (by decide) (by decide) (by decide) (by decide) (by decide) (by decide)).elim fun _ k => ⟨_, k.1⟩

theorem wit_reads_end_2 : Obligations.ReadsOfHostMemoryEnd → ∃ t, exec (.shuttleCompletionTimeout (.command 7)) (wRead (some cReads)) = .next t :=
  fun h => (h.2.1 (wRead (some cReads)) 7 0 0x1000 4 cReads (by decide) (by decide) (by decide)).elim fun _ k => ⟨_, k.1⟩

theorem wit_reads_end_3 : Obligations.ReadsOfHostMemoryEnd → ∃ t, exec (.shuttleCompletionTimeout (.command 7)) (wRead none) = .next t :=
  fun h => ⟨_, h.2.2 (wRead none) 7 0 0x1000 4 (by decide) (by decide)⟩

theorem wit_groups_1 : Obligations.GroupsOpenAndClose → ∃ t, exec (.groupOpen 7) (wOpen) = .next t :=
  fun h => (h.1 wOpen wOpen 7 cGroupOpen (groupOf cGroupOpen wOpen) (started _ _ rfl rfl) (by decide) (by decide) (by decide) (by decide)).elim fun _ k => ⟨_, k.1⟩

theorem wit_groups_2 : Obligations.GroupsOpenAndClose → ∃ t, exec (.graphLoad 7) (wGraph) = .next t :=
  fun h => ⟨_, h.2.1 wGraph 7 cGraph job2 (started _ _ rfl rfl) (by decide) (by decide) (by decide) (by decide) (by decide) (by decide) (by decide)⟩

theorem wit_groups_3 : Obligations.GroupsOpenAndClose → ∃ t, exec (.groupClose 7) (wClose) = .next t :=
  fun h => ⟨_, (h.2.2.1 wClose 7 cClose (group3 .zero .zero) (started _ _ rfl rfl) (by decide) (by decide) (by decide)).1⟩

theorem wit_groups_4 : Obligations.GroupsOpenAndClose → ∃ t, exec (.bankZeroed 3 false) (wg job2 (group3 .zeroing .zero)) = .next t :=
  fun h => ⟨_, h.2.2.2 (wg job2 (group3 .zeroing .zero)) 3 false (group3 .zeroing .zero) (by decide) (by decide)⟩

theorem wit_takes_1 : Obligations.TakesOpenCloseAndDrain → ∃ t, exec (.takeOpen 7) (wTake) = .next t :=
  fun h => (h.1 wTake 7 cTakeOpen { job2 with lastTake := some 7 } (started _ _ rfl rfl) (by decide) (fun x e => by cases e; decide) (by decide) (by decide) (by decide) (by decide)).elim fun _ k => k.elim fun _ k => ⟨_, k.1⟩

theorem wit_takes_2 : Obligations.TakesOpenCloseAndDrain → ∃ t, exec (.takeClose 7) (wTakeClose .trusted) = .next t :=
  fun h => ⟨_, ((h.2.1 (wTakeClose .trusted) 7 cTakeClose { filling2 with mode := some .trusted } 7 (started _ _ rfl rfl) (by decide) (by decide) (by decide) (by decide) (by decide)).1 (by decide)).1⟩

theorem wit_takes_3 : Obligations.TakesOpenCloseAndDrain → ∃ t, exec (.takeClose 7) (wTakeClose .masked) = .next t :=
  fun h => ⟨_, ((h.2.1 (wTakeClose .masked) 7 cTakeClose { filling2 with mode := some .masked } 7 (started _ _ rfl rfl) (by decide) (by decide) (by decide) (by decide) (by decide)).2.1 4 _ (by decide) (by decide) rfl).1⟩

theorem wit_takes_4 : Obligations.TakesOpenCloseAndDrain → ∃ t, exec (.groupDrain 7) (wDrain) = .next t :=
  fun h => ⟨_, (h.2.2.1 wDrain 7 cDrain (group3 .filling .zero) false (started _ _ rfl rfl) (by decide) (by decide) (by decide) (by decide) (by decide)).1⟩

theorem wit_takes_5 : Obligations.TakesOpenCloseAndDrain → ∃ t, exec (.takeAbort 7) (wTakeAbort) = .next t :=
  fun h => ⟨_, h.2.2.2 wTakeAbort 7 cTakeAbort filling2 (started _ _ rfl rfl) (by decide) (by decide) (by decide)⟩

theorem wit_migrate_1 : Obligations.SlicesMigrate → ∃ core, core ∈ (wm { group3 .filling .zero with nextSeq := 1 }).activeCores ∧ core ≠ 5 ∧ exec (.stationTileTimeout 3 0) (wm { group3 .filling .zero with nextSeq := 1 }) = .next (startMove 3 0 core 1 { wm { group3 .filling .zero with nextSeq := 1 } with draws := 1 }) :=
  fun h => h.1 (wm { group3 .filling .zero with nextSeq := 1 }) 3 0 { group3 .filling .zero with nextSeq := 1 } (by decide) (by decide) (by decide) (by decide) (by decide) (by decide)

theorem wit_migrate_2 : Obligations.SlicesMigrate → ∃ t, exec (.sliceMigrationMerge 3 0) (wm moving3) = .next t :=
  fun h => (h.2.1 (wm moving3) 3 0 moving3 move3 [] (by decide) (by decide) (by decide)).elim fun _ k => ⟨_, k.1⟩

theorem wit_migrate_3 : Obligations.SlicesMigrate → ∃ t, exec (.lateEpochTile 3 0 0 65535) (wm late3) = .next t :=
  fun h => ⟨_, h.2.2 (wm late3) 3 0 0 65535 late3 (by decide) (by decide) (by decide) (by decide) (by decide) (by decide) (by decide) (by decide)⟩

theorem wit_open_1 : Obligations.EnvelopesOpen → ∃ t, exec (.decapsulationDone) (we fill3 (env0 .handshake)) = .next t :=
  fun h => (h.1 (we fill3 (env0 .handshake)) 0 [] (env0 .handshake) filling2 region0 (by decide) (by decide) (by decide) (by decide) (by decide)).elim fun _ k => ⟨_, k.1⟩

theorem wit_open_2 : Obligations.EnvelopesOpen → ∃ t, exec (.openAdmit) (we fill3 (env0 .keyed)) = .next t :=
  fun h => ((h.2.1 (we fill3 (env0 .keyed)) 0 [] (env0 .keyed) filling2 graph3 (by decide) (by decide) (by decide) (by decide) (by decide) (by decide)).1 (by decide)).elim fun _ k => ⟨_, k.1⟩

theorem wit_open_3 : Obligations.EnvelopesOpen → ∃ t, exec (.openAdmit) (wWide) = .next t :=
  fun h => ((h.2.1 wWide 0 [] envWide { filling2 with graph := some { graph3 with segments := 49 } } { graph3 with segments := 49 } (by decide) (by decide) (by decide) (by decide) (by decide) (by decide)).2.1 ⟨5, by decide, by decide⟩).elim fun _ k => ⟨_, k.1⟩

theorem wit_open_4 : Obligations.EnvelopesOpen → ∃ t, exec (.openAdmit) (wFullCore) = .next t :=
  fun h => ⟨_, (h.2.1 wFullCore 0 [] (env0 .keyed) filling2 graph3 (by decide) (by decide) (by decide) (by decide) (by decide) (by decide)).2.2 (by decide) ⟨5, by decide, by decide⟩⟩

theorem wit_open_5 : Obligations.EnvelopesOpen → ∃ t, exec (.segmentVerified 0 0) (wSealed (env0 .opening)) = .next t :=
  fun h => ((h.2.2 (wSealed (env0 .opening)) 0 0 3 0 (env0 .opening) filling2 graph3 { fill3 with nextSeq := 1 } rfl rfl rfl rfl rfl rfl rfl (by decide)).1 _ (wSealed_opens _ rfl rfl rfl rfl) (by rw [gcmCrypt_length]; rfl)).elim fun _ k => k.elim fun _ k => ⟨_, k.1⟩

theorem wit_open_6 : Obligations.EnvelopesOpen → ∃ t, exec (.segmentVerified 0 0) (wPoison) = .next t :=
  fun h => ((h.2.2 wPoison 0 0 3 0 (env0 .opening) filling2 graph3 { fill3 with nextSeq := 1 } rfl rfl rfl rfl rfl rfl rfl (by decide)).2 (by decide)).elim fun _ k => ⟨_, k.1⟩

theorem wit_commit_1 : Obligations.EnvelopesCommit → ∃ t, exec (.messageCommit 0) (we fill3 (env0 .verified)) = .next t :=
  fun h => ((h.1 (we fill3 (env0 .verified)) 0 (env0 .verified) filling2 graph3 (by decide) (by decide) (by decide) (by decide) (by decide)).1 (by decide)).elim fun _ k => ⟨_, k.1⟩

theorem wit_commit_2 : Obligations.EnvelopesCommit → ∃ t, exec (.messageCommit 0) (wLate) = .next t :=
  fun h => ((h.1 wLate 0 (env0 .verified) late graph3 (by decide) (by decide) (by decide) (by decide) (by decide)).2 .groupClosed (by decide)).elim fun _ k => ⟨_, k.1⟩

theorem wit_commit_3 : Obligations.EnvelopesCommit → ∃ t, exec (.secondPassTile 0 0) (wSealed envLarge) = .next t :=
  fun h => (h.2.1 (wSealed envLarge) 0 0 3 0 _ _ envLarge filling2 graph3 { fill3 with nextSeq := 1 } _ rfl rfl rfl rfl rfl rfl rfl (by decide) (by decide) rfl (by decide) (by decide) (wSealed_opens envLarge rfl rfl rfl rfl)).elim fun _ k => k.elim fun _ k => ⟨_, k.1⟩

theorem wit_commit_4 : Obligations.EnvelopesCommit → ∃ t, exec (.sessionExpire 65535) (wSession 60000000004) = .next t :=
  fun h => ⟨_, (h.2.2 (wSession 60000000004) 65535 session0 filling2 (by decide) (by decide)).1 (by decide)⟩

theorem wit_commit_5 : Obligations.EnvelopesCommit → ∃ t, exec (.sessionExpire 65535) (wSession 60000000005) = .next t :=
  fun h => ⟨_, (h.2.2 (wSession 60000000005) 65535 session0 filling2 (by decide) (by decide)).2 (by decide) (by decide)⟩

theorem wit_modular_1 : Obligations.ModularSumsDoNotDependOnOrder → addElem { fill3 with format := 1, kind := 0 } 0 0 0 65535 { a := 1, x := 0, y := 0 } = some { a := 0, x := 0, y := 0 } :=
  fun h => h.1 { fill3 with format := 1, kind := 0 } 0 65535 0 0 { a := 1, x := 0, y := 0 } (by decide)

theorem wit_modular_2 : Obligations.ModularSumsDoNotDependOnOrder → ∃ e, addElem { fill3 with format := 0x30, kind := 2 } 17 0 0 33 { a := 16, x := 0, y := 0 } = some e ∧ 0 ≤ e.a ∧ e.a < (17 : Nat) ∧ e.a = (16 + (33 : Nat)) % ((17 : Nat) : Int) :=
  fun h => h.2.1 { fill3 with format := 0x30, kind := 2 } 17 33 0 0 { a := 16, x := 0, y := 0 } (by decide) (by decide) (by decide)

theorem wit_modular_3 : Obligations.ModularSumsDoNotDependOnOrder → wSet.prime { fill3 with format := 0x30, kind := 2 } 4096 = 193 :=
  fun h => h.2.2.1 wSet { fill3 with format := 0x30, kind := 2 } 4096 set0 (by decide)

theorem wit_modular_4 : Obligations.ModularSumsDoNotDependOnOrder → (addElem { fill3 with format := 0x30, kind := 2 } 17 0 0 5 { a := 16, x := 0, y := 0 }).bind (addElem { fill3 with format := 0x30, kind := 2 } 17 0 0 16) = (addElem { fill3 with format := 0x30, kind := 2 } 17 0 0 16 { a := 16, x := 0, y := 0 }).bind (addElem { fill3 with format := 0x30, kind := 2 } 17 0 0 5) :=
  fun h => h.2.2.2 { fill3 with format := 0x30, kind := 2 } 17 5 16 0 0 { a := 16, x := 0, y := 0 } (.inr (by decide))

theorem wit_descent_1 : Obligations.DescentsAddContributions → ∃ t, exec (.descentWritten 3 0 0 [0]) (wm one3) = .next t :=
  fun h => ((h.1 (wm one3) 3 0 0 [0] one3 false _ rfl rfl rfl rfl (by decide) (by decide) (by decide) (by decide) (by decide) (fun r e => by cases e) (by decide) (.inr (by decide)) rfl).1 _ rfl).elim fun _ k => ⟨_, k.1⟩

theorem wit_descent_2 : Obligations.DescentsAddContributions → ∃ t, exec (.descentWritten 3 0 0 [0]) (wm top3) = .next t :=
  fun h => ⟨_, (h.1 (wm top3) 3 0 0 [0] top3 false _ rfl rfl rfl rfl (by decide) (by decide) (by decide) (by decide) (by decide) (fun r e => by cases e) (by decide) (.inr (by decide)) rfl).2 [] _ [] _ rfl rfl (by decide)⟩

theorem wit_spill_1 : Obligations.DescentsAddContributions → ∃ t, exec (.spillUpdateApply 3 0 0) (wm (spill one3)) = .next t :=
  fun h => ((h.2 (wm (spill one3)) 3 0 0 0 (spill one3) false _ rfl rfl rfl rfl rfl (by decide) rfl (by decide) (fun r e => by cases e) (.inr (by decide))).1 _ rfl).elim fun _ k => ⟨_, k.1⟩

theorem wit_spill_2 : Obligations.DescentsAddContributions → ∃ t, exec (.spillUpdateApply 3 0 0) (wm (spill top3)) = .next t :=
  fun h => ⟨_, (h.2 (wm (spill top3)) 3 0 0 0 (spill top3) false _ rfl rfl rfl rfl rfl (by decide) rfl (by decide) (fun r e => by cases e) (.inr (by decide))).2 (by decide)⟩

theorem wit_scale_1 : Obligations.TheScaleArbiterAndAccConfigure → ∃ t, exec (.scaleConfirm 3 false) (wm (reported3 7)) = .next t :=
  fun h => ((h.1 (wm (reported3 7)) 3 0 0 false (reported3 7) (by decide) (by decide) (by decide) (by decide)).1 (by decide)).elim fun _ k => k.elim fun _ k => ⟨_, k.1⟩

theorem wit_scale_2 : Obligations.TheScaleArbiterAndAccConfigure → ∃ t, exec (.scaleConfirm 3 false) (wm (reported3 8)) = .next t :=
  fun h => ((h.1 (wm (reported3 8)) 3 0 0 false (reported3 8) (by decide) (by decide) (by decide) (by decide)).2 (by decide)).elim fun _ k => k.elim fun _ k => ⟨_, k.1⟩

theorem wit_scale_3 : Obligations.TheScaleArbiterAndAccConfigure → ∃ core, core ∈ (wm (reported3 0)).activeCores ∧ core ≠ 5 ∧ exec (.scaleConfirmTimeout 3 0) (wm (reported3 0)) = .next (startMove 3 0 core 1 { wm (reported3 0) with draws := 1 }) :=
  fun h => (h.2.1 (wm (reported3 0)) 3 0 (reported3 0) (by decide) (.inl (by decide))).2 (by decide) (by decide) (by decide) (by decide) (by decide)

theorem wit_acc_1 : Obligations.TheScaleArbiterAndAccConfigure → ∃ t, exec (.accConfigure 7) (wAcc) = .next t :=
  fun h => ⟨_, h.2.2 wAcc 7 (cAcc 0 0) (group3 .zero .zero) job2 (started _ _ rfl rfl) (by decide) (by decide) (by decide) (by decide) (by decide) (by decide) (by decide) (by decide) (.inl (by decide))⟩

theorem wit_acc_2 : Obligations.TheScaleArbiterAndAccConfigure → ∃ t, exec (.accConfigure 7) (wAccClip) = .next t :=
  fun h => ⟨_, h.2.2 wAccClip 7 (cAcc 1 0x3FF0000000000000) float3 clipped2 (started _ _ rfl rfl) (by decide) (by decide) (by decide) (by decide) (by decide) (by decide) (by decide) (by decide) (.inr ⟨by decide, by decide, by decide, by decide, by decide, by decide, _, rfl, by decide⟩)⟩

theorem wit_bank_1 : Obligations.BanksEndAndCombine → ∃ t, exec (.bankFinal 3 false) (withCmd (wg job2 draining3) cWaits) = .next t :=
  fun h => (h.1 (withCmd (wg job2 draining3) cWaits) 3 false draining3 (by decide) (by decide)).elim fun _ k => k.elim fun _ k => ⟨_, k.1⟩

theorem wit_bank_2 : Obligations.BanksEndAndCombine → ∃ (t : State) (g : Group), exec (.bankFinal 3 false) (withCmd (wg lone2 draining3) cWaits) = .next t ∧ (g.bank false).mode = .zeroing ∧ (g.bank false).elems = [] :=
  fun h => (h.1 (withCmd (wg lone2 draining3) cWaits) 3 false draining3 (by decide) (by decide)).elim fun t k => k.elim fun g k => ⟨t, g, k.1, k.2.2.2.1 (by decide) (by decide)⟩

theorem wit_combine_1 : Obligations.BanksEndAndCombine → ∃ t, exec (.accCombine 7) (wCombine cCombine) = .next t :=
  fun h => (h.2.1 (wCombine cCombine) 7 cCombine final3 (combining2.graph.getD default) combining2 (started _ _ rfl rfl) (fun b x l e => by cases e) (by decide) (by decide) (by decide) (by decide) (by decide) (by decide) (by decide) (by decide) (by decide) (by decide) (by decide) (by decide) (by decide) (by decide) (by decide) (fun x hx => by cases List.mem_singleton.1 hx; exact ⟨conn2, rfl, rfl, rfl, rfl⟩)).elim fun _ k => k.elim fun _ k => k.elim fun _ k => ⟨_, k.1⟩

theorem wit_combine_2 : Obligations.BanksEndAndCombine → ∃ t, exec (.accCombineDone 7) (wCombine cCombining) = .next t :=
  fun h => ((h.2.2 (wCombine cCombining) 7 7 cCombining false [source5] final3 (by decide) (by decide) (by decide) (by decide)).1 _ rfl).elim fun _ k => k.elim fun _ k => ⟨_, k.1⟩

theorem wit_combine_3 : Obligations.BanksEndAndCombine → ∃ t, exec (.accCombineDone 7) (wTop) = .next t :=
  fun h => ((h.2.2 wTop 7 7 cTop false [sourceTop] low3 (by decide) (by decide) (by decide) (by decide)).2 (by decide)).elim fun _ k => k.elim fun _ k => ⟨_, k.1⟩

theorem wit_mask_1 : Obligations.MasksAreRebuiltAndRemoved → ∃ t, exec (.maskConfigure 7) (withCmd (wg masked2 fill3) cMask) = .next t :=
  fun h => ⟨_, h.1.1 (withCmd (wg masked2 fill3) cMask) 7 cMask masked2 (started _ _ rfl rfl) (by decide) (by decide) (by decide) (by decide) (by decide) (by decide) (by decide)⟩

theorem wit_mask_2 : Obligations.MasksAreRebuiltAndRemoved → ∃ t, exec (.maskSeedsSubmit 7) (wMask cSeeds fill3 ledger4) = .next t :=
  fun h => ⟨_, (h.1.2.1 (wMask cSeeds fill3 ledger4) 7 4 cSeeds masked2 ledger4 [{ addr := 0x1000, len := 152 }] [record1] (started _ _ rfl rfl) (by decide) (by decide) (by decide) (by decide) (by decide) (by decide) (by decide) (by decide) (by decide) (by decide) (by decide) (by decide) (by decide) (by decide) (fun r hr => by cases List.mem_singleton.1 hr; exact ⟨by decide, by decide⟩) (fun i hi r hr => by cases Nat.lt_one_iff.1 hi; cases hr; exact ⟨by decide, by decide⟩) (by decide) (by decide)).1⟩

theorem wit_mask_3 : Obligations.MasksAreRebuiltAndRemoved → ∃ t, exec (.maskRegenTile 4 0) (wItem) = .next t :=
  fun h => (h.1.2.2 wItem 4 0 { ledger4 with items := [item0] } item0 fill3 (by decide) (by decide) (by decide)).elim fun _ k => k.elim fun _ k => ⟨_, k.1⟩

theorem wit_mask_4 : Obligations.MasksAreRebuiltAndRemoved → ∃ t, exec (.maskRemove 7) (wMask cRemove final3 sealed4) = .next t :=
  fun h => ⟨_, h.2.1 (wMask cRemove final3 sealed4) 7 4 cRemove final3 masked2 (masked2.graph.getD default) sealed4 (started _ _ rfl rfl) (by decide) (by decide) (by decide) (by decide) (by decide) (by decide) (by decide) (by decide) (by decide) (by decide) (by decide) (by decide) (by decide) (by decide) (by decide)⟩

theorem wit_mask_5 : Obligations.MasksAreRebuiltAndRemoved → ∃ t, exec (.maskRemoveUnmask 7) (wMask cUnmask final3 sealed4) = .next t :=
  fun h => (h.2.2 (wMask cUnmask final3 sealed4) 7 4 7 cUnmask final3 sealed4 false (by decide) (by decide) (by decide) (by decide) (by decide)).elim fun _ k => k.elim fun _ k => ⟨_, k.1⟩

theorem wit_policy_1 : Obligations.PoliciesGovernReleases → ∃ t, exec (.gatePolicySet 7) (withCmd (wg job2 final3) (cPolicy 3)) = .next t :=
  fun h => ⟨_, (h.1.1 (withCmd (wg job2 final3) (cPolicy 3)) 7 (cPolicy 3) job2 (started _ _ rfl rfl) (by decide) (by decide) (by decide) (by decide) (by decide) (by decide) (by decide) (by decide) (by decide) (by decide) (by decide) (by decide) (by decide) (by decide) (by decide)).1 (by decide) (by decide)⟩

theorem wit_policy_2 : Obligations.PoliciesGovernReleases → ∃ t, exec (.gatePolicySet 7) (withCmd (wg job2 final3) (cPolicy 255)) = .next t :=
  fun h => ((h.1.1 (withCmd (wg job2 final3) (cPolicy 255)) 7 (cPolicy 255) job2 (started _ _ rfl rfl) (by decide) (by decide) (by decide) (by decide) (by decide) (by decide) (by decide) (by decide) (by decide) (by decide) (by decide) (by decide) (by decide) (by decide) (by decide)).2 (by decide)).elim fun _ k => ⟨_, k.1⟩

theorem wit_release_1 : Obligations.PoliciesGovernReleases → ∃ t, exec (.gateRelease 7) (wGate (cRelease 2 2) final3 (item3 false []) quiet) = .next t :=
  fun h => ⟨_, (h.1.2 (wGate (cRelease 2 2) final3 (item3 false []) quiet) 7 (cRelease 2 2) job2 (item3 false []) quiet (started _ _ rfl rfl) (fun n d e => by cases e) (by decide) (by decide)).1 (by decide)⟩

theorem wit_release_2 : Obligations.PoliciesGovernReleases → ∃ t, exec (.gateRelease 7) (wGate (cRelease 1 0) final3 (item3 true [5]) quiet) = .next t :=
  fun h => ⟨_, (h.1.2 (wGate (cRelease 1 0) final3 (item3 true [5]) quiet) 7 (cRelease 1 0) job2 (item3 true [5]) quiet (started _ _ rfl rfl) (fun n d e => by cases e) (by decide) (by decide)).2.1 (by decide) (by decide) (by decide) (by decide) _ rfl⟩

theorem wit_release_3 : Obligations.PoliciesGovernReleases → ∃ t, exec (.gateRelease 7) (wGate (cRelease 0 0) final3 (item3 false []) quiet) = .next t :=
  fun h => ⟨_, (h.1.2 (wGate (cRelease 0 0) final3 (item3 false []) quiet) 7 (cRelease 0 0) job2 (item3 false []) quiet (started _ _ rfl rfl) (fun n d e => by cases e) (by decide) (by decide)).2.2.1 (by decide) (by decide) (by decide) (by decide)⟩

theorem wit_release_4 : Obligations.PoliciesGovernReleases → ∃ t, exec (.gateRelease 7) (wGate (cRelease 0 0) final3 (item3 false []) noisy) = .next t :=
  fun h => ⟨_, (h.1.2 (wGate (cRelease 0 0) final3 (item3 false []) noisy) 7 (cRelease 0 0) job2 (item3 false []) noisy (started _ _ rfl rfl) (fun n d e => by cases e) (by decide) (by decide)).2.2.2 (by decide) (by decide) (by decide) (by decide) (by decide) (by decide) (fun e => by cases e)⟩

theorem wit_release_5 : Obligations.PoliciesGovernReleases → ∃ t, exec (.gateReleaseCommit 7) (wGate (cCommit 0 1) final3 (item3 false []) quiet) = .next t :=
  fun h => (h.2.1 (wGate (cCommit 0 1) final3 (item3 false []) quiet) 7 0 1 (cCommit 0 1) job2 (item3 false []) quiet [] (started _ _ rfl rfl) (by decide) (by decide) (by decide) (by decide) (.inl (by decide)) (fun _ => ⟨_, rfl⟩)).elim fun _ k => k.elim fun _ k => k.elim fun _ k => ⟨_, k.1⟩

theorem wit_release_6 : Obligations.PoliciesGovernReleases → ∃ t, exec (.gateReleaseCommit 7) (wSeeded) = .next t :=
  fun h => (h.2.1 wSeeded 7 1 1 (cCommit 1 1) job2 (item3 false []) noisy [zeros 32] (started _ _ rfl rfl) (by decide) (by decide) (by decide) (by decide) (.inr ⟨by decide, by decide, by decide, _, rfl, by decide, by decide⟩) (fun _ => ⟨_, rfl⟩)).elim fun _ k => k.elim fun _ k => k.elim fun _ k => ⟨_, k.1⟩

def cWriting : Cmd := { cRelease 0 0 with phase := .committed, work := .writing [5, 6] }

theorem wit_release_7 : Obligations.PoliciesGovernReleases → ∃ t, exec (.gateReleaseCommit 7) (wGate cWriting final3 (item3 true [5, 6]) quiet) = .next t :=
  fun h => ⟨_, (h.2.2 (wGate cWriting final3 (item3 true [5, 6]) quiet) 7 cWriting [5, 6] rfl rfl rfl rfl rfl (by decide)).1 _ rfl⟩

theorem wit_release_8 : Obligations.PoliciesGovernReleases → ∃ t, exec (.gateReleaseCommit 7) (withCmd (wg job2 final3) cWriting) = .next t :=
  fun h => ⟨_, (h.2.2 (withCmd (wg job2 final3) cWriting) 7 cWriting [5, 6] rfl rfl rfl rfl rfl (by decide)).2 _ rfl⟩

theorem wit_cohort_1 : Obligations.NothingIsReleasedBelowItsCohort → (wGate (cRelease 0 0) final3 (item3 false []) strict).mem.cells = wc.mem.cells :=
  fun h => (h (wGate (cRelease 0 0) final3 (item3 false []) strict) _ 7 (cRelease 0 0) job2 (item3 false []) strict (by decide) (by decide) (by decide) (by decide) (.inl (by decide)) (.inl rfl)).1

theorem wit_poly_1 : Obligations.SetsTablesKeysAndObjects → ∃ t, exec (.polyParamsLoad 7) (withCmd w cParams) = .next t :=
  fun h => (h.1.1 (withCmd w cParams) 7 cParams (started _ _ rfl rfl) (by decide) (by decide) (by decide) (by decide) (by decide) (by decide) (by decide) (by decide) (by decide) (by decide) (by decide) (by decide) (by decide) (by decide) (by decide) (by decide) (by decide) (by decide) (by decide) (by decide +kernel) (by decide) (.inr (by decide))).elim fun _ k => ⟨_, k⟩

theorem wit_poly_2 : Obligations.SetsTablesKeysAndObjects → ∃ t, exec (.polyTableBuild 7) (wPoly (set2 true) cTable) = .next t :=
  fun h => ⟨_, (h.1.2.1 (wPoly (set2 true) cTable) 7 cTable (set2 true) (started _ _ rfl rfl) (by decide) (by decide) (by decide) (by decide)).1 (by decide) (by decide) (by decide)⟩

theorem wit_poly_3 : Obligations.SetsTablesKeysAndObjects → ∃ t, exec (.polyTableBuild 7) (wPoly (set2 false) cRoots) = .next t :=
  fun h => ⟨_, (h.1.2.1 (wPoly (set2 false) cRoots) 7 cRoots (set2 false) (started _ _ rfl rfl) (by decide) (by decide) (by decide) (by decide)).2 [4] (by decide) (by decide) (by decide) (by decide) (by decide) (by decide) (by decide)⟩

theorem wit_poly_4 : Obligations.SetsTablesKeysAndObjects → ∃ t, exec (.tableLimbBuilt 15 true true) (wHeddle (set2 true) cTable .building) = .next t :=
  fun h => (h.1.2.2.1 (wHeddle (set2 true) cTable .building) 15 true (set2 true) (by decide) (by decide) (by decide) (by decide)).elim fun _ k => ⟨_, k.1⟩

theorem wit_poly_5 : Obligations.SetsTablesKeysAndObjects → ∃ t, exec (.tableLimbBuilt 15 true true) (wHeddle { set2 true with limbs := 2 } cTable .building) = .next t :=
  fun h => (h.1.2.2.1 (wHeddle { set2 true with limbs := 2 } cTable .building) 15 true { set2 true with limbs := 2 } (by decide) (by decide) (by decide) (by decide)).elim fun _ k => ⟨_, k.1⟩

theorem wit_poly_6 : Obligations.SetsTablesKeysAndObjects → ∃ t, exec (.tableBuildDone 7) (wHeddle (set2 true) cBuilding .ready) = .next t :=
  fun h => (h.1.2.2.2 (wHeddle (set2 true) cBuilding .ready) 7 0x100 1 0 cBuilding rfl rfl rfl rfl (by decide) (by decide)).elim fun _ k => ⟨_, k.1⟩

/-- The block names the hash of the key's bytes. -/
theorem cKey_hash : sha256 cKey.input = cKey.parB 16 32 := by decide +kernel

theorem wit_poly_7 : Obligations.SetsTablesKeysAndObjects → ∃ t, exec (.polyKeyLoad 7) (wKey cKey) = .next t :=
  fun h => ⟨_, (h.2.1 (wKey cKey) _ 7 cKey (set2 true) [{ addr := 0, len := 32 }] 24 (zeros 32) (started _ _ rfl rfl) rfl rfl rfl rfl rfl (by decide) (by decide) rfl cKey_hash (by decide) rfl rfl).1⟩

theorem wit_poly_8 : Obligations.SetsTablesKeysAndObjects → ∃ t, exec (.polyObjectFree 7) (wObject cFree noObject) = .next t :=
  fun h => ((h.2.2.1 (wObject cFree noObject) 7 cFree noObject (started _ _ rfl rfl) (by decide) (by decide) (by decide) (by decide))).elim fun _ k => ⟨_, k.1⟩

theorem wit_poly_9 : Obligations.SetsTablesKeysAndObjects → ∃ t, exec (.polyObjectFree 7) (wObject cFree { noObject with users := [9] }) = .next t :=
  fun h => ((h.2.2.1 (wObject cFree { noObject with users := [9] }) 7 cFree { noObject with users := [9] } (started _ _ rfl rfl) (by decide) (by decide) (by decide) (by decide))).elim fun _ k => ⟨_, k.1⟩

theorem wit_poly_10 : Obligations.SetsTablesKeysAndObjects → ∃ t, exec (.polyObjectErase (objId 2 5)) (wObject cFreeing { noObject with freeing := true }) = .next t :=
  fun h => (h.2.2.2.1 (wObject cFreeing { noObject with freeing := true }) (objId 2 5) { noObject with freeing := true } (by decide) rfl rfl).elim fun _ k => ⟨_, k.1⟩

theorem wit_poly_11 : Obligations.SetsTablesKeysAndObjects → ∃ t, exec (.polObjSelWrite 0xFFFFFFFF) (wc) = .next t :=
  fun h => ⟨_, h.2.2.2.2 wc 0xFFFFFFFF ⟨rfl, rfl⟩⟩

theorem wit_polycmd_1 : Obligations.PolyCommandsRun → ∃ t, exec (.polyAdd 7) (wOp cAdd) = .next t :=
  fun h => ⟨_, ((h.1 (wOp cAdd) 7 cAdd .polyAdd (.polyAdd 7) (by decide) (started _ _ rfl rfl)).1 _ noObject set3 (fun r x y n d e => by cases e) (by decide) (by decide) (by decide) (by decide) (by decide) (by decide) (by decide) (fun e => by cases e) (fun x e => by cases e; decide) (fun x e => by cases e) (fun e => by cases e) (by decide +kernel) (by decide +kernel) (fun x e => by cases e; decide) (by decide +kernel) rfl).1 rfl⟩

theorem wit_polycmd_2 : Obligations.PolyCommandsRun → ∃ t, exec (.polyEncNoise 7) (wOp cEnc) = .next t :=
  fun h => ⟨_, ((h.1 (wOp cEnc) 7 cEnc .polyEncNoise (.polyEncNoise 7) (by decide) (started _ _ rfl rfl)).1 _ noObject set3 (fun r x y n d e => by cases e) (by decide) (by decide) (by decide) (by decide) (by decide) (by decide) (by decide) (fun e => by cases e) (fun x e => by cases e) (fun x e => by cases e; decide) (fun e => by cases e) (by decide +kernel) (by decide +kernel) (fun x e => by cases e) (by decide +kernel) rfl).2 rfl (by decide) (by decide) (fun e => by cases e)⟩

theorem wit_polycmd_3 : Obligations.PolyCommandsRun → ∃ t, exec (.polyDecShare 7) (wDrawn cDec) = .next t :=
  fun h => ⟨_, (h.1 (wDrawn cDec) 7 cDec .polyDecShare (.polyDecShare 7) (by decide) (started _ _ rfl rfl)).2 0x100 1 0 1 rfl (by decide)⟩

theorem wit_polycmd_4 : Obligations.PolyCommandsRun → ∃ t, exec (.polyCommit 7) (wOp cAdding) = .next t :=
  fun h => ((h.2 (wOp cAdding) _ 7 0x100 0 0 1 cAdding noObject set3 _ rfl rfl rfl rfl rfl).2 rfl (fun _ => rfl) (fun e => by cases e)).elim fun _ k => k.elim fun _ k => ⟨_, k.1⟩

theorem wit_polycmd_5 : Obligations.PolyCommandsRun → ∃ t, exec (.polyCommit 7) (wDrawn2 cSharing) = .next t :=
  fun h => ((h.2 (wDrawn2 cSharing) _ 7 0x100 1 0 1 cSharing noObject set3 _ rfl rfl rfl rfl rfl).2 rfl (fun e => absurd rfl e) (fun _ => ⟨(by decide), rfl⟩)).elim fun _ k => k.elim fun _ k => ⟨_, k.1⟩

/-- Two limbs and a special one. -/
def set4 : ParamSet := { set3 with limbs := 2, special := 1, primes := [1054721, 1054729, 1054733] }

/-- A ciphertext of two limbs, and a key switching key. -/
def wLimbs (c : Cmd) : State :=
  { (wHeddle set4 c .ready).updPoly (fun k => { k with objects :=
      [(objId 2 5, { noObject with level := 1 }), (objId 2 6, { noObject with kind := 2, tableVer := 1, ntt := true, dnum := 1, special := 1 })] }) with
    accum := { w.accum with jobs := [(2, { job2 with mode := some .homomorphic })] }
    rng := { w.rng with mode := .ready } }

def cNtt : Cmd := cPoly .polyNtt 0 [(14, 2, 1)]

def cSwitch : Cmd := cPoly .polyKeyswitch 0 [(12, 2, 6), (14, 2, 1)]

def cModred : Cmd := cPoly .polyModred 0 [(16, 4, 1)]

def cShares : Cmd := cPoly .polyToShares 0 [(12, 2, 6), (14, 2, 1), (16, 4, 8), (20, 4, 1), (24, 2, 10)]

theorem wit_polycmd_6 : Obligations.PolyCommandsRun → ∃ t, exec (.polyNtt 7) (wOp cNtt) = .next t :=
  fun h => ⟨_, ((h.1 (wOp cNtt) 7 cNtt .polyNtt (.polyNtt 7) (by decide) (started _ _ rfl rfl)).1 _ noObject set3 (fun r x y n d e => by cases e) (by decide) (by decide) (by decide) (by decide) (by decide) (by decide) (by decide) (fun e => by cases e) (fun x e => by cases e) (fun x e => by cases e) (fun _ => by decide) (by decide +kernel) (by decide +kernel) (fun x e => by cases e) (by decide +kernel) rfl).1 rfl⟩

theorem wit_polycmd_7 : Obligations.PolyCommandsRun → ∃ t, exec (.polyKeyswitch 7) (wLimbs cSwitch) = .next t :=
  fun h => ⟨_, ((h.1 (wLimbs cSwitch) 7 cSwitch .polyKeyswitch (.polyKeyswitch 7) (by decide) (started _ _ rfl rfl)).1 _ { noObject with level := 1 } set4 (fun r x y n d e => by cases e) (by decide) (by decide) (by decide) (by decide) (by decide) (by decide) (by decide) (fun e => by cases e) (fun x e => by cases e) (fun x e => by cases e; decide) (fun e => by cases e) (by decide +kernel) (by decide +kernel) (fun x e => by cases e) (by decide +kernel) rfl).1 rfl⟩

theorem wit_polycmd_8 : Obligations.PolyCommandsRun → ∃ t, exec (.polyModred 7) (wLimbs cModred) = .next t :=
  fun h => ⟨_, ((h.1 (wLimbs cModred) 7 cModred .polyModred (.polyModred 7) (by decide) (started _ _ rfl rfl)).1 _ { noObject with level := 1 } set4 (fun r x y n d e => by cases e) (by decide) (by decide) (by decide) (by decide) (by decide) (by decide) (by decide) (fun e => by cases e) (fun x e => by cases e) (fun x e => by cases e) (fun e => by cases e) (by decide +kernel) (by decide +kernel) (fun x e => by cases e) (by decide +kernel) rfl).1 rfl⟩

/-- `wOp` with object 6 as given. -/
def wKeyIs (c : Cmd) (o : PolyObject) : State := (wOp c).updPoly (fun k => { k with objects := [(objId 2 5, noObject), (objId 2 6, o)] })

def secretKey : PolyObject := { noObject with kind := 4, tableVer := 1, ntt := true }

theorem wit_polycmd_9 : Obligations.PolyCommandsRun → ∃ t, exec (.polyToShares 7) (wKeyIs cShares secretKey) = .next t :=
  fun h => ⟨_, ((h.1 (wKeyIs cShares secretKey) 7 cShares .polyToShares (.polyToShares 7) (by decide) (started _ _ rfl rfl)).1 _ noObject set3 (fun r x y n d e => by cases e) (by decide) (by decide) (by decide) (by decide) (by decide) (by decide) (by decide) (fun e => by cases e) (fun x e => by cases e) (fun x e => by cases e; decide) (fun e => by cases e) (by decide +kernel) (by decide +kernel) (fun x e => by cases e) (by decide +kernel) rfl).2 rfl (by decide) (by decide) (fun e => by cases e)⟩

def cSwitching : Cmd := { cPoly .polyEncNoise 0 [(12, 2, 6), (14, 2, 1)] with phase := .working, work := .poly true 0x100 1 0 1 }

/-- The header of its key's tile is wrong. -/
def wUnsealed : State := wKeyIs cSwitching { noObject with kind := 3, tableVer := 1, ntt := true, headers := [[1]] }

theorem wit_polycmd_10 : Obligations.PolyCommandsRun → ∃ t, exec (.polyCommit 7) (wUnsealed) = .next t :=
  fun h => ⟨_, (h.2 wUnsealed wUnsealed 7 0x100 1 0 1 cSwitching noObject set3 _ rfl rfl rfl rfl rfl).1 0 (by decide)⟩

theorem wit_vault_1 : Obligations.VaultSlotsLoadStepAndExport → ∃ t, exec (.vaultConfigure 7) (wVault (cVault 0) none) = .next t :=
  fun h => ⟨_, (h.1.1 (wVault (cVault 0) none) 7 (cVault 0) job2 (started _ _ rfl rfl) (by decide) (by decide) (by decide) (by decide) (by decide) rfl).1 _ (by decide) (by decide) (by decide) rfl⟩

theorem wit_vault_2 : Obligations.VaultSlotsLoadStepAndExport → ∃ t, exec (.vaultConfigure 7) (wVault (cVault 1) (some slot7)) = .next t :=
  fun h => ⟨_, ((h.1.1 (wVault (cVault 1) (some slot7)) 7 (cVault 1) job2 (started _ _ rfl rfl) (by decide) (by decide) (by decide) (by decide) (by decide) rfl).2.1 slot7 (by decide) rfl rfl (by decide)).1⟩

theorem wit_vault_3 : Obligations.VaultSlotsLoadStepAndExport → ∃ t, exec (.vaultConfigure 7) (wVault (cVault 2) (some slot7)) = .next t :=
  fun h => ⟨_, (h.1.1 (wVault (cVault 2) (some slot7)) 7 (cVault 2) job2 (started _ _ rfl rfl) (by decide) (by decide) (by decide) (by decide) (by decide) rfl).2.2 slot7 (by decide) (by decide) rfl rfl rfl rfl⟩

theorem cLoad_length : cLoad.input.length = 100 := by
  show (modelHead ++ (zeros 20 ++ gcmMac modelK (setIv 0 0) modelHead (zeros 20))).length = 100
  rw [List.length_append, List.length_append, gcmMac_length]
  rfl

theorem cLoad_header : modelHeaderOk cLoad.input = true := by
  rw [modelHeaderOk, cLoad_length]
  rfl

theorem wit_vault_4 : Obligations.VaultSlotsLoadStepAndExport → ∃ t, exec (.vaultLoad 7) (wVault cLoad (some slot7)) = .next t :=
  fun h => ⟨_, h.1.2 (wVault cLoad (some slot7)) 7 24 cLoad [{ addr := 0, len := 100 }] slot7 _ (started _ _ rfl rfl) (by decide) (by decide) (by decide) (by decide) rfl rfl (by rw [cLoad_length] <;> decide) cLoad_header rfl rfl (by decide) (fun _ => rfl) rfl rfl cLoad_opens⟩

theorem wit_vault_5 : Obligations.VaultSlotsLoadStepAndExport → ∃ t, exec (.vaultStep 7) (wStep .none) = .next t :=
  fun h => ⟨_, h.2.1 (wStep .none) 7 (cStep .none) _ (started _ _ rfl rfl) (by decide) (by decide) (by decide) (by decide) (by decide) rfl⟩

theorem wit_vault_6 : Obligations.VaultSlotsLoadStepAndExport → ∃ t, exec (.vaultStepDone 7) (wStep .stepping) = .next t :=
  fun h => (h.2.2.1 (wStep .stepping) 7 (cStep .stepping) slot7 _ { final3 with count := 1 } { item3 true [] with slot := some 7, elems := [(0, { a := 2, x := 0, y := 0 })] } (started _ _ rfl rfl) rfl rfl (by decide) rfl).elim fun _ k => ⟨_, k.1⟩

theorem wit_vault_7 : Obligations.VaultSlotsLoadStepAndExport → ∃ t, exec (.vaultExport 7) (wVault (cModelOut 1) (some slot7)) = .next t :=
  fun h => ⟨_, (h.2.2.2 (wVault (cModelOut 1) (some slot7)) 7 (cModelOut 1) slot7 _ (started _ _ rfl rfl) (by decide) (by decide) (by decide) (by decide) (by decide) (by decide) rfl (by decide) rfl (fun e => by cases e)).1 (by decide) (by rw [wVault_wrap]; rfl)⟩

theorem wit_vault_8 : Obligations.VaultSlotsLoadStepAndExport → ∃ t, exec (.vaultExport 7) (wVault (cModelOut 3) (some slot7)) = .next t :=
  fun h => ⟨_, (h.2.2.2 (wVault (cModelOut 3) (some slot7)) 7 (cModelOut 3) slot7 _ (started _ _ rfl rfl) (by decide) (by decide) (by decide) (by decide) (by decide) (by decide) rfl (by decide) rfl (fun e => by cases e)).2.2 (by decide) (by decide) (by decide)⟩

theorem wit_vault_9 : Obligations.VaultSlotsLoadStepAndExport → ∃ t, exec (.vaultExport 7) (wModelOut) = .next t :=
  fun h => ⟨_, (h.2.2.2 wModelOut 7 (cModelOut 3) slot7 _ (started _ _ rfl rfl) (by decide) (by decide) (by decide) (by decide) (by decide) (by decide) rfl (by decide) rfl (fun e => by cases e)).2.1 _ (by decide) rfl (by decide)⟩

theorem wit_trust_1 : Obligations.AttestationFirmwareAndTheWorkingKey → ∃ t, exec (.attest 7) (wt cAttest) = .next t :=
  fun h => ⟨_, h.1.1 (wt cAttest) 7 cAttest (started _ _ rfl rfl) (by decide) (by decide) (by decide) (by decide) (by decide) (by decide) attest_fits (by decide) (by decide)⟩

theorem wit_trust_2 : Obligations.AttestationFirmwareAndTheWorkingKey → ∃ t, exec (.challenge 7) (wt cChallenge) = .next t :=
  fun h => ⟨_, (h.1.2 (wt cChallenge) 7 cChallenge _ (started _ _ rfl rfl) (by decide) (by decide) (.inl (by decide)) (by decide) (by decide) (by decide) (by decide) rfl (by decide) (by decide) (by decide)).1⟩

theorem wit_tenant_1 : Obligations.TenantsAndOwnersAreInstalled → ∃ t, exec (.tenantOpen 7) (wNoTenant) = .next t :=
  fun h => (h.1 wNoTenant 7 cTenant (zeros 1184) enrolK openText (started _ _ rfl rfl) (by decide) cTenant_length (by decide) (by decide) rfl rfl rfl (keys_wt cTenant rfl rfl).2.2 cTenant_hash cTenant_opens (by decide) (by decide) (by decide)).elim fun _ k => ⟨_, k.1⟩

theorem wit_tenant_2 : Obligations.TenantsAndOwnersAreInstalled → ∃ t, exec (.tenantPolicySet 7) (wt cTenantPolicy) = .next t :=
  fun h => ⟨_, h.2.1 (wt cTenantPolicy) 7 cTenantPolicy (started _ _ rfl rfl) (by decide) (by decide) (by decide)⟩

theorem wit_tenant_3 : Obligations.TenantsAndOwnersAreInstalled → ∃ t, exec (.ownerEnrol 7) (wt cOwner) = .next t :=
  fun h => (h.2.2 (wt cOwner) 7 cOwner tenant0 (zeros 1184) enrolK _ (started _ _ rfl rfl) (by decide) cOwner_length (by decide) (by decide) rfl (by rw [Cmd.parB, slice, cOwner_block]; rfl) ((keyMessage_mac _ _ _ _ ownerBody_length).trans (mac_wt cOwner rfl rfl _).symm) (by decide) rfl rfl (keys_wt cOwner rfl rfl).2.2 cOwner_hash cOwner_opens).elim fun _ k => ⟨_, k.1⟩

theorem keyMessage_length (op : Opcode) (head rest : Bytes) (h : (keyMessage op head rest).auth = false) :
    (keyMessage op head rest).body.length = head.length + (32 + rest.length) := by
  rw [Cmd.body, h]
  show (head ++ (hmac updK head ++ rest)).length = _
  rw [List.length_append, List.length_append, hmac_length]

theorem sealedField_length (tag : String) (head : Bytes) : (sealedField tag head).length = 48 := by simp [sealedField]

theorem cKeyUpdate_head : (updHead 1 0xFF ++ sealedField "KUPD" (updHead 1 0xFF)).length = 96 := by
  rw [List.length_append, sealedField_length]
  rfl

theorem wit_keymsg_1 : Obligations.KeyMessagesTakeEffect → ∃ t, exec (.keyUpdate 7) (wt cKeyUpdate) = .next t :=
  fun h => (h.1 (wt cKeyUpdate) 7 cKeyUpdate tenant0 _ (started _ _ rfl rfl) rfl (by decide) (by rw [cKeyUpdate, keyMessage_length _ _ _ rfl, cKeyUpdate_head]; rfl) rfl rfl rfl (by decide) (by decide) rfl rfl ((keyMessage_mac _ _ _ 96 cKeyUpdate_head).trans (mac_wt cKeyUpdate rfl rfl _).symm) (by decide) rfl (sealedField_opens _ _ _ _ (updHead 1 0xFF) (hmac updK (updHead 1 0xFF ++ sealedField "KUPD" (updHead 1 0xFF)) ++ []) (List.append_assoc _ _ _) _ (dlv_wt cKeyUpdate rfl rfl) rfl rfl)).elim fun _ k => ⟨_, k.1⟩

theorem wit_keymsg_2 : Obligations.KeyMessagesTakeEffect → ∃ t, exec (.keyUpdate 7) (wJobKey cPair) = .next t :=
  fun h => (h.2.1 (wJobKey cPair) 7 cPair tenant0 job2 (started _ _ rfl rfl) rfl (by decide) (keyMessage_length _ _ _ rfl) rfl rfl (by decide) (by decide) (by decide) (.inl (by decide)) rfl rfl ((keyMessage_mac _ _ _ 96 rfl).trans (mac_wt (s := wJobKey cPair) cPair rfl rfl _).symm) (by decide) rfl rfl rfl).elim fun _ k => ⟨_, k.1⟩

theorem wit_keymsg_3 : Obligations.KeyMessagesTakeEffect → ∃ t, exec (.keyUpdate 7) (wPairing) = .next t :=
  fun h => (h.2.2.1 wPairing 7 cPairing job2 _ ⟨rfl, rfl, .inr rfl⟩ rfl rfl rfl rfl).elim fun _ k => ⟨_, k.1⟩

theorem cEnter_head : (setHead 0 ++ (sealedField "DSET" (setHead 0) ++ zeros 32)).length = 144 := by
  rw [List.length_append, List.length_append, sealedField_length]
  rfl

theorem wit_keymsg_4 : Obligations.KeyMessagesTakeEffect → ∃ t, exec (.devsetEnrol 7) (wt cEnter) = .next t :=
  fun h => ((h.2.2.2.1 (wt cEnter) 7 cEnter tenant0 (started _ _ rfl rfl) (by decide) (by rw [cEnter, keyMessage_length _ _ _ rfl, cEnter_head]; rfl) rfl (by decide) (by decide) (by decide) (by decide) (by decide) rfl rfl ((keyMessage_mac _ _ _ 144 cEnter_head).trans (mac_wt cEnter rfl rfl _).symm) (by decide) (by decide)).1 _ rfl rfl (sealedField_opens _ _ _ _ (setHead 0) (zeros 32 ++ (hmac updK (setHead 0 ++ (sealedField "DSET" (setHead 0) ++ zeros 32)) ++ [])) ((List.append_assoc _ _ _).trans (congrArg _ (List.append_assoc _ _ _))) _ (dlv_wt cEnter rfl rfl) rfl rfl)).elim fun _ k => ⟨_, k.1⟩

theorem member_keys (c : Cmd) : (wMember c).key? .update = some updK ∧ (wMember c).key? .delivery = some dlvK
    ∧ (wMember c).key? .stagedSet = some (zeros 32) := by
  have k (n : KeyName) : (wEntered c).key? n = (wt c).key? n := key?_congr rfl rfl n
  have w := keys_wt c rfl rfl
  refine ⟨?_, ?_, ?_⟩ <;> simp [wMember, keyed, key?_installKey_other, k, w]

theorem member_mac (c : Cmd) (m : Bytes) : (wMember c).mac .update m = hmac updK m := mac_of_key? (member_keys c).1 (zeros_length 32) m

theorem member_delivery (c : Cmd) : (wMember c).using .delivery = dlvK := using_of_key? (member_keys c).2.1 (zeros_length 32)

theorem member_staged (c : Cmd) : (wMember c).using .stagedSet = zeros 32 := using_of_key? (member_keys c).2.2 (zeros_length 32)

theorem cKeyCommit_length : cKeyCommit.body.length = 240 := by
  rw [cKeyCommit, keyMessage_length _ _ _ rfl, memberEntries, List.length_append, List.length_append, List.length_append, proof0_length, proof1_length]
  rfl

theorem cStage_head : (stageHead ++ sealedField "KSTG" stageHead).length = 112 := by
  rw [List.length_append, sealedField_length]
  rfl

theorem cStage_drop : cStage.block.drop 112 = hmac updK (stageHead ++ sealedField "KSTG" stageHead) ++ fields 16 [(8, 4, 32)] :=
  List.drop_left' cStage_head

/-- HOST_ADDR, its length and the reserved bytes after it, behind the MAC. -/
theorem cStage_words : leAt cStage.block 144 8 = 0 ∧ nonZero? cStage.block 156 4 = none ∧ leAt cStage.block 152 4 = 32 := by
  have h (i n : Nat) : slice cStage.block (144 + i) n = slice (fields 16 [(8, 4, 32)]) i n := by
    rw [slice, slice, show 144 + i = 112 + (32 + i) from by omega, ← List.drop_drop, cStage_drop, ← List.drop_drop,
      List.drop_left' (hmac_length _ _)]
  have h0 := h 0 8
  have h8 := h 8 4
  have h12 := h 12 4
  rw [leAt, nonZero?, zeroAt, leAt, h0, h8, h12]
  decide

theorem wit_keymsg_5 : Obligations.KeyMessagesTakeEffect → ∃ t, exec (.devsetEnrol 7) (wMember cLeave) = .next t :=
  fun h => ((h.2.2.2.1 (wMember cLeave) 7 cLeave tenant0 (started _ _ rfl rfl) (by decide) (keyMessage_length _ _ _ rfl) rfl (by decide) (by decide) (by decide) (by decide) (by decide) rfl rfl ((keyMessage_mac _ _ _ 144 rfl).trans (member_mac cLeave _).symm) (by decide) (by decide)).2 rfl rfl (by decide)).elim fun _ k => ⟨_, k.1⟩

theorem wit_keymsg_6 : Obligations.KeyMessagesTakeEffect → ∃ t, exec (.keyStage 7) (wMember cStage) = .next t :=
  fun h => (h.2.2.2.2.1 (wMember cStage) 7 cStage tenant0 devset1 _ (started _ _ rfl rfl) (by decide) (by rw [cStage, keyMessage_length _ _ _ rfl, cStage_head]; rfl) rfl (by decide) (by rw [cStage_words.1]) cStage_words.2.1 (by rw [cStage_words.2.2] <;> decide) rfl rfl rfl ((keyMessage_mac _ _ _ 112 cStage_head).trans (member_mac cStage _).symm) (by decide) rfl rfl (sealedField_opens _ _ _ _ stageHead (hmac updK (stageHead ++ sealedField "KSTG" stageHead) ++ fields 16 [(8, 4, 32)]) (List.append_assoc _ _ _) _ (member_delivery cStage) rfl rfl) (by rw [cStage_words.1, cStage_words.2.2] <;> decide)).elim fun _ k => ⟨_, k.1⟩

theorem wit_keymsg_7 : Obligations.KeyMessagesTakeEffect → ∃ t, exec (.keyCommit 7) (wMember cKeyCommit) = .next t :=
  fun h => (h.2.2.2.2.2 (wMember cKeyCommit) 7 cKeyCommit tenant0 devset1 5 (started _ _ rfl rfl) (by decide) (by rw [cKeyCommit_length] <;> decide) (by rw [cKeyCommit_length] <;> decide) (by rw [cKeyCommit_length]) rfl (by decide) (by decide) rfl rfl ((keyMessage_mac _ _ _ 80 rfl).trans (member_mac cKeyCommit _).symm) (by decide) rfl rfl rfl cKeyCommit_matches (by rw [member_staged]; exact cKeyCommit_proofs)).elim fun _ k => ⟨_, k.1⟩

theorem wit_trust_3 : Obligations.AttestationFirmwareAndTheWorkingKey → ∃ t, exec (.fwStage 7) (wImage cImage 1) = .next t :=
  fun h => ⟨_, ((h.2.1 (wImage cImage 1) 7 24 cImage [{ addr := 0, len := 29921 }] (started _ _ rfl rfl) (by decide) rfl image_fits image_shape (by decide)).1 (by decide)).1⟩

theorem wit_trust_4 : Obligations.AttestationFirmwareAndTheWorkingKey → ∃ t, exec (.fwStage 7) (wImage cImage 2) = .next t :=
  fun h => ((h.2.1 (wImage cImage 2) 7 24 cImage [{ addr := 0, len := 29921 }] (started _ _ rfl rfl) (by decide) rfl image_fits image_shape (by decide)).2 (by decide)).elim fun _ k => ⟨_, k.1⟩

theorem wit_trust_5 : Obligations.AttestationFirmwareAndTheWorkingKey → ∃ t, exec (.fwActivate 7) (wImage cActivate 1) = .next t :=
  fun h => (h.2.2.1 (wImage cActivate 1) 7 cActivate (started _ _ rfl rfl) (by decide) (by decide) (by decide) (by decide) (by decide)).elim fun _ k => k.elim fun _ k => ⟨_, k.1⟩

theorem wit_trust_6 : Obligations.AttestationFirmwareAndTheWorkingKey → ∃ t, exec (.workingKeyRemask) (wRemask) = .next t :=
  fun h => (h.2.2.2 wRemask (by decide) (by decide) (by decide)).elim fun _ k => ⟨_, k.1⟩

theorem jobHead_length : jobHead.length = 48 := by decide

theorem cJob_length : cJob.body.length = 96 := by
  have h : cJob.block.length = 144 := by simp [cJob, withTrailer, cmd, sealed0, jobHead_length]
  rw [Cmd.body, show cJob.auth = true from rfl, if_pos rfl, List.length_take, h]
  rfl

theorem wit_job_1 : Obligations.JobsOpenCloseAndHandOver → ∃ t, exec (.jobOpen 7) (wt cJob) = .next t :=
  fun h => ⟨_, (h.1.1 (wt cJob) 7 cJob _ (started _ _ rfl rfl) (by decide) cJob_length (by decide) (.inl (by decide)) (by decide) (by decide) (by decide) (by decide) (by decide) (by decide) rfl (by rw [dlv_wt cJob rfl rfl]; exact cJob_opens)).1 rfl rfl⟩

theorem wit_job_2 : Obligations.JobsOpenCloseAndHandOver → ∃ t, exec (.jobOpen 7) (wJobPair) = .next t :=
  fun h => ((h.1.1 wJobPair 7 cJob _ (started _ _ rfl rfl) (by decide) cJob_length (by decide) (.inl (by decide)) (by decide) (by decide) (by decide) (by decide) (by decide) (by decide) rfl (by rw [dlv_wt (s := wJobPair) cJob rfl rfl]; exact cJob_opens)).2 _ rfl rfl).elim fun _ k => ⟨_, k.1⟩

theorem wit_job_3 : Obligations.JobsOpenCloseAndHandOver → ∃ t, exec (.jobClose 7) (wClosing cJobClose) = .next t :=
  fun h => ⟨_, (h.1.2.1 (wClosing cJobClose) 7 cJobClose job2 (started _ _ rfl rfl) (by decide) rfl (by decide)).1⟩

theorem wit_job_4 : Obligations.JobsOpenCloseAndHandOver → ∃ t, exec (.jobClose 7) (withCmd (wg job2 (group3 .zero .zero)) cJobClose) = .next t :=
  fun h => ⟨_, (h.1.2.1 (withCmd (wg job2 (group3 .zero .zero)) cJobClose) 7 cJobClose job2 (started _ _ rfl rfl) (by decide) rfl (by decide)).1⟩

theorem wit_job_5 : Obligations.JobsOpenCloseAndHandOver → ∃ t, exec (.regionFreed 0) (wRevoking) = .next t :=
  fun h => (h.1.2.2 wRevoking 0 _ rfl rfl (by decide)).elim fun _ k => ⟨_, k.1⟩

theorem wit_handover_1 : Obligations.JobsOpenCloseAndHandOver → ∃ t, exec (.tenantHandover 7) (wt cHandover) = .next t :=
  fun h => (h.2.1 (wt cHandover) 7 cHandover (started _ _ rfl rfl) (by decide) (by decide) (by decide)).elim fun _ k => k.elim fun _ k => ⟨_, k.1⟩

theorem wit_handover_2 : Obligations.JobsOpenCloseAndHandOver → ∃ t, exec (.handoverSettleEnd false [] []) (wSettling 1004000000) = .next t :=
  fun h => ⟨_, (h.2.2 (wSettling 1004000000) [] [] _ rfl).1 false (Or.inr (by decide))⟩

theorem wit_handover_3 : Obligations.JobsOpenCloseAndHandOver → ∃ t, exec (.handoverSettleEnd false [] []) (wSettling 10005000000) = .next t :=
  fun h => ((h.2.2 (wSettling 10005000000) [] [] _ rfl).2 (by decide)).elim fun _ k => ⟨_, k.1⟩

theorem wit_handover_4 : Obligations.JobsOpenCloseAndHandOver → ∃ t, exec (.handoverSettleEnd true [] []) (wSettled 1005000000) = .next t :=
  fun h => ((h.2.2 (wSettled 1005000000) [] [] _ rfl).2 (by decide)).elim fun _ k => ⟨_, k.1⟩

theorem wit_handover_5 : Obligations.JobsOpenCloseAndHandOver →
    ∃ t, exec (.handoverSettleEnd true [] []) (wSettling 10005000000) = .next t :=
  fun h => ⟨_, (h.2.2 (wSettling 10005000000) [] [] _ rfl).1 true (Or.inl (by decide))⟩

theorem wit_rng_1 : Obligations.TheGeneratorIsTestedAndServes → ∃ t, exec (.rngStartupTestDone (samples true) true) (wRng .unseeded true) = .next t :=
  fun h => ((h.1.1 (wRng .unseeded true) (samples true) true rfl rfl (by decide)).1 samples_good rfl).elim fun _ k => ⟨_, k.1⟩

theorem wit_rng_2 : Obligations.TheGeneratorIsTestedAndServes → ∃ t, exec (.rngStartupTestDone (samples false) true) (wRng .unseeded true) = .next t :=
  fun h => ((h.1.1 (wRng .unseeded true) (samples false) true rfl rfl (by decide)).2 (.inl samples_bad)).elim fun _ k => ⟨_, k.1⟩

theorem wit_rng_3 : Obligations.TheGeneratorIsTestedAndServes → ∃ t, exec (.rngStartupTestDone (samples true) false) (wRng .unseeded true) = .next t :=
  fun h => ((h.1.1 (wRng .unseeded true) (samples true) false rfl rfl (by decide)).2 (.inr rfl)).elim fun _ k => ⟨_, k.1⟩

theorem wit_rng_4 : Obligations.TheGeneratorIsTestedAndServes → ∃ t, exec (.healthTestFail 7 true) (wRandom [asked]) = .next t :=
  fun h => (h.1.2.1 (wRandom [asked]) 7 true rfl).elim fun _ k => ⟨_, k.1⟩

theorem wit_rng_5 : Obligations.TheGeneratorIsTestedAndServes → ∃ t, exec (.rngRetestTimer) ({ wRng .failed false with rng := { w.rng with mode := .failed, retriesLeft := 1 } }) = .next t :=
  fun h => ⟨_, (h.1.2.2.1 { wRng .failed false with rng := { w.rng with mode := .failed, retriesLeft := 1 } } rfl).1 (by decide)⟩

theorem wit_rng_6 : Obligations.TheGeneratorIsTestedAndServes → ∃ t, exec (.rngRetest) (wRng .failed false) = .next t :=
  fun h => ⟨_, (h.1.2.2.1 (wRng .failed false) rfl).2 ⟨rfl, rfl⟩⟩

theorem wit_rng_7 : Obligations.TheGeneratorIsTestedAndServes → ∃ t, exec (.rngRetestDone (samples true) true) (wRng .retesting false) = .next t :=
  fun h => ((h.1.2.2.2 (wRng .retesting false) (samples true) true rfl).1 samples_good rfl).elim fun _ k => ⟨_, k.1⟩

theorem wit_rng_8 : Obligations.TheGeneratorIsTestedAndServes → ∃ t, exec (.rngRetestDone (samples true) false) (wRng .retesting false) = .next t :=
  fun h => ((h.1.2.2.2 (wRng .retesting false) (samples true) false rfl).2 (.inr rfl)).elim fun _ k => ⟨_, k.1⟩

theorem wit_rng_9 : Obligations.TheGeneratorIsTestedAndServes → ∃ t, exec (.rngReseed [] []) (wRng .ready false) = .next t :=
  fun h => ⟨_, (h.2.1 (wRng .ready false) [] [] rfl).1 ⟨rfl, rfl⟩⟩

theorem wit_rng_10 : Obligations.TheGeneratorIsTestedAndServes → ∃ t, exec (.drbgReseedDue [] []) ({ wRng .ready false with rng := { w.rng with mode := .ready, served := 1048576 } }) = .next t :=
  fun h => ⟨_, (h.2.1 { wRng .ready false with rng := { w.rng with mode := .ready, served := 1048576 } } [] [] rfl).2.1 (by decide)⟩

theorem wit_rng_11 : Obligations.TheGeneratorIsTestedAndServes → ∃ t, exec (.drbgGenerate) (wRandom [{ asked with level := 5 }, asked]) = .next t :=
  fun h => ((h.2.2.1 (wRandom [{ asked with level := 5 }, asked]) asked rfl (by decide) (by decide)).2.2.2).elim fun _ k => ⟨_, k.1⟩

theorem wit_rng_12 : Obligations.TheGeneratorIsTestedAndServes → ∃ t, exec (.getRandom 7) (wRandom []) = .next t :=
  fun h => ⟨_, (h.2.2.2 (wRandom []) 7 cRandom (started _ _ rfl rfl) (by decide) (by decide) (by decide) (by decide) (by decide) (by decide)).1 (by decide) (by decide)⟩

theorem wit_rng_13 : Obligations.TheGeneratorIsTestedAndServes → ∃ t, exec (.getRandom 7) (wRandom [got]) = .next t :=
  fun h => ⟨_, (h.2.2.2 (wRandom [got]) 7 cRandom (started _ _ rfl rfl) (by decide) (by decide) (by decide) (by decide) (by decide) (by decide)).2 got (zeros 16) (by decide) rfl (by decide) (by decide) (by decide) (by decide)⟩

theorem wit_time_1 : Obligations.PoweredTimeAdvances → ∃ t, exec (.ptimeMirrorUpdate) (w) = .next t :=
  fun h => ((h w).1 (by decide)).elim fun _ k => ⟨_, k.1⟩

theorem wit_time_2 : Obligations.PoweredTimeAdvances → ∃ t, exec (.ptimeMirrorUpdate) (State.reset) = .next t :=
  fun h => ⟨_, (h State.reset).2.1 (by decide)⟩

theorem wit_time_3 : Obligations.PoweredTimeAdvances → ∃ t, exec (.oscTrim) ({ w with time := { w.time with refPresent := true } }) = .next t :=
  fun h => ⟨_, (h { w with time := { w.time with refPresent := true } }).2.2.1 (by decide) (by decide)⟩

theorem wit_time_4 : Obligations.PoweredTimeAdvances → ∃ t, exec (.oscTrim) ({ w with time := { w.time with refPresent := false } }) = .next t :=
  fun h => ⟨_, (h { w with time := { w.time with refPresent := false } }).2.2.2.1 (by decide)⟩

theorem wit_time_5 : Obligations.PoweredTimeAdvances → ∃ t, exec (.referenceLost) (w) = .next t :=
  fun h => ⟨_, (h w).2.2.2.2.1⟩

theorem wit_time_6 : Obligations.PoweredTimeAdvances → ∃ t, exec (.referencePresent) (w) = .next t :=
  fun h => ⟨_, (h w).2.2.2.2.2⟩

theorem wit_window_1 : Obligations.TheBudgetWindowReadsAndSteps → ∃ t, exec (.budgetWindow (reading 419 399)) (wOn) = .next t :=
  fun h => ((h wOn (reading 419 399) (by decide) (by decide) (by decide)).1 (by decide) (by decide)).elim fun _ k => ⟨_, k.1⟩

theorem wit_window_2 : Obligations.TheBudgetWindowReadsAndSteps → ∃ t, exec (.budgetWindow (reading 420 399)) (wOn) = .next t :=
  fun h => ((h wOn (reading 420 399) (by decide) (by decide) (by decide)).2 (.inl ⟨0, (by decide), (by decide)⟩)).elim fun _ k => ⟨_, k.1⟩

theorem wit_window_3 : Obligations.TheBudgetWindowReadsAndSteps → ∃ t, exec (.budgetWindow (reading 0 400)) (wOn) = .next t :=
  fun h => ((h wOn (reading 0 400) (by decide) (by decide) (by decide)).2 (.inr ⟨7, (by decide), (by decide)⟩)).elim fun _ k => ⟨_, k.1⟩

theorem wit_budget_1 : Obligations.BudgetsFollowCapsAndInputs → ∃ t, exec (.kCalibration) (wOn) = .next t :=
  fun h => (h.1.1 wOn (by decide)).elim fun _ k => ⟨_, k.1⟩

theorem wit_budget_2 : Obligations.BudgetsFollowCapsAndInputs → ∃ t, exec (.baseVoltageRecompute) (wOn) = .next t :=
  fun h => ⟨_, (h.1.2.1 wOn (by decide)).1⟩

theorem wit_budget_3 : Obligations.BudgetsFollowCapsAndInputs → ∃ t, exec (.setBudget 7) (wBudget (cBudget 250 900)) = .next t :=
  fun h => (h.1.2.2 (wBudget (cBudget 250 900)) 7 (cBudget 250 900) (started _ _ rfl rfl) (.inr (by decide)) (.inr (by decide)) (by decide)).elim fun _ k => ⟨_, k.1⟩

theorem wit_budget_4 : Obligations.BudgetsFollowCapsAndInputs → ∃ t, exec (.setBudget 7) (wBudget (cBudget 0 0)) = .next t :=
  fun h => (h.1.2.2 (wBudget (cBudget 0 0)) 7 (cBudget 0 0) (started _ _ rfl rfl) (.inl (by decide)) (.inl (by decide)) (by decide)).elim fun _ k => ⟨_, k.1⟩

theorem wit_input_1 : Obligations.BudgetsFollowCapsAndInputs → ∃ t, exec (.inputExcursion 0) (wOn) = .next t :=
  fun h => (h.2.1 wOn 0 (by decide) (by decide)).elim fun _ k => ⟨_, k.1⟩

theorem wit_input_2 : Obligations.BudgetsFollowCapsAndInputs → ∃ t, exec (.inputBackInRange 0) (wLimit) = .next t :=
  fun h => (h.2.2.1 wLimit 0 (by decide)).elim fun _ k => ⟨_, k.1⟩

theorem wit_input_3 : Obligations.BudgetsFollowCapsAndInputs → ∃ t, exec (.hotInNAssert) (wOn) = .next t :=
  fun h => (h.2.2.2.1 wOn (by decide)).elim fun _ k => ⟨_, k.1⟩

theorem wit_input_4 : Obligations.BudgetsFollowCapsAndInputs → ∃ t, exec (.hotInNRelease) (wHot) = .next t :=
  fun h => (h.2.2.2.2.1 wHot (by decide)).elim fun _ k => ⟨_, k.1⟩

theorem wit_input_5 : Obligations.BudgetsFollowCapsAndInputs → ∃ t, exec (.inputOutOfRange) (wOn) = .next t :=
  fun h => ⟨_, (h.2.2.2.2.2.1 wOn).1 (by decide)⟩

theorem wit_input_6 : Obligations.BudgetsFollowCapsAndInputs → ∃ t, exec (.inputRemoved) (wOn) = .next t :=
  fun h => ⟨_, (h.2.2.2.2.2.1 wOn).2.1⟩

theorem wit_input_7 : Obligations.BudgetsFollowCapsAndInputs → ∃ t, exec (.thermTripNExternal) (wOn) = .next t :=
  fun h => (h.2.2.2.2.2.2 wOn (by decide)).elim fun _ k => ⟨_, k.1⟩

theorem wit_stack_1 : Obligations.StacksMoveAndScrub → ∃ t, exec (.spareCopyDone 7) (wMove (.copy 31 33 0)) = .next t :=
  fun h => ((h.1 (wMove (.copy 31 33 0)) 7 31 (by decide)).1 33 0 (by decide)).elim fun _ k => ⟨_, k.1⟩

theorem wit_stack_2 : Obligations.StacksMoveAndScrub → ∃ t, exec (.reshapeDone 7) (wMove (.reshape 31 0)) = .next t :=
  fun h => ((h.1 (wMove (.reshape 31 0)) 7 31 (by decide)).2 0 (by decide)).elim fun _ k => ⟨_, k.1⟩

theorem wit_scrub_1 : Obligations.StacksMoveAndScrub → ∃ t, exec (.scrubPass { lines := [], rows := [], late := [7] }) (wc) = .next t :=
  fun h => (h.2.1 wc [7]).elim fun _ k => ⟨_, k.1⟩

theorem wit_scrub_2 : Obligations.StacksMoveAndScrub → ∃ t, exec (.scrubPass { lines := [lineErr [(0, 1), (1, 1), (2, 1), (3, 1), (4, 1)]], rows := [], late := [] }) (wc) = .next t :=
  fun h => ((h.2.2.1 wc (lineErr [(0, 1), (1, 1), (2, 1), (3, 1), (4, 1)]) [] (by decide) (by decide) (by decide) (by decide)).1 (by decide +kernel)).elim fun _ k => ⟨_, k.1⟩

theorem wit_scrub_3 : Obligations.StacksMoveAndScrub → ∃ t, exec (.scrubPass { lines := [lineErr [(71, 255)]], rows := [], late := [] }) (wc) = .next t :=
  fun h => ((h.2.2.1 wc (lineErr [(71, 255)]) [(71, 255)] (by decide) (by decide) (by decide) (by decide)).2 (by decide +kernel) (by decide +kernel) (by decide) (by decide) (by decide)).elim fun _ k => ⟨_, k.1⟩

theorem wit_scrub_4 : Obligations.StacksMoveAndScrub → ∃ t, exec (.scrubPass { lines := [], rows := [rowErr], late := [] }) (wc) = .next t :=
  fun h => (h.2.2.2.1 wc rowErr [(0, 1)] (by decide) (by decide) (by decide) (by decide +kernel) (by decide) (by decide)).elim fun _ k => ⟨_, k.1⟩

theorem wit_scrub_5 : Obligations.StacksMoveAndScrub → ∃ t, exec (.memoryRefresh) (wc) = .next t :=
  fun h => (h.2.2.2.2.1 wc).elim fun _ k => ⟨_, k.1⟩

theorem wit_scrub_6 : Obligations.StacksMoveAndScrub → ∃ t, exec (.scrubConfigure 7) (withCmd wc (cScrub 0 168)) = .next t :=
  fun h => ⟨_, (h.2.2.2.2.2 (withCmd wc (cScrub 0 168)) 7 (cScrub 0 168) (started _ _ rfl rfl) (by decide) (by decide)).1 (by decide) (by decide) (by decide)⟩

theorem wit_scrub_7 : Obligations.StacksMoveAndScrub → ∃ t, exec (.scrubConfigure 7) (withCmd wc (cScrub 1 1000)) = .next t :=
  fun h => ⟨_, (h.2.2.2.2.2 (withCmd wc (cScrub 1 1000)) 7 (cScrub 1 1000) (started _ _ rfl rfl) (by decide) (by decide)).2 (by decide) (by decide) (by decide)⟩

theorem wit_staging_1 : Obligations.TheStagingWindowReachesMemory → ∃ t, exec (.stagingMap 7) (withCmd wc cStaging) = .next t :=
  fun h => ⟨_, h.1 (withCmd wc cStaging) 7 cStaging (started _ _ rfl rfl) (by decide) (by decide) (by decide) (by decide) (by decide) (by decide)⟩

theorem wit_staging_2 : Obligations.TheStagingWindowReachesMemory → ∃ t, exec (.stagingAccess 0 (.store [1, 2] true)) (wStaging none false) = .next t :=
  fun h => ⟨_, (h.2 (wStaging none false) 0 8 [1, 2] (by decide)).1⟩

theorem wit_staging_3 : Obligations.TheStagingWindowReachesMemory → ∃ t, exec (.stagingAccess 0 (.load 8)) (wStaging none false) = .next t :=
  fun h => ⟨_, ((h.2 (wStaging none false) 0 8 [1, 2] (by decide)).2.1 (by decide)).1⟩

theorem wit_staging_4 : Obligations.TheStagingWindowReachesMemory → ∃ t, exec (.stagingAccess 0 (.store [1, 2] false)) (wStaging none false) = .next t :=
  fun h => ⟨_, ((h.2 (wStaging none false) 0 8 [1, 2] (by decide)).2.1 (by decide)).2⟩

theorem wit_staging_5 : Obligations.TheStagingWindowReachesMemory → ∃ t, exec (.stagingAccess 0 (.load 8)) (wStaging (some 0) true) = .next t :=
  fun h => ⟨_, ((h.2 (wStaging (some 0) true) 0 8 [1, 2] (by decide)).2.2 0 (by decide)).1 (by decide) (by decide)⟩

theorem wit_staging_6 : Obligations.TheStagingWindowReachesMemory → ∃ t, exec (.stagingAccess 0 (.load 8)) (wStaging (some 0) false) = .next t :=
  fun h => ⟨_, ((h.2 (wStaging (some 0) false) 0 8 [1, 2] (by decide)).2.2 0 (by decide)).2.1 (by decide) (by decide)⟩

theorem wit_staging_7 : Obligations.TheStagingWindowReachesMemory → ∃ t, exec (.stagingAccess 0 (.load 8)) (wStaging (some farEntry) false) = .next t :=
  fun h => (((h.2 (wStaging (some farEntry) false) 0 8 [1, 2] (by decide)).2.2 farEntry (by decide)).2.2.1 (by decide)).elim fun _ k => ⟨_, k.2⟩

theorem wit_staging_8 : Obligations.TheStagingWindowReachesMemory → ∃ t, exec (.stagingAccess 0 (.store [1, 2] false)) (wStaging (some farEntry) false) = .next t :=
  fun h => ⟨_, ((h.2 (wStaging (some farEntry) false) 0 8 [1, 2] (by decide)).2.2 farEntry (by decide)).2.2.2.1 (by decide)⟩

theorem wit_staging_9 : Obligations.TheStagingWindowReachesMemory → ∃ t, exec (.stagingAccess 0 (.store [1, 2] false)) (wStaging (some 0) false) = .next t :=
  fun h => (((h.2 (wStaging (some 0) false) 0 8 [1, 2] (by decide)).2.2 0 (by decide)).2.2.2.2 (by decide)).elim fun _ k => ⟨_, k.1⟩

theorem wit_config_1 : Obligations.ConfigurationVectorsAndBadAccesses → ∃ t, exec (.configRequest (.load 0)) (State.reset) = .next t :=
  fun h => ⟨_, h.1.1 State.reset (.load 0) (by decide)⟩

theorem wit_config_2 : Obligations.ConfigurationVectorsAndBadAccesses → ∃ t, exec (.configRequest (.load 0xFFF)) (w) = .next t :=
  fun h => ⟨_, (h.1.2.1 w 0xFFF 0 (by decide)).1⟩

theorem wit_config_3 : Obligations.ConfigurationVectorsAndBadAccesses → ∃ t, exec (.configRequest (.store 0x10 0xFFFFFFFF 0xFFFFFFFF)) (w) = .next t :=
  fun h => ((h.1.2.1 w 0 0xFFFFFFFF (by decide)).2.2.1).elim fun _ k => ⟨_, k.1⟩

theorem wit_config_4 : Obligations.ConfigurationVectorsAndBadAccesses → ∃ t, exec (.configRequest (.store 0x04 0xFFFFFFFF 6)) (w) = .next t :=
  fun h => ((h.1.2.1 w 0 6 (by decide)).2.2.2.1).elim fun _ k => ⟨_, k.1⟩

theorem wit_config_5 : Obligations.ConfigurationVectorsAndBadAccesses → ∃ t, exec (.configRequest (.store 0xA0 0xFFFFFFFF 0x80000000)) (w) = .next t :=
  fun h => ((h.1.2.1 w 0 0x80000000 (by decide)).2.2.2.2).elim fun _ k => ⟨_, k.1⟩

theorem wit_config_6 : Obligations.ConfigurationVectorsAndBadAccesses → ∃ t, exec (.powerStateChange true false true) (w) = .next t :=
  fun h => (h.1.2.2.1 w true false true (by decide)).elim fun _ k => ⟨_, k.1⟩

theorem wit_config_7 : Obligations.ConfigurationVectorsAndBadAccesses → ∃ t, exec (.pcieLinkRetrain 5 16) (w) = .next t :=
  fun h => ⟨_, h.1.2.2.2 w 5 16 (by decide) (by decide) (by decide) (.inr (by decide))⟩

theorem wit_vector_1 : Obligations.ConfigurationVectorsAndBadAccesses → ∃ t, exec (.msixVectorUnmask 255) (vectored2) = .next t :=
  fun h => (h.2.1 vectored2 255 (by decide) (by decide)).elim fun _ k => ⟨_, k.1⟩

theorem wit_vector_2 : Obligations.ConfigurationVectorsAndBadAccesses → ∃ t, exec (.msixVectorUnmask 0) (w) = .next t :=
  fun h => ⟨_, h.2.2.1 w 0 (by decide)⟩

theorem wit_vector_3 : Obligations.ConfigurationVectorsAndBadAccesses → ∃ t, exec (.barBadAccess true 0x3FFFFFF true) (w) = .next t :=
  fun h => ⟨_, (h.2.2.2 w true 0x3FFFFFF (by decide)).1⟩

theorem wit_vector_4 : Obligations.ConfigurationVectorsAndBadAccesses → ∃ t, exec (.barBadAccess false 1 false) (w) = .next t :=
  fun h => ⟨_, (h.2.2.2 w false 1 (by decide)).2⟩

theorem wit_register_1 : Obligations.RegistersAreWrittenAndDebugReadsDeny → exec (.registerWrite true 0 true false 1) w = exec (.barBadAccess true 0 true) w :=
  fun h => h.1.1 w true true false 0 1 (by decide) (by decide)

theorem wit_register_7 : Obligations.RegistersAreWrittenAndDebugReadsDeny → exec (.registerWrite true (63 * 65536) false false 1) w = exec (.sqDoorbell 63 1) w :=
  fun h => (h.1.2.2.1 w 63 1 (by decide)).1

theorem wit_register_8 : Obligations.RegistersAreWrittenAndDebugReadsDeny → ∃ t, exec (.registerWrite true (5 * 65536) false false ((15 : Word32).setWidth 64)) (ringed w 5 ringOn) = .next t :=
  fun h => ⟨_, (h.1.2.2.1 (ringed w 5 ringOn) 5 15 (by decide)).2.2 (by decide) (by decide) (by decide)⟩

theorem wit_register_2 : Obligations.RegistersAreWrittenAndDebugReadsDeny → ∃ t, exec (.registerWrite false 0 true true 0) (w) = .next t :=
  fun h => ⟨_, h.1.2.1 w false true 0 0 (by decide) (by decide)⟩

theorem wit_register_3 : Obligations.RegistersAreWrittenAndDebugReadsDeny → ∃ t, exec (.registerWrite true (63 * 65536 + 0x1008) true false 0xFFFF) (w) = .next t :=
  fun h => ((h.1.2.2.2.1 w 63 0xFFFF (by decide) (by decide) (by decide)).1 (by decide)).elim fun _ k => ⟨_, k.1⟩

theorem wit_register_4 : Obligations.RegistersAreWrittenAndDebugReadsDeny → ∃ t, exec (.registerWrite true (0 * 65536 + 0x1008) true false 0xFFFF) (ringed w 0 ringOn) = .next t :=
  fun h => ⟨_, (h.1.2.2.2.1 (ringed w 0 ringOn) 0 0xFFFF (by decide) (by decide) (by decide)).2.1 (by decide)⟩

theorem wit_register_5 : Obligations.RegistersAreWrittenAndDebugReadsDeny → ∃ t, exec (.registerWrite true (63 * 65536 + 0x1020) true false 63) (w) = .next t :=
  fun h => ((h.1.2.2.2.1 w 63 63 (by decide) (by decide) (by decide)).2.2).elim fun _ k => ⟨_, k.1⟩

theorem wit_register_6 : Obligations.RegistersAreWrittenAndDebugReadsDeny → ∃ t, exec (.registerWrite false (0x30 * 4096 + 511 * 8) true false 1) (w) = .next t :=
  fun h => ⟨_, h.1.2.2.2.2 w 0x30 511 1 (by decide) (by decide) (by decide)⟩

theorem wit_debug_1 : Obligations.RegistersAreWrittenAndDebugReadsDeny → ∃ t, exec (.debugRead 7) (withCmd wc (cDebug 0 64 0)) = .next t :=
  fun h => ⟨_, ((h.2 (withCmd wc (cDebug 0 64 0)) 7 (cDebug 0 64 0) (started _ _ rfl rfl) (by decide) (by decide) (by decide) (by decide) (by decide) (by decide)).1 (by decide) (by decide) (by decide) (by decide) (by decide) (by decide)).1⟩

theorem wit_debug_2 : Obligations.RegistersAreWrittenAndDebugReadsDeny → ∃ t, exec (.debugRead 7) (withCmd wc (cDebug 1 8 0x3FFFFF8)) = .next t :=
  fun h => ⟨_, (h.2 (withCmd wc (cDebug 1 8 0x3FFFFF8)) 7 (cDebug 1 8 0x3FFFFF8) (started _ _ rfl rfl) (by decide) (by decide) (by decide) (by decide) (by decide) (by decide)).2 (by decide) (by decide) (by decide) (by decide) (by decide) (by decide)⟩

theorem wit_fault_1 : Obligations.FaultsAreRecovered → ∃ t, exec (.faultDetected 9 (wholeUnit 0 35)) (wf []) = .next t :=
  fun h => (h.1.1 (wf []) 9 (wholeUnit 0 35) (by decide) (by decide) (by decide) (by decide) (by decide) (by decide)).elim fun _ k => ⟨_, k.1⟩

theorem wit_fault_2 : Obligations.FaultsAreRecovered → ∃ t, exec (.faultDetected 0 (wholeUnit 5 0)) (wf []) = .next t :=
  fun h => (h.1.1 (wf []) 0 (wholeUnit 5 0) (by decide) (by decide) (by decide) (by decide) (by decide) (by decide)).elim fun _ k => ⟨_, k.1⟩

theorem wit_fault_3 : Obligations.FaultsAreRecovered → ∃ q ∈ (detect 10 (wholeUnit 0 3) (wf [recovery 0 3 1])).faults.recoveries, q.unit = 3 :=
  fun h => h.1.2.1 (wf [recovery 0 3 1]) 10 (wholeUnit 0 3) (recovery 0 3 1) (by decide) (by decide) (by decide) (by decide) (fun e => by cases e) (by decide) |>.elim (fun t k => k.1 ▸ (k.2.2.2.2.2.1 3 rfl rfl).elim fun q z => ⟨q, z.1, z.2.2.1⟩)

theorem wit_fault_4 : Obligations.FaultsAreRecovered → exec (.handshakeWatchdog (wholeUnit 7 1)) w = exec (.faultDetected 0 (wholeUnit 7 1)) w :=
  fun h => h.1.2.2.1 w (wholeUnit 7 1) (by decide) (by decide) (by decide)

theorem wit_fault_5 : Obligations.FaultsAreRecovered → ∃ t, exec (.faultDetected 11 (wholeUnit 0 0)) (wf []) = .next t :=
  fun h => ⟨_, h.1.2.2.2.2.1 (wf []) 11 (wholeUnit 0 0) (by decide) (by decide)⟩

theorem wit_fault_6 : Obligations.FaultsAreRecovered → ∃ t, exec (.handlerTimeout (some (wholeUnit 0 3))) (wf [recovery 0 3 1]) = .next t :=
  fun h => ⟨_, h.1.2.2.2.2.2.1 (wf [recovery 0 3 1]) (wholeUnit 0 3) ⟨_, List.mem_singleton.mpr rfl, (by decide), rfl, rfl⟩⟩

theorem wit_fault_7 : Obligations.FaultsAreRecovered → ∃ t, exec (.handlerTimeout none) (wWarm cActivate (warm0 true none) []) = .next t :=
  fun h => ⟨_, h.1.2.2.2.2.2.2 (wWarm cActivate (warm0 true none) []) (warm0 true none) (by decide) (by decide)⟩

theorem wit_recovered_1 : Obligations.FaultsAreRecovered → ∃ t, exec (.recoveryDone (wholeUnit 0 3) 2 3) (wf [recovery 0 3 1]) = .next t :=
  fun h => (h.2.1 (wf [recovery 0 3 1]) (wholeUnit 0 3) (recovery 0 3 1) 2 3 (by decide)).elim fun _ k => ⟨_, k.1⟩

theorem wit_recovered_2 : Obligations.FaultsAreRecovered → ∃ t, exec (.recoveryDone (wholeUnit 15 3) 0 0) (wf [field3]) = .next t :=
  fun h => (h.2.1 (wf [field3]) (wholeUnit 15 3) field3 0 0 (by decide)).elim fun _ k => ⟨_, k.1⟩

theorem wit_recovered_3 : Obligations.FaultsAreRecovered → ∃ t, exec (.faultInject 0x100) (wf []) = .next t :=
  fun h => ⟨_, h.2.2.1 (wf []) 0x100 (by decide)⟩

theorem wit_recovered_4 : Obligations.FaultsAreRecovered → ∃ t, exec (.faultDetected 11 (wholeUnit 0 0)) (wf []) = .next t :=
  fun h => ⟨_, h.2.2.2 (wf []) (wholeUnit 0 0) (by decide)⟩

theorem wit_cp_1 : Obligations.ProcessorsAndTheDeviceRestart → ∃ t, exec (.cpHeartbeatMiss 3) (wf []) = .next t :=
  fun h => ⟨_, (h.1.1 (wf []) 3 (by decide) (by decide) (by decide) (by decide) (by decide)).1⟩

theorem wit_cp_2 : Obligations.ProcessorsAndTheDeviceRestart → ∃ t, exec (.cpWatchdog 0) (wf []) = .next t :=
  fun h => ⟨_, (h.1.1 (wf []) 0 (by decide) (by decide) (by decide) (by decide) (by decide)).2.1⟩

theorem wit_cp_3 : Obligations.ProcessorsAndTheDeviceRestart → (detect 9 (wholeUnit 13 0) (wf [])).faults.warm = none :=
  fun h => (h.1.1 (wf []) 0 (by decide) (by decide) (by decide) (by decide) (by decide)).2.2 9 (by decide) |>.elim (fun _ k => k.1 ▸ (k.2.2.2.2.2.1 rfl).2.2.2.2)

theorem wit_cp_4 : Obligations.ProcessorsAndTheDeviceRestart → ∃ t, exec (.cpRestartDone 2 true) (wCp true) = .next t :=
  fun h => ((h.1.2 (wCp true) 2 (recovery 13 2 5) (by decide) (by decide) (by decide) (by decide)).1 (by decide)).elim fun _ k => ⟨_, k.1⟩

theorem wit_cp_5 : Obligations.ProcessorsAndTheDeviceRestart → ∃ t, exec (.cpRestartDone 2 true) (wCp false) = .next t :=
  fun h => ((h.1.2 (wCp false) 2 (recovery 13 2 5) (by decide) (by decide) (by decide) (by decide)).1 (by decide)).elim fun _ k => ⟨_, k.1⟩

theorem wit_cp_6 : Obligations.ProcessorsAndTheDeviceRestart → ∃ t, exec (.cpRestartDone 2 false) (wCp true) = .next t :=
  fun h => ((h.1.2 (wCp true) 2 (recovery 13 2 5) (by decide) (by decide) (by decide) (by decide)).2).elim fun _ k => ⟨_, k.1⟩

theorem wit_warm_1 : Obligations.ProcessorsAndTheDeviceRestart → ∃ t, exec (.deviceWarmRestart) (wWarm cActivate (warm0 false none) []) = .next t :=
  fun h => (h.2.1 (wWarm cActivate (warm0 false none) []) (warm0 false none) (by decide) (by decide)).elim fun _ k => ⟨_, k.1⟩

theorem wit_warm_2 : Obligations.ProcessorsAndTheDeviceRestart → ∃ t, exec (.deviceWarmRestart) (wWarm cActivate (warm0 false none) [0, 0]) = .next t :=
  fun h => (h.2.1 (wWarm cActivate (warm0 false none) [0, 0]) (warm0 false none) (by decide) (by decide)).elim fun _ k => ⟨_, k.1⟩

theorem wit_warm_3 : Obligations.ProcessorsAndTheDeviceRestart → ∃ t, exec (.deviceWarmRestartEnd [] healthy) (wWarm cActivate (warm0 true none) []) = .next t :=
  fun h => ⟨_, (h.2.2 (wWarm cActivate (warm0 true none) []) (warm0 true none) [] healthy (by decide) (by decide)).1⟩

theorem wit_warm_4 : Obligations.ProcessorsAndTheDeviceRestart → endWarm (warm0 true none) [] healthy (wWarm cActivate (warm0 true none) []) = creditMoved { (wWarm cActivate (warm0 true none) []) with faults := { (wWarm cActivate (warm0 true none) []).faults with warm := none }, out := w.out ++ [.uart none w.ms true] } :=
  fun h => (h.2.2 (wWarm cActivate (warm0 true none) []) (warm0 true none) [] healthy (by decide) (by decide)).2.1 (by decide) (by decide) (by decide)

theorem wit_warm_5 : Obligations.ProcessorsAndTheDeviceRestart → ∃ u, endWarm (warm0 true (some 7)) [] healthy (wWarm cActivated (warm0 true (some 7)) []) = u :=
  fun h => (h.2.2 (wWarm cActivated (warm0 true (some 7)) []) (warm0 true (some 7)) [] healthy (by decide) (by decide)).2.2 7 (by decide) (by decide) (by decide) (fun _ => rfl) |>.elim (fun _ k => k.1 ▸ ⟨_, rfl⟩)

theorem wit_count_1 : Obligations.CountersDailiesAndTrace → ∃ t, exec (.counterIncrement 1 2 3 3) (wCount cJobClose) = .next t :=
  fun h => (h.1.1 (wCount cJobClose) 1 2 3 3).elim fun _ k => ⟨_, k.1⟩

theorem wit_count_2 : Obligations.CountersDailiesAndTrace → ∃ t, exec (.sampleRequest 0 2 3 0 0 0 0) (wCount cJobClose) = .next t :=
  fun h => (h.1.2.1 (wCount cJobClose) 0 2 3 0 0 0 0 (by decide) (by decide)).elim fun _ k => ⟨_, k.1⟩

theorem wit_count_3 : Obligations.CountersDailiesAndTrace → ∃ t, exec (.cntConfigure 7) (wCount cSlots) = .next t :=
  fun h => (h.1.2.2.1 (wCount cSlots) 7 cSlots [{ addr := 0, len := 16 }] (started _ _ rfl rfl) (by decide) (by decide) (by decide) (by decide) (by decide) (by decide) (by decide) (by decide)).elim fun _ k => ⟨_, k.1⟩

theorem wit_count_4 : Obligations.CountersDailiesAndTrace → ∃ t, exec (.cntRead 7) (wCount cCounts) = .next t :=
  fun h => ⟨_, h.1.2.2.2 (wCount cCounts) 7 cCounts _ (started _ _ rfl rfl) (by decide) (by decide) (by decide) (by decide) (by decide) rfl (by decide) (by decide) (by decide)⟩

theorem wit_dailies_1 : Obligations.CountersDailiesAndTrace → ∃ t, exec (.dailiesConfigure 7) (wCount cDailies) = .next t :=
  fun h => (h.2.1 (wCount cDailies) 7 cDailies (started _ _ rfl rfl) (by decide) (by decide) (by decide) (by decide) (by decide) (by decide) (by decide) (by decide)).elim fun _ k => ⟨_, k.1⟩

theorem wit_dailies_2 : Obligations.CountersDailiesAndTrace → ∃ t, exec (.dailiesLatch) (wDailies 0 (some snapshot0)) = .next t :=
  fun h => (h.2.2.1 (wDailies 0 (some snapshot0)) (by decide)).elim fun _ k => k.elim fun _ k => ⟨_, k.1⟩

theorem wit_dailies_3 : Obligations.CountersDailiesAndTrace → ∃ t, exec (.dailiesRecordWrite) (wDailies 0 (some snapshot0)) = .next t :=
  fun h => ((h.2.2.2.1 (wDailies 0 (some snapshot0)) snapshot0 (by decide)).1 (by decide)).elim fun _ k => ⟨_, k.1⟩

theorem wit_dailies_4 : Obligations.CountersDailiesAndTrace → ∃ t, exec (.dailiesRecordWrite) (wDailies 14 (some snapshot0)) = .next t :=
  fun h => ((h.2.2.2.1 (wDailies 14 (some snapshot0)) snapshot0 (by decide)).2 (by decide) (by decide) (by decide)).elim fun _ k => ⟨_, k.1⟩

theorem wit_dailies_5 : Obligations.CountersDailiesAndTrace → ∃ t, exec (.cntDailiesHeadWrite 0xFFF) (w) = .next t :=
  fun h => ⟨_, h.2.2.2.2.1 w 0xFFF (by decide)⟩

theorem wit_trace_1 : Obligations.CountersDailiesAndTrace → ∃ t, exec (.traceConfigure 7) (wCount cTrace) = .next t :=
  fun h => ⟨_, h.2.2.2.2.2.1 (wCount cTrace) 7 cTrace (started _ _ rfl rfl) (by decide) (by decide) (by decide) (by decide)⟩

theorem wit_trace_2 : Obligations.CountersDailiesAndTrace → ∃ t, exec (.traceRead 7) (wTraced) = .next t :=
  fun h => (h.2.2.2.2.2.2 wTraced 7 cTraced 2 _ (started _ _ rfl rfl) (by decide) (by decide) (by decide) (by decide) rfl (by decide) (by decide) (by decide)).elim fun _ k => ⟨_, k.1⟩

theorem wit_link_1 : Obligations.LinksTrain → ∃ t, exec (.warpConfigure 7) (wl Link.reset (cLink 7)) = .next t :=
  fun h => ⟨_, (h.1 (wl Link.reset (cLink 7)) 7 (cLink 7) (started _ _ rfl rfl) (fun _ e => by cases e) (by decide)).1 (by decide)⟩

theorem wit_link_2 : Obligations.LinksTrain → ∃ t, exec (.warpConfigure 7) (wl linkUp (cLinkConn 0)) = .next t :=
  fun h => ((h.1 (wl linkUp (cLinkConn 0)) 7 (cLinkConn 0) (started _ _ rfl rfl) (fun _ e => by cases e) (by decide)).2.1 job2 0 (by decide) (by decide) rfl (by decide) (by decide) (by decide)).elim fun _ k => ⟨_, k.1⟩

theorem wit_link_3 : Obligations.LinksTrain → ∃ t, exec (.warpConfigure 7) (wl linkUp (cLinkConn 1)) = .next t :=
  fun h => ⟨_, (h.1 (wl linkUp (cLinkConn 1)) 7 (cLinkConn 1) (started _ _ rfl rfl) (fun _ e => by cases e) (by decide)).2.2.1 job2 (by decide) (by decide) rfl (by decide) (by decide)⟩

theorem wit_link_4 : Obligations.LinksTrain → ∃ t, exec (.warpConfigure 7) (wl linkUp (cRoute 0)) = .next t :=
  fun h => ((h.1 (wl linkUp (cRoute 0)) 7 (cRoute 0) (started _ _ rfl rfl) (fun _ e => by cases e) (by decide)).2.2.2.1 _ _ (by decide) (by decide) (by decide) rfl rfl rfl (by decide)).elim fun _ k => k.elim fun _ k => ⟨_, k.1⟩

theorem wit_link_5 : Obligations.LinksTrain → ∃ (u : State) (r : Route), r.conn = 5 ∧ Table.get? u.warp.routes 3 = some r :=
  fun h => ((h.1 wAgain 7 (cRoute 1) (started _ _ rfl rfl) (fun _ e => by cases e) (by decide)).2.2.2.2 _ _ _ (by decide) (by decide) (by decide) rfl rfl rfl (by decide) rfl).elim fun u k => k.elim fun r z => ⟨u, r, z.1, z.2.2.1⟩

theorem wit_link_6 : Obligations.LinksTrain → ((configureLink 7 1 0 (wl Link.reset (cLink 7))).link 7).enable = true ∧ ((configureLink 7 1 0 (wl Link.reset (cLink 7))).link 7).training = some 0 ∧ ((configureLink 7 1 0 (wl Link.reset (cLink 7))).link 7).up = false :=
  fun h => (h.2.1 (wl Link.reset (cLink 7)) 7 1 0 (by decide)).1 (by decide) (by decide) (by decide)

theorem wit_link_7 : Obligations.LinksTrain → ((configureLink 7 0 0 (wl linkUp (cLink 0))).link 7).up = false :=
  fun h => ((h.2.1 (wl linkUp (cLink 0)) 7 0 0 (by decide)).2 (by decide)).2.1

theorem wit_link_8 : Obligations.LinksTrain → ∃ t, exec (.warpRetrain 7) (wl linkUp cRetrain) = .next t :=
  fun h => (h.2.2.1 (wl linkUp cRetrain) 7 cRetrain (started _ _ rfl rfl) (by decide) (by decide) (by decide) (by decide)).elim fun _ k => ⟨_, k.1⟩

theorem wit_link_9 : Obligations.LinksTrain → ∃ t, exec (.warpRetrain 7) (wl Link.reset cRetrain) = .next t :=
  fun h => (h.2.2.1 (wl Link.reset cRetrain) 7 cRetrain (started _ _ rfl rfl) (by decide) (by decide) (by decide) (by decide)).elim fun _ k => ⟨_, k.1⟩

theorem wit_link_10 : Obligations.LinksTrain → ∃ t, exec (.warpRetrainTimeout 7) (wl linkOn cRetraining) = .next t :=
  fun h => ⟨_, h.2.2.2.1 (wl linkOn cRetraining) 7 7 cRetraining rfl rfl rfl⟩

theorem wit_link_11 : Obligations.LinksTrain → ∃ t, exec (.warpTrainingDone 7 (peer 7 9)) (wl linkTrains cRetraining) = .next t :=
  fun h => ⟨_, ((h.2.2.2.2.1 (wl linkTrains cRetraining) 7 (peer 7 9) (by decide) (by decide) (by decide) (by decide) (by decide)).1 (by decide)).1⟩

theorem wit_link_12 : Obligations.LinksTrain → ∃ t, exec (.warpTrainingDone 7 (peer 0xFF 8)) (wl linkTrains cRetraining) = .next t :=
  fun h => ((h.2.2.2.2.1 (wl linkTrains cRetraining) 7 (peer 0xFF 8) (by decide) (by decide) (by decide) (by decide) (by decide)).2.1 8 (by decide) (by decide)).elim fun _ k => ⟨_, k.1⟩

theorem wit_link_13 : Obligations.LinksTrain → ∃ t, exec (.warpTrainingDone 7 (peer 0x1F8 9)) (wl linkTrains cRetraining) = .next t :=
  fun h => ((h.2.2.2.2.1 (wl linkTrains cRetraining) 7 (peer 0x1F8 9) (by decide) (by decide) (by decide) (by decide) (by decide)).2.2 6 (by decide) (by decide)).elim fun _ k => ⟨_, k.1⟩

theorem wit_link_14 : Obligations.LinksTrain → ∃ t, exec (.warpLaneFail 7 7) (wl linkUp cRetraining) = .next t :=
  fun h => (h.2.2.2.2.2 (wl linkUp cRetraining) 7 7 (by decide)).elim fun _ k => ⟨_, k.1⟩

theorem wit_link_15 : Obligations.LinksTrain → ∃ t, exec (.warpLaneFail 7 8) (wl linkUp cRetraining) = .next t :=
  fun h => (h.2.2.2.2.2 (wl linkUp cRetraining) 7 8 (by decide)).elim fun _ k => ⟨_, k.1⟩

theorem wit_frame_1 : Obligations.LinkFramesAreExchanged → ∃ t, exec (.linkFrameData 7 (frame0 1 1)) (wl linkUp cRetraining) = .next t :=
  fun h => ⟨_, (h.1 (wl linkUp cRetraining) 7 (frame0 1 1) (by decide) (by decide)).1 (by decide) (.inr (by decide))⟩

theorem wit_frame_2 : Obligations.LinkFramesAreExchanged → ∃ t, exec (.linkFrameAck 7 [2]) (wl linkUp cRetraining) = .next t :=
  fun h => ⟨_, (h.1 (wl linkUp cRetraining) 7 [2] (by decide) (by decide)).2.1 (by decide) (by decide)⟩

theorem wit_frame_3 : Obligations.LinkFramesAreExchanged → ∃ t, exec (.linkFrameNak 7 [3]) (wl linkUp cRetraining) = .next t :=
  fun h => ⟨_, (h.1 (wl linkUp cRetraining) 7 [3] (by decide) (by decide)).2.2.1 (by decide) (by decide)⟩

theorem wit_frame_4 : Obligations.LinkFramesAreExchanged → ∃ t, exec (.linkFrameAck 7 (frame0 2 0)) (wl linkUp cRetraining) = .next t :=
  fun h => ((h.1 (wl linkUp cRetraining) 7 (frame0 2 0) (by decide) (by decide)).2.2.2 (by decide) (by decide)).elim fun _ k => ⟨_, k.2.2.2.2.1 rfl⟩

theorem wit_frame_5 : Obligations.LinkFramesAreExchanged → ∃ t, exec (.linkFrameNak 7 (frame0 3 0)) (wl linkUp cRetraining) = .next t :=
  fun h => ((h.1 (wl linkUp cRetraining) 7 (frame0 3 0) (by decide) (by decide)).2.2.2 (by decide) (by decide)).elim fun _ k => ⟨_, k.2.2.2.2.2.1 rfl⟩

theorem wit_frame_6 : Obligations.LinkFramesAreExchanged → ∃ t, exec (.linkFrameData 7 (frame0 1 0)) (wl linkUp cRetraining) = .next t :=
  fun h => ((h.1 (wl linkUp cRetraining) 7 (frame0 1 0) (by decide) (by decide)).2.2.2 (by decide) (by decide)).elim fun _ k => (k.2.2.2.2.2.2 rfl (by decide)).elim fun _ z => ⟨_, z.1⟩

theorem wit_frame_7 : Obligations.LinkFramesAreExchanged → ∃ t, exec (.warpReplayTimer 7) (wl (linkKeeps 0) cRetraining) = .next t :=
  fun h => ⟨_, h.2.1 (wl (linkKeeps 0) cRetraining) 7 (5, zeros 8) [] rfl (by decide) (by decide)⟩

theorem wit_frame_8 : Obligations.LinkFramesAreExchanged → ((replayFrom 7 5 (wl (linkKeeps 7) cRetraining)).link 7).tries = 8 :=
  fun h => ((h.2.2.1 (wl (linkKeeps 7) cRetraining) 7 5 (by decide)).2.1 (by decide) (by decide)).1

theorem wit_frame_9 : Obligations.LinkFramesAreExchanged → ((replayFrom 7 5 (wl (linkKeeps 8) cRetraining)).link 7).up = false :=
  fun h => ((h.2.2.1 (wl (linkKeeps 8) cRetraining) 7 5 (by decide)).2.2 (by decide) (by decide)).1

theorem wit_frame_10 : Obligations.LinkFramesAreExchanged → ∃ t, exec (.warpCreditStarvation 7) (wl (linkKeeps 0) cRetraining) = .next t :=
  fun h => (h.2.2.2 (wl (linkKeeps 0) cRetraining) 7 (zeros 300) [] (by decide) rfl (by decide) (by decide)).elim fun _ k => ⟨_, k.1⟩

theorem wit_region_1 : Obligations.RegionsAreKeyed → ∃ t, exec (.regionRegister 7) (wn conn2 cRegister) = .next t :=
  fun h => (h.1 (wn conn2 cRegister) 7 cRegister 2 (started _ _ rfl rfl) (by decide) (by decide) (by decide) (fun e => absurd e (by decide)) (by decide) (by decide) (fun _ => by decide) (by decide) (by decide) (by decide) (by decide) (by rw [lowest, lowest] <;> decide)).elim fun _ k => k.elim fun _ k => ⟨_, k.1⟩

theorem wit_region_2 : Obligations.RegionsAreKeyed → ∃ t, exec (.regionRevoke 7) (wn conn2 cRevoke) = .next t :=
  fun h => (h.2 (wn conn2 cRevoke) 7 cRevoke { region0 with space := .device, rights := 1 } (started _ _ rfl rfl) (by decide) (by decide) (by decide)).elim fun _ k => ⟨_, k.1⟩

theorem wit_wr_1 : Obligations.WorkRequestsRun → ∃ t, exec (.wrPost 7) (wn conn2 cPost) = .next t :=
  fun h => ⟨_, (h.1 (wn conn2 cPost) 7 cPost [{ addr := 0, len := 128 }] (started _ _ rfl rfl) (by decide) (by decide) (by decide) (by decide) (by decide) (by decide) (by decide) (by decide) (by decide)).1⟩

theorem wit_wr_2 : Obligations.WorkRequestsRun → ∃ t, exec (.wrCancel 7) (wCancelNone) = .next t :=
  fun h => ⟨_, (h.2.1 wCancelNone 7 cCancel (started _ _ rfl rfl) (by decide) (by decide) (by decide)).1 (by decide)⟩

theorem wit_wr_3 : Obligations.WorkRequestsRun → ∃ t, exec (.wrCancel 7) (wn (connWr 8) cCancel) = .next t :=
  fun h => ((h.2.1 (wn (connWr 8) cCancel) 7 cCancel (started _ _ rfl rfl) (by decide) (by decide) (by decide)).2 (connWr 8) (by decide)).elim fun _ k => k.elim fun _ k => ⟨_, k.1⟩

theorem wit_wr_4 : Obligations.WorkRequestsRun → ∃ t, exec (.wrStart 5) (wn (connWr 8) cCancel) = .next t :=
  fun h => ⟨_, (h.2.2 (wn (connWr 8) cCancel) 5 (connWr 8) (wr0 8) (by decide) (by decide) (by decide) (by decide) (by decide)).1⟩

theorem wit_wr_5 : Obligations.WorkRequestsRun → ∃ k, (startWr 5 (connWr (2 ^ 40)) (wr0 (2 ^ 40)) (wn (connWr (2 ^ 40)) cCancel)).conn? 5 = some k ∧ k.wrs = [wr0 (2 ^ 40)].erase (wr0 (2 ^ 40)) :=
  fun h => ((h.2.2 (wn (connWr (2 ^ 40)) cCancel) 5 (connWr (2 ^ 40)) (wr0 (2 ^ 40)) (by decide) (by decide) (by decide) (by decide) (by decide)).2.1 .outOfBounds (by decide)).elim fun k z => ⟨k, z.1, z.2.1⟩

theorem wit_wr_6 : Obligations.WorkRequestsRun → ∃ (u : State) (k : Conn), u.conn? 5 = some k ∧ k.txMsg = (connWr 8).txMsg + 1 :=
  fun h => ((h.2.2 (wn (connWr 8) cCancel) 5 (connWr 8) (wr0 8) (by decide) (by decide) (by decide) (by decide) (by decide)).2.2 1 _ rfl (by decide) (by decide) (by decide)).elim fun u z => z.elim fun k z => ⟨u, k, z.2.1, z.2.2.1⟩

theorem wit_conn_1 : Obligations.ConnectionsOpenRepeatAndClose → ∃ t, exec (.connOpen 7) (wn conn2 (openConn 0)) = .next t :=
  fun h => ((h.1.1 (wn conn2 (openConn 0)) 7 (openConn 0) job2 (started _ _ rfl rfl) (by decide) (.inl (by decide)) (by decide) (by decide) (by decide) (by decide) (by decide) (fun e => absurd e (by decide)) (fun _ => by decide) (by decide) (by decide) (by decide) (fun _ e => by cases e) rfl (by decide)).1 0 (by decide) (by decide) (by decide)).elim fun _ k => ⟨_, k.1⟩

theorem wit_conn_2 : Obligations.ConnectionsOpenRepeatAndClose → ∃ t, exec (.connOpen 7) (wNonce) = .next t :=
  fun h => ((h.1.1 wNonce 7 (openConn 1) job2 (started _ _ rfl rfl) (by decide) (.inl (by decide)) (by decide) (by decide) (by decide) (by decide) (by decide) (fun e => absurd e (by decide)) (fun _ => by decide) (by decide) (by decide) (by decide) (fun _ e => by cases e) rfl (by decide)).2 0 _ _ (zeros 16) (by decide) (.inl (by decide)) (by decide) (by decide) rfl rfl).elim fun _ k => k.elim fun _ k => ⟨_, k.1⟩

theorem wit_conn_3 : Obligations.ConnectionsOpenRepeatAndClose → ∃ t, exec (.connClose 7) (wn conn2 (cConnClose 0)) = .next t :=
  fun h => ⟨_, (h.1.2.1 (wn conn2 (cConnClose 0)) 7 (cConnClose 0) (started _ _ rfl rfl) (by decide) (by decide) (by decide)).1 conn2 (by decide) (by decide) (.inl (by decide))⟩

theorem wit_conn_4 : Obligations.ConnectionsOpenRepeatAndClose → ∃ t, exec (.connClose 7) (wListener) = .next t :=
  fun h => ((h.1.2.1 wListener 7 (cConnClose 1) (started _ _ rfl rfl) (by decide) (by decide) (by decide)).2 (by decide) (by decide)).elim fun _ k => ⟨_, k.1⟩

theorem wit_conn_5 : Obligations.ConnectionsOpenRepeatAndClose → ∃ q, (closeConn 5 (wn conn2 (cConnClose 0))).conn? 5 = some q ∧ q.phase = .closing :=
  fun h => ((h.1.2.2 (wn conn2 (cConnClose 0)) 5 conn2 (by decide)).1 (by decide)).elim fun q z => ⟨q, z.1, z.2.1⟩

theorem wit_conn_6 : Obligations.ConnectionsOpenRepeatAndClose → closeConn 5 (wn (connIn .closing 0) (cConnClose 0)) = wn (connIn .closing 0) (cConnClose 0) :=
  fun h => (h.1.2.2 (wn (connIn .closing 0) (cConnClose 0)) 5 (connIn .closing 0) (by decide)).2.1 (by decide)

def connGone : Conn := { connIn .closing 0 with discPsn := some 0 }

theorem wit_conn_7 : Obligations.ConnectionsOpenRepeatAndClose → ∃ t, exec (.disconnectFreeTimer 5) (wn connGone (cConnClose 0)) = .next t :=
  fun h => ⟨_, ((h.1.2.2 (wn connGone (cConnClose 0)) 5 connGone (by decide)).2.2.1 rfl rfl).1⟩

theorem wit_conn_8 : Obligations.ConnectionsOpenRepeatAndClose → ∃ t, exec (.halfOpenTimeout 5) (wn (connIn .halfOpen 0) (cConnClose 0)) = .next t :=
  fun h => ⟨_, ((h.1.2.2 (wn (connIn .halfOpen 0) (cConnClose 0)) 5 (connIn .halfOpen 0) (by decide)).2.2.2.1 (by decide)).1⟩

theorem wit_conn_9 : Obligations.ConnectionsOpenRepeatAndClose → ∃ t, exec (.connectRetryTimer 5) (wn (connIn .connecting 11) (cConnClose 0)) = .next t :=
  fun h => ⟨_, ((h.1.2.2 (wn (connIn .connecting 11) (cConnClose 0)) 5 (connIn .connecting 11) (by decide)).2.2.2.2 (by decide) (by decide)).1 (by decide)⟩

theorem wit_conn_10 : Obligations.ConnectionsOpenRepeatAndClose → ∃ t, exec (.connectRetryTimer 5) (wn (connIn .connecting 12) (cConnClose 0)) = .next t :=
  fun h => (((h.1.2.2 (wn (connIn .connecting 12) (cConnClose 0)) 5 (connIn .connecting 12) (by decide)).2.2.2.2 (by decide) (by decide)).2 7 (by decide) (by decide)).elim fun _ k => ⟨_, k.1⟩

theorem wit_timer_1 : Obligations.ConnectionsOpenRepeatAndClose → ∃ t, exec (.ackTimer 5) (wPort (connDue 0)) = .next t :=
  fun h => ⟨_, (h.2 (wPort (connDue 0)) 5 (connDue 0) (by decide) (by decide)).1 (by decide) (by decide)⟩

theorem wit_timer_2 : Obligations.ConnectionsOpenRepeatAndClose → ∃ t, exec (.retransmitTimerExpiry 5) (wPort (connDue 10)) = .next t :=
  fun h => ⟨_, (h.2 (wPort (connDue 10)) 5 (connDue 10) (by decide) (by decide)).2.1 (by decide) (by decide)⟩

theorem wit_timer_3 : Obligations.ConnectionsOpenRepeatAndClose → ∃ t, exec (.retransmitTimerExpiry 5) (wPort (connDue 11)) = .next t :=
  fun h => ⟨_, ((h.2 (wPort (connDue 11)) 5 (connDue 11) (by decide) (by decide)).2.2.1 (by decide) (by decide)).1⟩

theorem wit_timer_4 : Obligations.ConnectionsOpenRepeatAndClose → ∃ t, exec (.nakRetryUsExpiry 5 0) (wPort (connDue 0)) = .next t :=
  fun h => ⟨_, (h.2 (wPort (connDue 0)) 5 (connDue 0) (by decide) (by decide)).2.2.2.1 0 (by decide)⟩

theorem wit_timer_5 : Obligations.ConnectionsOpenRepeatAndClose → (resend (connDue 0) [{ psn := 0, type := 1, body := zeros 32, sacked := false }] (wPort (connDue 0))).out.length = (wPort (connDue 0)).out.length + 1 :=
  fun h => by
    rw [((h.2 (wPort (connDue 0)) 5 (connDue 0) (by decide) (by decide)).2.2.2.2.1 { psn := 0, type := 1, body := zeros 32, sacked := false } 0 (by decide) (by decide)).1]
    exact List.length_append

theorem wit_timer_6 : Obligations.ConnectionsOpenRepeatAndClose → resend (connDue 0) (connDue 0).unacked (wn (connDue 0) (cConnClose 0)) = wn (connDue 0) (cConnClose 0) :=
  fun h => (h.2 (wn (connDue 0) (cConnClose 0)) 5 (connDue 0) (by decide) (by decide)).2.2.2.2.2 (by decide) (by decide)

theorem wit_port_1 : Obligations.PortsComeUpAndDown → ∃ t, exec (.portEnable 7 15) (w) = .next t :=
  fun h => ((h.1 w 7 15 (by decide) (by decide)).1 (by decide)).elim fun _ k => ⟨_, k.1⟩

theorem wit_port_2 : Obligations.PortsComeUpAndDown → ∃ t, exec (.portDisable 0 0) (wPort conn2) = .next t :=
  fun h => ((h.1 (wPort conn2) 0 0 (by decide) (by decide)).2).elim fun _ k => ⟨_, k.1⟩

theorem wit_port_3 : Obligations.PortsComeUpAndDown → ∃ t, exec (.portLanesLocked 0) (wLocking) = .next t :=
  fun h => (h.2.1 wLocking 0 (by decide) (by decide) (by decide) (by decide) (by decide) (by decide)).elim fun _ k => ⟨_, k.1⟩

theorem wit_port_4 : Obligations.PortsComeUpAndDown → ∃ t, exec (.ethernetLaneFail 0 8 true) (wPort conn2) = .next t :=
  fun h => (h.2.2.1 (wPort conn2) 0 8 true (by decide) (by decide) (by decide)).elim fun _ k => ⟨_, k.1⟩

theorem wit_port_5 : Obligations.PortsComeUpAndDown → ∃ t, exec (.malformedFrame 0 .icmp) (wPort conn2) = .next t :=
  fun h => ⟨_, (h.2.2.2 (wPort conn2) 0 (by decide) (by decide)).1.2.1⟩

theorem wit_port_6 : Obligations.PortsComeUpAndDown → ∃ t, exec (.malformedFrame 0 .vlan) (wPort conn2) = .next t :=
  fun h => ⟨_, (h.2.2.2 (wPort conn2) 0 (by decide) (by decide)).1.1 .vlan (by decide)⟩

theorem wit_port_7 : Obligations.PortsComeUpAndDown → ∃ t, exec (.malformedFrame 0 .header) (wPort conn2) = .next t :=
  fun h => ⟨_, (h.2.2.2 (wPort conn2) 0 (by decide) (by decide)).2.1 .header (by decide) (by decide)⟩

theorem wit_port_8 : Obligations.PortsComeUpAndDown → ∃ t, exec (.arpRequest 0 ((wPort conn2).port 0).ipv4 5 6) (wPort conn2) = .next t :=
  fun h => ⟨_, (h.2.2.2 (wPort conn2) 0 (by decide) (by decide)).2.2.1 5 6 (by decide)⟩

theorem wit_port_9 : Obligations.PortsComeUpAndDown → ∃ t, exec (.arpRequest 0 77 5 6) (wPort conn2) = .next t :=
  fun h => ⟨_, (h.2.2.2 (wPort conn2) 0 (by decide) (by decide)).2.2.2.1 77 5 6 (by decide)⟩

theorem wit_port_10 : Obligations.PortsComeUpAndDown → ∃ t, exec (.neighbourSolicitation 0 (wPort6.port 0).ipv6 5 0) (wPort6) = .next t :=
  fun h => ⟨_, (h.2.2.2 wPort6 0 (by decide) (by decide)).2.2.2.2.1 5 0 (by decide)⟩

theorem wit_port_11 : Obligations.PortsComeUpAndDown → ∃ t, exec (.neighbourSolicitation 0 1 5 0) (wPort6) = .next t :=
  fun h => ⟨_, (h.2.2.2 wPort6 0 (by decide) (by decide)).2.2.2.2.2 1 5 0 (by decide)⟩

theorem wit_packet_1 : Obligations.PacketsTakeEffect → ∃ t, exec (.write 0 (frameFor [1, 1])) (wRx connRx) = .next t :=
  fun h => ⟨_, (h.1 (wRx connRx) 0 (frameFor [1, 1]) (by decide) (by decide) (by decide)).1 (by decide)⟩

theorem wit_packet_2 : Obligations.PacketsTakeEffect → ∃ t, exec (.send 0 (frameFor [1, 2])) (wRx connRx) = .next t :=
  fun h => ⟨_, (h.1 (wRx connRx) 0 (frameFor [1, 2]) (by decide) (by decide) (by decide)).2.1 (by decide)⟩

theorem wit_packet_3 : Obligations.PacketsTakeEffect → ∃ t, exec (.disconnect 0 (frameFor [1, 0x23])) (wRx connRx) = .next t :=
  fun h => ⟨_, (h.1 (wRx connRx) 0 (frameFor [1, 0x23]) (by decide) (by decide) (by decide)).2.2.2.2.2.2.2.2.2.2.2.2 (by decide)⟩

theorem wit_packet_4 : Obligations.PacketsTakeEffect → receive from0 [1, 1] (wRx connRx) = drop 0 2 (wRx connRx) :=
  fun h => (h.2.1 (wRx connRx) from0 [1, 1] (by decide)).1 (by decide)

theorem goodWrite0_ok : packetOk (goodWrite 0) = true := by
  have h : (goodWrite 0).length = 74 := (packetFor_parts _ _ _ _ _ _ rfl).1
  unfold packetOk
  dsimp only
  rw [h]
  decide

theorem goodWrite4095_ok : packetOk (goodWrite 4095) = true := by
  have h : (goodWrite 4095).length = 74 := (packetFor_parts _ _ _ _ _ _ rfl).1
  unfold packetOk
  dsimp only
  rw [h]
  decide

theorem badWrite_ok : packetOk badWrite = true := by
  have h : badWrite.length = 74 := (packetFor_parts _ _ _ _ _ _ rfl).1
  unfold packetOk
  dsimp only
  rw [h]
  decide

theorem ackPacket_ok : packetOk ackPacket = true := by
  have h : ackPacket.length = 72 := (packetFor_parts _ _ _ _ _ _ rfl).1
  unfold packetOk
  dsimp only
  rw [h]
  decide

theorem wit_packet_5 : Obligations.PacketsTakeEffect → receive from0 (goodWrite 0) wNoConn = drop 0 1 wNoConn :=
  fun h => ((h.2.1 wNoConn from0 (goodWrite 0) (by decide)).2 goodWrite0_ok (by decide) (by decide) (by decide)).1 (by decide)

theorem wit_packet_6 : Obligations.PacketsTakeEffect → receive from0 badWrite (wRx connRx) = drop 0 0 (wRx connRx) :=
  fun h => (((h.2.1 (wRx connRx) from0 badWrite (by decide)).2 badWrite_ok (by decide) (by decide) (by decide)).2 connRx (by decide) (by decide)).1 (packetFor_fails _ _ _ _ _ rfl (by decide) (by decide) (by decide))

theorem wit_packet_7 : Obligations.PacketsTakeEffect → receive from0 ackPacket (wRx connRx) = ackIn from0 5 (headOf ackPacket) ackPacket (wRx connRx) :=
  fun h => (((h.2.1 (wRx connRx) from0 ackPacket (by decide)).2 ackPacket_ok (by decide) (by decide) (by decide)).2 connRx (by decide) (by decide)).2.1 [] (packetFor_opens _ _ _ _ _ rfl (by decide) (by decide) (by decide)) (by decide)

theorem wit_packet_8 : Obligations.PacketsTakeEffect → ∃ u v, receive from0 (goodWrite 4095) (wRx connRx) = creditMoved (ackDue 5 false v) ∧ v = requestIn from0 5 1 (headOf (goodWrite 4095)) [8, 9] u :=
  fun h => ((((h.2.1 (wRx connRx) from0 (goodWrite 4095) (by decide)).2 goodWrite4095_ok (by decide) (by decide) (by decide)).2 connRx (by decide) (by decide)).2.2 [8, 9] (packetFor_opens _ _ _ _ _ rfl (by decide) (by decide) (by decide)) (by decide) (by decide) (by decide) (by decide) (.inr (by decide)) (by decide) (by decide)).elim fun u z => z.elim fun v z => ⟨u, v, z.1, z.2.2.2.2.1 (by decide)⟩

theorem wit_packet_9 (h : Obligations.PacketsTakeEffect) :
    (∃ t, exec (.readReq 0 (frameFor [1, 0x03])) (wRx connRx) = .next t) ∧ (∃ t, exec (.readResp 0 (frameFor [1, 0x04])) (wRx connRx) = .next t)
    ∧ (∃ t, exec (.atomicAdd 0 (frameFor [1, 0x05])) (wRx connRx) = .next t) ∧ (∃ t, exec (.compareSwap 0 (frameFor [1, 0x06])) (wRx connRx) = .next t)
    ∧ (∃ t, exec (.atomicResp 0 (frameFor [1, 0x07])) (wRx connRx) = .next t) ∧ (∃ t, exec (.ackReceived 0 (frameFor [1, 0x10])) (wRx connRx) = .next t)
    ∧ (∃ t, exec (.nakReceived 0 (frameFor [1, 0x11])) (wRx connRx) = .next t) ∧ (∃ t, exec (.connectReq 0 (frameFor [1, 0x20])) (wRx connRx) = .next t)
    ∧ (∃ t, exec (.connectAccept 0 (frameFor [1, 0x21])) (wRx connRx) = .next t) ∧ (∃ t, exec (.connectReject 0 (frameFor [1, 0x22])) (wRx connRx) = .next t) :=
  have k (n : Byte) := h.1 (wRx connRx) 0 (frameFor [1, n]) rfl rfl rfl
  ⟨⟨_, (k 0x03).2.2.1 rfl⟩, ⟨_, (k 0x04).2.2.2.1 rfl⟩, ⟨_, (k 0x05).2.2.2.2.1 rfl⟩, ⟨_, (k 0x06).2.2.2.2.2.1 rfl⟩, ⟨_, (k 0x07).2.2.2.2.2.2.1 rfl⟩,
    ⟨_, (k 0x10).2.2.2.2.2.2.2.1 rfl⟩, ⟨_, (k 0x11).2.2.2.2.2.2.2.2.1 rfl⟩, ⟨_, (k 0x20).2.2.2.2.2.2.2.2.2.1 rfl⟩,
    ⟨_, (k 0x21).2.2.2.2.2.2.2.2.2.2.1 rfl⟩, ⟨_, (k 0x22).2.2.2.2.2.2.2.2.2.2.2.1 rfl⟩⟩

theorem wit_request_1 : Obligations.PacketsTakeEffect → (requestIn from0 5 1 (headFor 1 2) [8, 9] (wRx connRx)).mem = memStore (wRx connRx).mem 6 [8, 9] :=
  fun h => ((h.2.2.1 (wRx connRx) from0 5 1 (headFor 1 2) [8, 9] connRx (by decide) (by decide) (by decide) (by decide)).1 1 _ rfl rfl (by decide) (fun e => by cases e)).1

theorem wit_request_2 : Obligations.PacketsTakeEffect → (requestIn from0 5 1 (headFor 2 8) (zeros 8) (wRx connRx)).mem = memStore (wRx connRx).mem 0 (zeros 8) :=
  fun h => ((h.2.2.1 (wRx connRx) from0 5 1 (headFor 2 8) (zeros 8) connRx (by decide) (by decide) (by decide) (by decide)).2.1 (wr0 8) [] 1 _ rfl rfl (by decide) rfl (by decide) (fun e => by cases e)).1

theorem wit_request_3 : Obligations.PacketsTakeEffect → (requestIn from0 5 1 { headFor 5 8 with raddr := 8 } (zeros 8) (wRx connRx)).mem = (wRx connRx).mem :=
  fun h => ((h.2.2.1 (wRx connRx) from0 5 1 { headFor 5 8 with raddr := 8 } (zeros 8) connRx (by decide) (by decide) (by decide) (by decide)).2.2.1 1 _ (.inr (.inl rfl)) rfl (by decide)).1

theorem wit_request_4 : Obligations.PacketsTakeEffect → (requestIn from0 5 1 (headFor 1 (2 ^ 33)) [8, 9] (wRx connRx)).mem = (wRx connRx).mem :=
  fun h => ((h.2.2.1 (wRx connRx) from0 5 1 (headFor 1 (2 ^ 33)) [8, 9] connRx (by decide) (by decide) (by decide) (by decide)).2.2.2 .outOfBounds rfl rfl).1

theorem wit_response_1 : Obligations.PacketsTakeEffect → ∃ a, (readRespIn from0 5 (headAnswers 4 1) (zeros 8) (wRx connRx)).mem = memStore (wRx connRx).mem a (zeros 8) :=
  fun h => ⟨_, (h.2.2.2.1 (wRx connRx) from0 5 (headAnswers 4 1) [] (zeros 8) connRx { wr0 8 with kind := 2, msgId := some 1 } (by decide) (by decide)).1 _ rfl rfl rfl (by decide) (by decide)⟩

theorem wit_response_2 : Obligations.PacketsTakeEffect → (atomicRespIn from0 5 (headAnswers 7 2) (zeros 8) (wRx connRx)).mem = memStore (wRx connRx).mem 0 (zeros 8) :=
  fun h => ((h.2.2.2.1 (wRx connRx) from0 5 (headAnswers 7 2) [] (zeros 8) connRx { wr0 8 with kind := 3, msgId := some 2 } (by decide) (by decide)).2.1 _ (.inl rfl) rfl (by decide)).1

theorem wit_response_3 : Obligations.PacketsTakeEffect → (nakIn from0 5 (tHead 0x11 0 [(16, 4, 2)]) (wRx connRx)).mem = (wRx connRx).mem :=
  fun h => ((h.2.2.2.1 (wRx connRx) from0 5 (headAnswers 0x11 2) (tHead 0x11 0 [(16, 4, 2)]) [] connRx { wr0 8 with kind := 3, msgId := some 2 } (by decide) (by decide)).2.2 rfl (by decide)).1

theorem wit_response_4 : Obligations.PacketsTakeEffect → disconnectIn from0 5 (wRx connRx) = closeConn 5 (connErrorAt (pathSource 0) 5 3 0 (wRx connRx)) :=
  fun h => (h.2.2.2.2 (wRx connRx) from0 5 (headFor 0x23 0) [] connRx (by decide)).1 (by decide)

theorem wit_response_5 : Obligations.PacketsTakeEffect → ∃ q : Conn, (ackIn from0 5 (headFor 0x10 0) (tHead 0x10 0 [(16, 8, 1)]) (wRx connQuiet)).conn? 5 = some q ∧ ∀ p ∈ q.unacked, 1 ≤ p.psn :=
  fun h => ((h.2.2.2.2 (wRx connQuiet) from0 5 (headFor 0x10 0) (tHead 0x10 0 [(16, 8, 1)]) connQuiet (by decide)).2 (by decide) (by decide) (by decide) (by decide)).elim fun q z => ⟨q, z.1, z.2.1⟩

theorem wit_visible_1 : Obligations.MessagesBecomeVisible → ∃ t, exec (.messageVisible 5) (wRx (connMsg (rx 1 [] [] false))) = .next t :=
  fun h => ⟨_, (h.1 (wRx (connMsg (rx 1 [] [] false))) 5 _ (rx 1 [] [] false) (by decide) rfl rfl).1 (by decide) (by decide)⟩

theorem wit_visible_2 : Obligations.MessagesBecomeVisible → ∃ t, exec (.messageVisible 5) (wRx (connMsg (rx 1 [0] [] false))) = .next t :=
  fun h => ((h.1 (wRx (connMsg (rx 1 [0] [] false))) 5 _ (rx 1 [0] [] false) (by decide) rfl rfl).2.1 _ job2 (by decide) (by decide) (by decide) rfl rfl rfl).elim fun _ k => k.elim fun _ k => k.elim fun _ k => ⟨_, k.1⟩

theorem wit_visible_3 : Obligations.MessagesBecomeVisible → ∃ t, exec (.messageVisible 5) (wRx (connMsg (rx 5 [0] [(0, [0, 0, 0, 0, 0, 0, 1, 2])] false))) = .next t :=
  fun h => ((h.1 (wRx (connMsg (rx 5 [0] [(0, [0, 0, 0, 0, 0, 0, 1, 2])] false))) 5 _ (rx 5 [0] [(0, [0, 0, 0, 0, 0, 0, 1, 2])] false) (by decide) rfl rfl).2.2.1 _ _ (by decide) (by decide) (.inl (by decide)) rfl rfl (by decide)).elim fun _ k => ⟨_, k.1⟩

theorem wit_visible_4 : Obligations.MessagesBecomeVisible → ∃ t, exec (.messageVisible 5) (wRx (connMsg (rx 1 [] [] true))) = .next t :=
  fun h => ((h.1 (wRx (connMsg (rx 1 [] [] true))) 5 _ (rx 1 [] [] true) (by decide) rfl rfl).2.2.2 (by decide)).elim fun _ k => k.elim fun _ k => ⟨_, k.1⟩

theorem wit_visible_5 : Obligations.MessagesBecomeVisible → ∃ t, exec (.reassemblyTimerExpiry 5 0) (wRx (connMsg (rx 1 [] [] false))) = .next t :=
  fun h => (h.2 (wRx (connMsg (rx 1 [] [] false))) 5 _ (rx 1 [] [] false) 0 (by decide) rfl (by decide) (by decide) (by decide)).elim fun _ k => k.elim fun _ k => ⟨_, k.1⟩

theorem greetingFor_length (type : Nat) (l : List (Nat × Nat × Nat)) (good : Bool) (h : (tHead type 0 ([(16, 1, 2)] ++ l)).length = 56) :
    (greetingFor type l good).length = 72 := by
  have p := greetingFor_parts type l good h
  rw [← List.take_append_drop 56 (greetingFor type l good), p.1, p.2, List.length_append, h]
  cases good <;> simp [flipped]

theorem greetGood_ok : packetOk (greetingFor 0x20 [] true) = true := by
  have h : (greetingFor 0x20 [] true).length = 72 := greetingFor_length _ _ _ rfl
  unfold packetOk
  dsimp only
  rw [h]
  decide

theorem greetBad_ok : packetOk (greetingFor 0x20 [] false) = true := by
  have h : (greetingFor 0x20 [] false).length = 72 := greetingFor_length _ _ _ rfl
  unfold packetOk
  dsimp only
  rw [h]
  decide

theorem acceptIn_ok : packetOk (greetingFor 0x21 [(20, 4, 5)] true) = true := by
  have h : (greetingFor 0x21 [(20, 4, 5)] true).length = 72 := greetingFor_length _ _ _ rfl
  unfold packetOk
  dsimp only
  rw [h]
  decide

theorem rejectIn_ok : packetOk (greetingFor 0x22 [(18, 2, 4)] true) = true := by
  have h : (greetingFor 0x22 [(18, 2, 4)] true).length = 72 := greetingFor_length _ _ _ rfl
  unfold packetOk
  dsimp only
  rw [h]
  decide

theorem greet_secret : wGreet.connSecret 2 none = secret2 := secret_keyed rfl rfl

theorem wit_greet_1 : Obligations.HandshakesConnect → receive from0 (greetingFor 0x20 [] false) wGreet = drop 0 0 wGreet :=
  fun h => (h.1 wGreet from0 (greetingFor 0x20 [] false) job2 (by decide) greetBad_ok (by decide) rfl).1 (by
    have s : wGreet.connSecret (byteAt (greetingFor 0x20 [] false) 16) (if from0.path < 8 then none else some (from0.path - 8)) = secret2 := greet_secret
    rw [(greetingFor_parts 0x20 [] false (by decide)).1, (greetingFor_parts 0x20 [] false (by decide)).2, s]
    exact flipped_ne _ (gcmMac_length _ _ _ _))

theorem wit_greet_2 : Obligations.HandshakesConnect → ∃ t q, receive from0 (greetingFor 0x20 [] true) wGreet = t ∧ t.conn? 0 = some q :=
  fun h => ((h.1 wGreet from0 (greetingFor 0x20 [] true) job2 (by decide) greetGood_ok (by decide) rfl).2 _ 0 (zeros 16) _ (by
    have s : wGreet.connSecret (byteAt (greetingFor 0x20 [] true) 16) (if from0.path < 8 then none else some (from0.path - 8)) = secret2 := greet_secret
    rw [(greetingFor_parts 0x20 [] true (by decide)).1, (greetingFor_parts 0x20 [] true (by decide)).2, s]
    rfl) (by decide) (by decide) rfl (by decide) rfl).elim fun t z => z.elim fun q z => ⟨t, q, z.1, z.2.1⟩

theorem wit_greet_3 : Obligations.HandshakesConnect → ∃ t q, receive from0 (greetingFor 0x21 [(20, 4, 5)] true) wAsks = complete 7 .ok 0 5 t ∧ t.conn? 5 = some q :=
  fun h => ((h.2 wAsks from0 (greetingFor 0x21 [(20, 4, 5)] true) connAsks _ (by decide) acceptIn_ok (asks_answer 0x21 [(20, 4, 5)] (by decide) (by decide) (by decide) (by decide) (by decide))).1 7 (by decide) rfl).elim fun t z => z.elim fun q z => ⟨t, q, z.1, z.2.1⟩

theorem wit_greet_4 : Obligations.HandshakesConnect → ∃ t, receive from0 (greetingFor 0x22 [(18, 2, 4)] true) wAsks = completeCode 7 4 0 0 t ∧ t.conn? 5 = none :=
  fun h => ((h.2 wAsks from0 (greetingFor 0x22 [(18, 2, 4)] true) connAsks _ (by decide) rejectIn_ok (asks_answer 0x22 [(18, 2, 4)] (by decide) (by decide) (by decide) (by decide) (by decide))).2 7 (by decide) rfl).elim fun t z => ⟨t, z.1, z.2.1⟩

theorem wit_power_1 : Obligations.PowerUpRunsItsSteps → ∃ t, exec (.powerApplied) (State.reset) = .next t :=
  fun h => (h.1 State.reset rfl rfl rfl).elim fun _ k => ⟨_, k.1⟩

theorem wit_power_2 : Obligations.PowerUpRunsItsSteps → ∃ t, exec (.intermediateBusRetry true false) (wBus 2) = .next t :=
  fun h => ⟨_, h.2.1 (wBus 2) true false rfl (.inr rfl)⟩

theorem wit_power_3 : Obligations.PowerUpRunsItsSteps → (busSteps false true (wBus 1)).side.halted = true :=
  fun h => (h.2.2.1 (wBus 1) true).1.1

theorem wit_power_4 : Obligations.PowerUpRunsItsSteps → (busSteps true true (wBus 1)).side.step = 3 :=
  fun h => ((h.2.2.1 (wBus 1) true).2.2 rfl rfl).1

theorem wit_power_5 : Obligations.PowerUpRunsItsSteps → ∃ t, exec (.pwrOkQualify) (wRails 3 true 0) = .next t :=
  fun h => (h.2.2.2.1 (wRails 3 true 0) (by decide)).elim fun _ k => ⟨_, k.1⟩

theorem wit_power_6 : Obligations.PowerUpRunsItsSteps → ∃ t, exec (.pwrOkQualify) (wRails 3 false 0) = .next t :=
  fun h => (h.2.2.2.1 (wRails 3 false 0) (by decide)).elim fun _ k => ⟨_, k.1⟩

theorem wit_power_7 : Obligations.PowerUpRunsItsSteps → ∃ t, exec (.pwrOkRelease) (wRails 11 true 31) = .next t :=
  fun h => (h.2.2.2.2.1 (wRails 11 true 31) (by decide)).elim fun _ k => ⟨_, k.1⟩

theorem wit_power_8 : Obligations.PowerUpRunsItsSteps → ∃ t, exec (.rngStartupTestDone (samples false) true) (wTesting) = .next t :=
  fun h => ((h.2.2.2.2.2.1 wTesting (samples false) true rfl rfl rfl).1 (.inl samples_bad)).elim fun _ k => ⟨_, k.1⟩

theorem wit_power_9 : Obligations.PowerUpRunsItsSteps → ∃ t, exec (.rngStartupTestDone (samples true) true) (wTesting) = .next t :=
  fun h => ((h.2.2.2.2.2.1 wTesting (samples true) true rfl rfl rfl).2 samples_good rfl).elim fun _ k => ⟨_, k.1⟩

theorem wit_power_10 : Obligations.PowerUpRunsItsSteps → bootFirmware healthy wTesting
    = stepFails 7 { wTesting with trust := { wTesting.trust with identity := true, certOk := certValid wTesting.trust.fuses wTesting.idPk wTesting.trust.flash.cert, romMode := true } } :=
  fun h => (h.2.2.2.2.2.2 wTesting healthy).2.1.trans (by rw [(h.2.2.2.2.2.2 wTesting healthy).1]; rfl)

theorem wit_power_11 : Obligations.PowerUpRunsItsSteps → (bootFirmware healthy wTesting).trust.romMode = true :=
  fun h => ((h.2.2.2.2.2.2 wTesting healthy).2.2 rfl rfl).1

theorem wit_pin_1 : Obligations.PinsAndWarmResets → ∃ t, exec (.zeroizeNAssert) (wRails 11 true 16) = .next t :=
  fun h => (h.1.1 (wRails 11 true 16) (by decide)).elim fun _ k => ⟨_, k.1⟩

theorem wit_pin_2 : Obligations.PinsAndWarmResets → ∃ t, exec (.zeroizeNRelease) (wRails 11 true 17) = .next t :=
  fun h => (h.1.2.1 (wRails 11 true 17) (by decide)).elim fun _ k => ⟨_, k.1⟩

theorem wit_pin_3 : Obligations.PinsAndWarmResets → ∃ t, exec (.sidebandUnqualified 4) (wRails 11 true 0) = .next t :=
  fun h => (h.1.2.2.1 (wRails 11 true 0) 4 (by decide) (by decide) (by decide)).elim fun _ k => ⟨_, k.1⟩

theorem wit_pin_4 : Obligations.PinsAndWarmResets → ∃ t, exec (.vio3v3Loss) (wRails 3 true 16) = .next t :=
  fun h => (h.1.2.2.2 (wRails 3 true 16) (by decide)).elim fun _ k => ⟨_, k.1⟩

theorem wit_reset_1 : Obligations.PinsAndWarmResets → ∃ t, exec (.perstNAssert) (wRails 11 true 16) = .next t :=
  fun h => (h.2.1 (wRails 11 true 16) (by decide)).elim fun _ k => ⟨_, k.1⟩

theorem wit_reset_2 : Obligations.PinsAndWarmResets → ∃ t, exec (.perstNRelease) (wRails 11 true 24) = .next t :=
  fun h => (h.2.2.1 (wRails 11 true 24) (by decide) (by decide) (by decide)).elim fun _ k => ⟨_, k.1⟩

theorem wit_reset_3 : Obligations.PinsAndWarmResets → ∃ t, exec (.hotResetOrDlDown) (wRails 11 true 16) = .next t :=
  fun h => (h.2.2.2.1 (wRails 11 true 16) (by decide) (by decide) (by decide) (by decide)).elim fun _ k => ⟨_, k.1⟩

theorem wit_reset_4 : Obligations.PinsAndWarmResets → ∃ t, exec (.flr) (withCmd (wRails 11 true 16) (cLink 0)) = .next t :=
  fun h => (h.2.2.2.2 (withCmd (wRails 11 true 16) (cLink 0)) (by decide)).elim fun _ k => ⟨_, k.1⟩

theorem wit_side_1 : Obligations.TheSidebandAndTheTapAnswer → ∃ t, exec (.setEndpointId 1 8) (wStep4 4) = .next t :=
  fun h => ⟨_, (h.1.1 (wStep4 4) 1 8 (by decide)).1 (by decide) (by decide) (by decide)⟩

theorem wit_side_2 : Obligations.TheSidebandAndTheTapAnswer → ∃ t, exec (.setEndpointId 0 0xFF) (wStep4 4) = .next t :=
  fun h => ⟨_, (h.1.1 (wStep4 4) 0 0xFF (by decide)).2.1 (.inr (.inr rfl))⟩

theorem wit_side_3 : Obligations.TheSidebandAndTheTapAnswer → ∃ t, exec (.gettid) (wStep4 7) = .next t :=
  fun h => ⟨_, (h.1.1 (wStep4 7) 1 8 (by decide)).2.2.2.2.2 (by decide)⟩

theorem wit_side_4 : Obligations.TheSidebandAndTheTapAnswer → ∃ t, exec (.setEndpointId 1 8) (wStep4 3) = .next t :=
  fun h => ⟨_, (h.1.2.1 (wStep4 3) 1 8 (by decide)).1⟩

theorem wit_side_5 : Obligations.TheSidebandAndTheTapAnswer → ∃ t, exec (.settid 0xFE) (wStep4 8) = .next t :=
  fun h => ⟨_, (h.1.2.2 (wStep4 8) 0xFE 2 5 99 250 (by decide)).2.1 (by decide) (by decide)⟩

theorem wit_side_6 : Obligations.TheSidebandAndTheTapAnswer → ∃ t, exec (.getsensorreading 13) (wStep4 8) = .next t :=
  fun h => ⟨_, (h.1.2.2 (wStep4 8) 1 2 5 99 250 (by decide)).2.2.2.2.2.2.2.2.2.1 3 (by decide)⟩

theorem wit_side_7 : Obligations.TheSidebandAndTheTapAnswer → ∃ t, exec (.getsensorreading 99) (wStep4 8) = .next t :=
  fun h => ⟨_, (h.1.2.2 (wStep4 8) 1 2 5 99 250 (by decide)).2.2.2.2.2.2.2.2.2.2.1 (by decide)⟩

theorem wit_side_8 : Obligations.TheSidebandAndTheTapAnswer → ∃ t, exec (.setnumericeffectervalue 100 750) (wStep4 8) = .next t :=
  fun h => ((h.1.2.2 (wStep4 8) 1 2 5 99 750 (by decide)).2.2.2.2.2.2.2.2.2.2.2.2.1 (.inr (by decide))).elim fun _ k => ⟨_, k.1⟩

theorem wit_side_9 : Obligations.TheSidebandAndTheTapAnswer → ∃ t, exec (.setnumericeffectervalue 100 751) (wStep4 8) = .next t :=
  fun h => ⟨_, (h.1.2.2 (wStep4 8) 1 2 5 99 751 (by decide)).2.2.2.2.2.2.2.2.2.2.2.2.2 (by decide) (.inr (by decide))⟩

theorem wit_tap_1 : Obligations.TheSidebandAndTheTapAnswer → ∃ t, exec (.idcode) (wOn) = .next t :=
  fun h => ⟨_, (h.2.1 wOn rfl).1⟩

theorem wit_tap_2 : Obligations.TheSidebandAndTheTapAnswer → ∃ t, exec (.extest) (wOn) = .next t :=
  fun h => ⟨_, (h.2.1 wOn rfl).2.2.2.2.1⟩

theorem wit_tap_3 : Obligations.TheSidebandAndTheTapAnswer → (enterHold wOn).side.testHold = true :=
  fun h => ((h.2.1 wOn rfl).2.2.2.2.2.2.2.2.2.1 rfl).1

theorem wit_tap_4 : Obligations.TheSidebandAndTheTapAnswer → ∃ t, exec (.scanEnter) (wOn) = .next t :=
  fun h => ((h.2.1 wOn rfl).2.2.2.2.2.2.2.2.2.2.2.1).elim fun _ k => ⟨_, k.1⟩

theorem wit_tap_5 : Obligations.TheSidebandAndTheTapAnswer → ∃ t, exec (.testLogicReset) (wOn) = .next t :=
  fun h => ⟨_, (h.2.1 wOn rfl).2.2.2.2.2.2.2.2.2.2.2.2.1 rfl⟩

theorem wit_tap_6 : Obligations.TheSidebandAndTheTapAnswer → ∃ t, exec (.testLogicReset) (wHeld) = .next t :=
  fun h => ((h.2.1 wHeld rfl).2.2.2.2.2.2.2.2.2.2.2.2.2 rfl).elim fun _ k => ⟨_, k.1⟩

theorem wit_tap_7 : Obligations.TheSidebandAndTheTapAnswer → ∃ t, exec (.dbgRead 63) (wOn) = .next t :=
  fun h => ((h.2.2 wOn 63 rfl).1 (by decide) (by decide) (by decide)).elim fun _ k => ⟨_, k.1⟩

theorem wit_tap_8 : Obligations.TheSidebandAndTheTapAnswer → ∃ t, exec (.dbgRead 0x200000000) (wOn) = .next t :=
  fun h => ((h.2.2 wOn 0x200000000 rfl).2 (by decide) (by decide)).elim fun _ k => ⟨_, k.1⟩

theorem wit_test_1 : Obligations.TestsRunAndEnd → ∃ t, exec (.linkTest 7) (wTest (cLinkTest 3 3 63)) = .next t :=
  fun h => (h.1 (wTest (cLinkTest 3 3 63)) 7 (cLinkTest 3 3 63) (started _ _ rfl rfl) (by decide) (by decide) (by decide) (by decide)).elim fun _ k => k.elim fun _ k => ⟨_, k.1⟩

theorem wit_test_2 : Obligations.TestsRunAndEnd → ∃ t, exec (.linkTest 7) (wTest (cLinkTest 2 7 33)) = .next t :=
  fun h => (h.1 (wTest (cLinkTest 2 7 33)) 7 (cLinkTest 2 7 33) (started _ _ rfl rfl) (by decide) (by decide) (by decide) (by decide)).elim fun _ k => k.elim fun _ k => ⟨_, k.1⟩

theorem wit_test_3 : Obligations.TestsRunAndEnd → ∃ t, exec (.linkTestEnd 7 [] 0) (wRuns) = .next t :=
  fun h => (h.2.1 wRuns 7 cTestRuns _ [] 0 rfl rfl rfl).elim fun _ k => k.elim fun _ k => ⟨_, k.1⟩

theorem wit_test_4 : Obligations.TestsRunAndEnd → ∃ t, exec (.selfTest 7) (wTest cSelf) = .next t :=
  fun h => (h.2.2.1 (wTest cSelf) 7 cSelf (started _ _ rfl rfl) (by decide) (by decide) (by decide) (by decide) (.inl rfl) rfl (by decide) (by decide)).elim fun _ k => k.elim fun _ k => ⟨_, k.1⟩

theorem wit_test_5 : Obligations.TestsRunAndEnd → ∃ t, exec (.selfTestEnd 7 [] 1 5) (wSelf) = .next t :=
  fun h => ((h.2.2.2 wSelf 7 cSelfRuns 1 5 rfl rfl rfl).2).elim fun _ k => k.elim fun _ k => ⟨_, k.1⟩

theorem wit_good_1 : Obligations.EveryStepKeepsGood → ∀ t, step { State.reset with pending := [.powerApplied] } = .next t → t.mem.wf = true :=
  fun h => fun t k => (h Fuses.blank { State.reset with pending := [.powerApplied] } t ⟨rfl, rfl, by decide, rfl, by decide⟩ k).1

theorem wit_ptime_1 : Obligations.NoCommandSetsPtime → (match exec .ptimeMirrorUpdate w with | .next t => t | _ => w).time.ptime = w.time.ptime ∨ (match exec .ptimeMirrorUpdate w with | .next t => t | _ => w).time.ptime = w.time.ptime + 1000 :=
  fun h => (h .ptimeMirrorUpdate w (match exec .ptimeMirrorUpdate w with | .next t => t | _ => w) rfl).elim (fun e => .inl e) (fun e => .inr (e.elim (fun z => z.2) (fun z => z.elim (fun y => absurd y.2.1 (by decide)) (fun y => absurd y.1 (by decide)))))

theorem wit_rings_1 : Obligations.ControlRingsGoFirst → (ringed w 5 ringDue).fetchable 5 = true :=
  fun h => (h (ringed w 5 ringDue) 5 _ rfl).1

end Sys2Proof.Tests
end

section
/-! SUPPORT. Reads of registers that clear (R8, R22, R370). -/

namespace Sys2Proof.Machine

open Sys2Proof

/-- A command that runs `rcRead` reads a read-to-clear register: with the BARs open and Vilmin alive, the halves that the read covers are
those that it returns and clears. -/
theorem readToClear_of_exec_eq_rcRead {i : Half → Instr} {value : State → Word64} {low high : State → State}
    (h : ∀ half s, exec (i half) s = .next (rcRead half value low high s)) : ReadToClear i value low high := by
  rintro s ⟨hopen, halive⟩
  simp [h, rcRead, hopen, halive, readPart, Half.low?, Half.high?]

/-- A read of the low half of SEC_PTIME latches the high half as it stands. -/
theorem exec_secPtimeLowRead_of_open {s : State} (h : RegistersOpen s) :
    exec .secPtimeLowRead s = .next
      { s with out := s.out ++ [.readData (s.time.ptime &&& 0xFFFFFFFF)]
               time := { s.time with shadow := some (s.time.ptime.extractLsb' 32 32) } } := by
  obtain ⟨hopen, halive⟩ := h
  have hread : atBar ptimeLow s = emit (.readData s.time.low) (s.updTime (fun t => { t with shadow := some t.high })) := by
    simp [atBar, ptimeLow, hopen, halive]
  exact congrArg Host.Outcome.next hread

/-- A read of the high half of SEC_PTIME uses up the latched half, and finds the live one when none is latched. -/
theorem exec_secPtimeHighRead_of_open {s : State} (h : RegistersOpen s) :
    exec .secPtimeHighRead s = .next
      { s with out := s.out ++ [.readData ((s.time.shadow.getD (s.time.ptime.extractLsb' 32 32)).setWidth 64)]
               time := { s.time with shadow := none } } := by
  obtain ⟨hopen, halive⟩ := h
  have hread : atBar ptimeHigh s
      = emit (.readData ((s.time.shadow.getD s.time.high).setWidth 64)) (s.updTime (fun t => { t with shadow := none })) := by
    simp [atBar, ptimeHigh, hopen, halive]
  exact congrArg Host.Outcome.next hread

/-- Settles O8: every read-to-clear register is read by `rcRead` with its own value and fields, for every port, stack, link, lane, core
and input, and SEC_PTIME by its two reads. -/
theorem readsClearWhatTheyReturn : Obligations.ReadsClearWhatTheyReturn := by
  unfold Obligations.ReadsClearWhatTheyReturn
  refine ⟨⟨?_, ?_, ?_, ?_, ?_, fun _port => ?_, ?_, ?_, ?_, ?_, ?_, ?_⟩,
    ⟨?_, ?_, ?_, fun _stack => ?_, ?_, ?_, fun _link => ?_, fun _link _lane => ?_, ?_, ?_, fun _core => ?_, fun _core => ?_, ?_, ?_, ?_,
      fun _input => ?_, fun _ hs => ⟨exec_secPtimeLowRead_of_open hs, exec_secPtimeHighRead_of_open hs⟩⟩⟩
  all_goals exact readToClear_of_exec_eq_rcRead (fun _ _ => rfl)

end Sys2Proof.Machine
end

section
/-! SUPPORT. A denied DEBUG_READ while the reel is enabled: its DEBUG_DENIED is an event of the command (R70, R423). -/

namespace Sys2Proof.Machine

open Sys2Proof

/-- A started DEBUG_READ of the line at 8 GiB of stack 0, the first protected one (R348), into 64 bytes at bus address 0. -/
def protectedLineRead : Cmd :=
  { (default : Cmd) with
    op := .debugRead, phase := .started
    slate := zeros 40 ++ toLE 4 64 ++ zeros 8 ++ toLE 4 64 ++ toLE 8 0x200000000 }

/-- A device with its reel enabled, the shuttle free to issue and the stacks in service, on which that read is command 7. -/
def reelEnabledReader : State :=
  { State.reset with
    cmds := [(7, protectedLineRead)]
    reel := { Reel.reset with enable := true, enabled := true }
    pcie := { Pcie.reset with ready := true, busMaster := true, memSpace := true }
    mem := { Memory.reset with bobbins := List.replicate 8 { Stack.reset with inService := true } } }

/-- The commands whose completions wait for the queued events of the next state (R70). -/
def queuedCids : Host.Outcome State Fault Refusal → List (Option Nat)
  | .next t => t.reel.queue.map (·.cid)
  | .fault _ => []
  | .refused _ => []

theorem started_protectedLineRead : Started reelEnabledReader 7 .debugRead protectedLineRead := ⟨rfl, rfl, .inl rfl⟩

/-- `runRow` makes the DEBUG_DENIED that the read posts the command's. -/
theorem queuedCids_exec_debugRead : queuedCids (exec (.debugRead 7) reelEnabledReader) = [some 7] := by decide

/-- Refutes O39: its clause on a DEBUG_READ of device memory completes the command on `denyLines` alone. With the reel enabled, a denied
read's DEBUG_DENIED names the command, since it is an event that the command's execution posts (R70), so `exec` ends in another state:
on `reelEnabledReader` the queue holds an event of command 7 where the statement has one of no command. -/
theorem not_registersAreWrittenAndDebugReadsDeny : ¬ Obligations.RegistersAreWrittenAndDebugReadsDeny := by
  unfold Obligations.RegistersAreWrittenAndDebugReadsDeny
  rintro ⟨-, hdebug⟩
  have hmemory := (hdebug reelEnabledReader 7 protectedLineRead started_protectedLineRead (by decide) (by decide) (by decide)
    (by decide) (by decide) (by decide)).1
  obtain ⟨hnext, -, -⟩ := hmemory (by decide) (by decide) (by decide) (by decide) (by decide) (by decide)
  have hstated : queuedCids (exec (.debugRead 7) reelEnabledReader) = [none] := by
    rw [hnext]
    decide
  rw [queuedCids_exec_debugRead] at hstated
  exact absurd hstated (by decide)

end Sys2Proof.Machine
end

section
/-! SUPPORT. What a started command's row makes of its verdict, and checks that find nothing wrong. -/

namespace Sys2Proof.Machine

open Sys2Proof

variable {cid : Nat} {op : Opcode} {c : Cmd} {s t : State}

/-! ## Running as a command's changes the event queue alone -/

@[simp] theorem ofCommand_accum (n : Nat) : (ofCommand cid n t).accum = t.accum := by unfold ofCommand; split <;> rfl
@[simp] theorem ofCommand_ingest (n : Nat) : (ofCommand cid n t).ingest = t.ingest := by unfold ofCommand; split <;> rfl
@[simp] theorem ofCommand_mem (n : Nat) : (ofCommand cid n t).mem = t.mem := by unfold ofCommand; split <;> rfl
@[simp] theorem ofCommand_out (n : Nat) : (ofCommand cid n t).out = t.out := by unfold ofCommand; split <;> rfl

/-- Where no event was posted, none becomes the command's. -/
theorem ofCommand_of_reel (h : t.reel = s.reel) : ofCommand cid s.reel.queue.length t = t :=
  ofCommand_of_length (Nat.le_of_eq (congrArg (·.queue.length) h))

/-! ## Reading a list at a number -/

theorem unit_eq_getElem {α : Type} [Inhabited α] {l : List α} {i : Nat} (h : i < l.length) : unit l i = l[i] := by
  rw [unit, List.getD_eq_getElem?_getD, List.getElem?_eq_getElem h, Option.getD_some]

/-! ## The row of a started command -/

/-- A command that runs a row ends in the state that the row makes. -/
theorem next_congr (h : s = t) : (.next s : Host.Outcome State Fault Refusal) = .next t := congrArg _ h

/-- A started command whose verdict is to complete does so, and the events that it posted are its own (R70). -/
theorem runRow_of_done {f : Nat → Cmd → State → Verdict} {st : Status} {d r : Nat} (h : Started s cid op c)
    (hv : f cid c s = .done st d r t) : runRow op f cid s = complete cid st d r (ofCommand cid s.reel.queue.length t) := by
  obtain ⟨hcmd, hop, hphase⟩ := h
  rw [runRow_of_phase f hcmd hop hphase, hv, Verdict.ofCommand_done, settle_done]

/-- A started command whose verdict is to go on does so, and the events that it posted are its own (R70). -/
theorem runRow_of_goes {f : Nat → Cmd → State → Verdict} (h : Started s cid op c) (hv : f cid c s = .goes t) :
    runRow op f cid s = ofCommand cid s.reel.queue.length t := by
  obtain ⟨hcmd, hop, hphase⟩ := h
  rw [runRow_of_phase f hcmd hop hphase, hv, Verdict.ofCommand_goes, settle_goes]

/-- A completion that posts no event. -/
theorem runRow_of_done_of_reel {f : Nat → Cmd → State → Verdict} {st : Status} {d r : Nat} (h : Started s cid op c)
    (hv : f cid c s = .done st d r t) (hr : t.reel = s.reel) : runRow op f cid s = complete cid st d r t := by
  rw [runRow_of_done h hv, ofCommand_of_reel hr]

/-- A command that goes on and posts no event. -/
theorem runRow_of_goes_of_reel {f : Nat → Cmd → State → Verdict} (h : Started s cid op c) (hv : f cid c s = .goes t)
    (hr : t.reel = s.reel) : runRow op f cid s = t := by
  rw [runRow_of_goes h hv, ofCommand_of_reel hr]

/-- A started command that is refused changes no group and no job (R82). -/
theorem runRow_accum_of_refuse {f : Nat → Cmd → State → Verdict} {st : Status} {d r : Nat} (h : Started s cid op c)
    (hv : f cid c s = .refuse st d r) : (runRow op f cid s).accum = s.accum := by
  obtain ⟨hcmd, hop, hphase⟩ := h
  rw [runRow_of_phase f hcmd hop hphase, hv]
  simp only [Verdict.ofCommand, settle, complete_accum]
  split <;> rfl

/-! ## Checks -/

@[simp] theorem firstBad_cons {α : Type} (b : Bool) (a : α) (l : List (Bool × α)) :
    firstBad ((b, a) :: l) = if b then firstBad l else some a := rfl

@[simp] theorem firstBad_nil {α : Type} : firstBad ([] : List (Bool × α)) = none := rfl

/-- Checks that find nothing wrong go on. -/
theorem checks_of_none {l : List Check} (k : Verdict) (h : firstBad l = none) : checks l k = k := by simp [checks, h]

/-- Reserved bytes of INLINE that are zero pass their check. -/
theorem resInline_of_none {off len : Nat} (h : nonZero? c.slate (32 + off) len = none) : resInline c off len = (true, 0) := by
  simp [resInline, h]

/-- INLINE is reserved as a whole: its check passes where it is zero. -/
theorem checks_resInline (k : Verdict) (h : nonZero? c.slate 32 32 = none) : checks [resInline c 0 32] k = k :=
  checks_of_none k (by simp [resInline_of_none (off := 0) h])

end Sys2Proof.Machine
end

section
/-! SUPPORT. Freeing a ledger leaves every group and job, and a group that closes is gone (R55, R200). -/

namespace Sys2Proof.Machine

open Sys2Proof

variable (s : State)

/-- Erasing a ledger changes no group and no job. -/
@[simp] theorem freeLedger_accum (l : Nat) : (freeLedger l s).accum = s.accum :=
  foldl_keeps (fun t : State => t.accum = s.accum) _ _ _ rfl (fun _ _ h => h)

/-- Freeing the ledgers that nothing needs changes no group and no job. -/
@[simp] theorem freeLedgers_accum : (freeLedgers s).accum = s.accum :=
  foldl_keeps (fun t : State => t.accum = s.accum) _ _ _ rfl (fun t e h => (freeLedger_accum t e.1).trans h)

/-- A group that closes is gone. -/
@[simp] theorem group?_closeGroup_same (g : Nat) (k : Group) : (closeGroup g k s).group? g = none := by
  simp [closeGroup, State.group?]

end Sys2Proof.Machine
end

section
/-! SUPPORT. Groups that open and close, and graphs that load (R38, R44 to R47, R51, R55). -/

namespace Sys2Proof.Machine

open Sys2Proof

variable {cid : Nat} {c : Cmd} {s u : State} {k : Group}

/-- Placing a group's banks says no more than whether they lie in bobbin memory, and takes only memory (R184). -/
theorem eq_of_placeBanks {g : Nat} {p : Group} (h : placeBanks g p s = some (k, u)) : k = { p with spilled := k.spilled } := by
  unfold placeBanks at h
  split at h
  · cases h; rfl
  · split at h
    · cases h
    · simp only [Option.map_eq_some_iff, Prod.mk.injEq] at h
      obtain ⟨_, _, rfl, rfl⟩ := h
      rfl

/-- The state after GROUP_OPEN has placed a group: it stands under its number, with its job's default policy where there is one. -/
def State.withGroup (u : State) (g : Nat) (k : Group) : State :=
  let v := { u with accum := { u.accum with groups := Table.put u.accum.groups g k } }
  match Table.get? v.gate.defaults k.job with
  | none => v
  | some p => { v with gate := { v.gate with policies := Table.put v.gate.policies g p } }

@[simp] theorem withGroup_accum (u : State) (g : Nat) (k : Group) :
    (u.withGroup g k).accum = { u.accum with groups := Table.put u.accum.groups g k } := by
  unfold State.withGroup; dsimp only; split <;> rfl
@[simp] theorem withGroup_mem (u : State) (g : Nat) (k : Group) : (u.withGroup g k).mem = u.mem := by
  unfold State.withGroup; dsimp only; split <;> rfl
@[simp] theorem withGroup_out (u : State) (g : Nat) (k : Group) : (u.withGroup g k).out = u.out := by
  unfold State.withGroup; dsimp only; split <;> rfl

/-- GROUP_OPEN refuses with no effect, or places the group where its banks fit. -/
theorem opGroupOpen_cases (cid : Nat) (c : Cmd) (s : State) :
    (∃ st d, opGroupOpen cid c s = .refuse st d 0)
    ∨ ∃ k u, placeBanks (c.inl 0 1) (groupOf c s) s = some (k, u) ∧ opGroupOpen cid c s = ok 0 (u.withGroup (c.inl 0 1) k) := by
  simp only [opGroupOpen, checks]
  split
  · exact .inl ⟨_, _, rfl⟩
  · split
    · exact .inl ⟨_, _, rfl⟩
    · split
      · exact .inl ⟨_, _, rfl⟩
      · next k u hplace => exact .inr ⟨k, u, hplace, rfl⟩

/-- GROUP_OPEN with fields in order, a free number and an open job places the group where its banks fit. -/
theorem opGroupOpen_of_place (hchecks : firstBad (groupChecks c s) = none) (hfree : s.group? (c.inl 0 1) = none)
    (hjob : (s.job? (c.inl 1 1)).isSome = true) (hplace : placeBanks (c.inl 0 1) (groupOf c s) s = some (k, u)) :
    opGroupOpen cid c s = ok 0 (u.withGroup (c.inl 0 1) k) := by
  simp only [opGroupOpen, checks_of_none _ hchecks]
  rw [if_neg (by simp [hfree, Option.isSome_iff_ne_none.1 hjob]), hplace]
  rfl

/-- GROUP_OPEN places the group (R44 to R47). -/
theorem exec_groupOpen_of_place (h : Started s cid .groupOpen c) (hchecks : firstBad (groupChecks c s) = none)
    (hfree : s.group? (c.inl 0 1) = none) (hjob : (s.job? (c.inl 1 1)).isSome = true)
    (hplace : placeBanks (c.inl 0 1) (groupOf c s) s = some (k, u)) :
    exec (.groupOpen cid) s
      = .next (complete cid .ok 0 0 (ofCommand cid s.reel.queue.length (u.withGroup (c.inl 0 1) k))) :=
  next_congr (runRow_of_done h (opGroupOpen_of_place hchecks hfree hjob hplace))

/-- The station graph that GRAPH_LOAD's block describes (R38 to R41). -/
def graphOfBlock (b : Bytes) : Graph :=
  { mode := modeOf (leAt b 3 1), nodes := (nodesOf b).map (·.2), edges := (edgesOf b).map (·.2),
    layout := (layoutOf b).map (fun x => (x.2.1, x.2.2)), segments := leAt b 12 4 }

/-- GRAPH_LOAD of a block in order, in a job with no take open, replaces the job's graph and mode (R38 to R42). -/
theorem exec_graphLoad_of_accepted {jb : Job} (h : Started s cid .graphLoad c) (hslate : c.job = 0xFF ∨ c.job = leAt c.body 2 1)
    (hinline : nonZero? c.slate 32 32 = none) (hfields : firstBad (graphFields c.body) = none)
    (hshape : firstBad (graphShape c.body) = none) (hgroups : firstBad (graphGroups s (leAt c.body 2 1) c.body) = none)
    (hjob : s.job? (leAt c.body 2 1) = some jb) (hfilling : jb.filling = none) :
    exec (.graphLoad cid) s = .next (complete cid .ok 0 0 (s.updJob (leAt c.body 2 1) (fun jb =>
      { jb with graph := some (graphOfBlock c.body), mode := some (modeOf (leAt c.body 3 1)) }))) := by
  have hnames : firstBad [c.jobIs (leAt c.body 2 1), resInline c 0 32] = none := by
    simp [Cmd.jobIs, resInline_of_none (off := 0) hinline, hslate]
  refine next_congr (runRow_of_done_of_reel h ?_ rfl)
  simp only [opGraphLoad, checks_of_none _ hnames, checks_of_none _ hfields, checks_of_none _ hshape, checks_of_none _ hgroups,
    hjob, hfilling, Option.isSome_none, Bool.false_eq_true, if_false, ok, graphOfBlock]

/-- GROUP_CLOSE of a group that may close erases it (R55). -/
theorem exec_groupClose_of_mayClose (h : Started s cid .groupClose c) (hinline : nonZero? c.slate 32 32 = none)
    (hgroup : s.groupOf c.job c.group = some k) (hclose : s.mayClose c.group k = true) :
    exec (.groupClose cid) s = .next (complete cid .ok 0 0 (forCommand cid (closeGroup c.group k) s)) :=
  next_congr (runRow_of_done h (by simp only [opGroupClose, checks_resInline _ hinline, hgroup, hclose, if_true, ok]))

/-- BANK_ZEROED ends the zeroing of a bank (R51). -/
theorem exec_bankZeroed_of_zeroing {g : Nat} {isB : Bool} (hgroup : s.group? g = some k) (hmode : (k.bank isB).mode = .zeroing) :
    exec (.bankZeroed g isB) s = .next (s.updBank g isB (fun _ => Bank.zeroed k.startScale)) := by
  have hrow : exec (.bankZeroed g isB) s = execBankZeroed g isB s := rfl
  simp only [hrow, execBankZeroed, hgroup, hmode, if_true]

/-- The group that GROUP_OPEN describes starts at sequence number 0 with both banks in ZERO (R44, R45, R51). -/
theorem groupOf_starts (c : Cmd) (s : State) :
    (groupOf c s).nextSeq = 0 ∧ (groupOf c s).job = c.inl 1 1 ∧ (groupOf c s).count = c.inl 4 4
    ∧ ((groupOf c s).bank false).mode = .zero ∧ ((groupOf c s).bank true).mode = .zero := ⟨rfl, rfl, rfl, rfl, rfl⟩

/-- Settles O13: each command's effect as its equation gives it, with the group that GROUP_OPEN describes as `placeBanks` leaves it. -/
theorem groupsOpenAndClose : Obligations.GroupsOpenAndClose := by
  unfold Obligations.GroupsOpenAndClose
  refine ⟨?_, fun s cid c jb => exec_graphLoad_of_accepted, ?_, fun s g isB k => exec_bankZeroed_of_zeroing⟩
  · intro s u cid c k hstarted hchecks hfree hjob hplace
    refine ⟨_, exec_groupOpen_of_place hstarted hchecks hfree hjob hplace, by simp [State.group?], ?_⟩
    rw [eq_of_placeBanks hplace]
    obtain ⟨hseq, hof, hcount, hzeroA, hzeroB⟩ := groupOf_starts c s
    exact ⟨hseq, hof, hcount, hzeroA, hzeroB, by simp, by simp, by simp⟩
  · intro s cid c k hstarted hinline hgroup hclose
    exact ⟨exec_groupClose_of_mayClose hstarted hinline hgroup hclose, group?_closeGroup_same s c.group k⟩

end Sys2Proof.Machine
end

section
/-! SUPPORT. The slices of a group that GROUP_OPEN places (R46, R47). -/

namespace Sys2Proof.Machine

open Sys2Proof

/-! ## `lowest` finds the lowest -/

/-- What `lowest` finds lies in its range, satisfies the predicate, and nothing below it does. -/
theorem lowest_eq_some {p : Nat → Bool} {n i k : Nat} (h : lowest p n i = some k) :
    k < i + n ∧ p k = true ∧ ∀ j, i ≤ j → j < k → p j = false := by
  induction n generalizing i with
  | zero => simp [lowest] at h
  | succ n ih =>
    simp only [lowest] at h
    split at h
    · next hp =>
      cases h
      exact ⟨by omega, hp, fun j _ _ => by omega⟩
    · next hp =>
      obtain ⟨hlt, hpk, hbelow⟩ := ih h
      refine ⟨by omega, hpk, fun j hij hjk => ?_⟩
      rcases Nat.eq_or_lt_of_le hij with rfl | hlt'
      · exact Bool.eq_false_iff.2 hp
      · exact hbelow j hlt' hjk

/-- Where `lowest` finds nothing, nothing in its range satisfies the predicate. -/
theorem lowest_eq_none {p : Nat → Bool} {n i : Nat} (h : lowest p n i = none) : ∀ j, i ≤ j → j < i + n → p j = false := by
  induction n generalizing i with
  | zero => exact fun j _ _ => by omega
  | succ n ih =>
    simp only [lowest] at h
    split at h
    · cases h
    · next hp =>
      intro j hij hj
      rcases Nat.eq_or_lt_of_le hij with rfl | hlt
      · exact Bool.eq_false_iff.2 hp
      · exact ih h j hlt (by omega)

/-! ## S (R46) -/

/-- A request is granted as it stands. -/
theorem sliceSize_of_request {request : Nat} (tiles active : Nat) (h : request ≠ 0) : sliceSize request tiles active = request := by
  simp [sliceSize, h]

/-- Without a request S is the smallest power of two up to 4 096 that gives no more slices than cores, and 4 096 where none does. -/
theorem sliceSize_zero (tiles active : Nat) : ∃ i ≤ 12, sliceSize 0 tiles active = 2 ^ i
    ∧ ((tiles + 2 ^ i - 1) / 2 ^ i ≤ active ∨ i = 12) ∧ ∀ j < i, active < (tiles + 2 ^ j - 1) / 2 ^ j := by
  simp only [sliceSize, ne_eq, not_true_eq_false, if_false]
  split
  · next k hk =>
    obtain ⟨hlt, hfits, hbelow⟩ := lowest_eq_some hk
    refine ⟨k, by omega, rfl, .inl (of_decide_eq_true hfits), fun j hj => ?_⟩
    exact Nat.lt_of_not_le (of_decide_eq_false (hbelow j (Nat.zero_le j) hj))
  · next hk =>
    refine ⟨12, Nat.le_refl 12, rfl, .inr rfl, fun j hj => ?_⟩
    exact Nat.lt_of_not_le (of_decide_eq_false (lowest_eq_none hk j (Nat.zero_le j) (by omega)))

/-- A slice holds at least one tile. -/
theorem sliceSize_pos (request tiles active : Nat) : 0 < sliceSize request tiles active := by
  by_cases h : request = 0
  · subst h
    obtain ⟨i, -, hsize, -⟩ := sliceSize_zero tiles active
    rw [hsize]
    exact Nat.two_pow_pos i
  · rw [sliceSize_of_request tiles active h]
    exact Nat.pos_of_ne_zero h

/-! ## Tiles in slices -/

/-- A tile of the vector lies in one of the ⌈T / S⌉ slices. -/
theorem Group.sliceOf_lt {k : Group} {tile : Nat} (hsize : 0 < k.sliceTiles) (htile : tile < k.tiles) :
    k.sliceOf tile < (k.tiles + k.sliceTiles - 1) / k.sliceTiles := by
  have hle : tile / k.sliceTiles * k.sliceTiles ≤ tile := Nat.div_mul_le_self tile k.sliceTiles
  rw [Group.sliceOf, Nat.lt_iff_add_one_le, Nat.le_div_iff_mul_le hsize, Nat.add_mul]
  omega

/-- Slice `j` holds the tiles from jS up to min((j + 1)S, T). -/
theorem Group.sliceOf_eq_iff {k : Group} {tile : Nat} (j : Nat) (hsize : 0 < k.sliceTiles) (htile : tile < k.tiles) :
    k.sliceOf tile = j ↔ j * k.sliceTiles ≤ tile ∧ tile < min ((j + 1) * k.sliceTiles) k.tiles := by
  have hnext : (j + 1) * k.sliceTiles = j * k.sliceTiles + k.sliceTiles := Nat.succ_mul j k.sliceTiles
  rw [Group.sliceOf, Nat.div_eq_iff hsize]
  omega

/-! ## The slices that GROUP_OPEN's INLINE describes -/

variable {cid : Nat} {c : Cmd} {s t : State} {k : Group}

theorem groupOf_sliceTiles (c : Cmd) (s : State) :
    (groupOf c s).sliceTiles = sliceSize (c.inl 8 2) (groupOf c s).tiles s.activeCores.length := rfl

/-- There are ⌈T / S⌉ slices. -/
theorem groupOf_slices_length (c : Cmd) (s : State) : (groupOf c s).slices.length
    = ((groupOf c s).tiles + (groupOf c s).sliceTiles - 1) / (groupOf c s).sliceTiles := by
  simp only [groupOf, List.length_map, List.length_range, Group.tiles, Group.per]

/-- Slice `j` of group g lies on the active core at position (j + g) mod n (R47). -/
theorem groupOf_slice_core {j : Nat} (h : j < (groupOf c s).slices.length) :
    (unit (groupOf c s).slices j).core = unit s.activeCores ((j + c.inl 0 1) % s.activeCores.length) := by
  rw [unit_eq_getElem h]
  simp only [groupOf, List.getElem_map, List.getElem_range]

/-- The group that stands under a free number after GROUP_OPEN is the one that its INLINE describes, but for where its banks lie. -/
theorem eq_groupOf_of_exec_groupOpen (h : Started s cid .groupOpen c) (hfree : s.group? (c.inl 0 1) = none)
    (hexec : exec (.groupOpen cid) s = .next t) (hgroup : t.group? (c.inl 0 1) = some k) :
    k = { groupOf c s with spilled := k.spilled } := by
  have hrow : runRow .groupOpen opGroupOpen cid s = t := Host.Outcome.next.inj hexec
  rcases opGroupOpen_cases cid c s with ⟨st, d, hrefuse⟩ | ⟨k', u, hplace, hdone⟩
  · have hsame : t.accum = s.accum := hrow ▸ runRow_accum_of_refuse h hrefuse
    rw [State.group?, hsame] at hgroup
    exact absurd (hgroup.symm.trans hfree) (by simp)
  · rw [runRow_of_done h hdone] at hrow
    have hput : t.group? (c.inl 0 1) = some k' := by rw [← hrow]; simp [State.group?]
    obtain rfl : k' = k := Option.some.inj (hput.symm.trans hgroup)
    exact eq_of_placeBanks hplace

/-- Settles O60: the placed group is the one that INLINE describes, whose S, slices and cores are those of R46 and R47. -/
theorem slicesFitTheActiveCores : Obligations.SlicesFitTheActiveCores := by
  unfold Obligations.SlicesFitTheActiveCores
  intro s t cid c k hstarted hfree hexec hgroup
  rw [eq_groupOf_of_exec_groupOpen hstarted hfree hexec hgroup]
  have hsize : (groupOf c s).sliceTiles = sliceSize (c.inl 8 2) (groupOf c s).tiles s.activeCores.length := groupOf_sliceTiles c s
  have hpos : 0 < (groupOf c s).sliceTiles := sliceSize_pos _ _ _
  refine ⟨fun hrequest => hsize.trans (sliceSize_of_request _ _ hrequest), fun hzero => ?_, groupOf_slices_length c s,
    fun tile htile => ?_, fun tile j htile => Group.sliceOf_eq_iff (k := groupOf c s) j hpos htile, fun j hj => groupOf_slice_core hj⟩
  · rw [hzero] at hsize
    obtain ⟨i, hi, hpower, hfits, hbelow⟩ := sliceSize_zero (groupOf c s).tiles s.activeCores.length
    exact ⟨i, hi, hsize.trans hpower, hfits, hbelow⟩
  · have hlt := Group.sliceOf_lt (k := groupOf c s) hpos htile
    rwa [← groupOf_slices_length] at hlt

end Sys2Proof.Machine
end

section
/-! SUPPORT. Takes that open, close, drain and abort (R52, R53, R200). -/

namespace Sys2Proof.Machine

open Sys2Proof

variable {cid : Nat} {c : Cmd} {s t : State} {jb : Job}

/-! ## What the operations of a take leave unchanged -/

/-- A change of the rest of the state leaves an outstanding job and group as they are. -/
theorem job?_of_jobs (h : t.accum.jobs = s.accum.jobs) (j : Nat) : t.job? j = s.job? j := by simp [State.job?, h]
theorem group?_of_groups (h : t.accum.groups = s.accum.groups) (g : Nat) : t.group? g = s.group? g := by simp [State.group?, h]

@[simp] theorem installKey_mem (n : KeyName) (k : Bytes) (s : State) : (installKey n k s).mem = s.mem := rfl
@[simp] theorem installKey_out (n : KeyName) (k : Bytes) (s : State) : (installKey n k s).out = s.out := rfl
@[simp] theorem installKey_accum (n : KeyName) (k : Bytes) (s : State) : (installKey n k s).accum = s.accum := rfl
@[simp] theorem installKey_ingest (n : KeyName) (k : Bytes) (s : State) : (installKey n k s).ingest = s.ingest := rfl
@[simp] theorem dropKeys_mem (p : KeyName → Bool) (s : State) : (dropKeys p s).mem = s.mem := rfl
@[simp] theorem dropKeys_out (p : KeyName → Bool) (s : State) : (dropKeys p s).out = s.out := rfl
@[simp] theorem dropKeys_accum (p : KeyName → Bool) (s : State) : (dropKeys p s).accum = s.accum := rfl
@[simp] theorem dropKeys_ingest (p : KeyName → Bool) (s : State) : (dropKeys p s).ingest = s.ingest := rfl

@[simp] theorem rotateJobPair_mem (j : Nat) (s : State) : (rotateJobPair j s).mem = s.mem := by
  unfold rotateJobPair; split <;> simp [postKeyChanged, State.updJob]
@[simp] theorem rotateJobPair_out (j : Nat) (s : State) : (rotateJobPair j s).out = s.out := by
  unfold rotateJobPair; split <;> simp [postKeyChanged, State.updJob]
@[simp] theorem rotateJobPair_ingest (j : Nat) (s : State) : (rotateJobPair j s).ingest = s.ingest := by
  unfold rotateJobPair; split <;> simp [postKeyChanged, State.updJob]
@[simp] theorem rotateJobPair_groups (j : Nat) (s : State) : (rotateJobPair j s).accum.groups = s.accum.groups := by
  unfold rotateJobPair; split <;> simp [postKeyChanged, State.updJob]

/-- A staged pair that goes into service changes the job's pair, and nothing of its takes (R295). -/
theorem job?_rotateJobPair_same {j : Nat} {q : Job} (h : s.job? j = some q) :
    ∃ r, (rotateJobPair j s).job? j = some r ∧ r.filling = q.filling ∧ r.lastTake = q.lastTake ∧ r.tokens = q.tokens := by
  unfold rotateJobPair
  split
  · exact ⟨q, h, rfl, rfl, rfl⟩
  · next ek _ =>
    have hget : Table.get? s.accum.jobs j = some q := h
    refine ⟨{ q with ek := ek, ekSerial := q.ekSerial + 1, staged := none }, ?_, rfl, rfl, rfl⟩
    simp [State.job?, postKeyChanged, State.updJob, hget]

/-! ## TAKE_OPEN (R52) -/

/-- A job whose take opens, with no token taken yet. -/
def Job.opened (jb : Job) (take : Nat) : Job :=
  { jb with lastTake := some take, filling := some take, tokens := [], trigs := List.replicate 64 0 }

/-- The groups' next banks fill, and the job's take changes. -/
def fillTake (j take : Nat) (s : State) : State :=
  State.updJob { s with accum := { s.accum with groups := Table.mapAll s.accum.groups (fun _ k => k.takeOpened j take) } } j
    (·.opened take)

/-- What TAKE_OPEN does once its banks are there: the take fills, a staged pair goes into service, and partials of earlier takes go. -/
def openTake (j take : Nat) (s : State) : State := dropHeld j (fun x => decide (x < take)) (rotateJobPair j (fillTake j take s))

@[simp] theorem openTake_mem (j take : Nat) (s : State) : (openTake j take s).mem = s.mem := by
  simp [openTake, dropHeld, fillTake, State.updJob]
@[simp] theorem openTake_out (j take : Nat) (s : State) : (openTake j take s).out = s.out := by
  simp [openTake, dropHeld, fillTake, State.updJob]
@[simp] theorem openTake_ingest (j take : Nat) (s : State) : (openTake j take s).ingest = s.ingest := by
  simp [openTake, dropHeld, fillTake, State.updJob]

/-- Groups of other jobs keep their banks, and a group of the job fills its next one. -/
theorem group?_openTake {g : Nat} {k : Group} (j take : Nat) (h : s.group? g = some k) :
    (openTake j take s).group? g = some (k.takeOpened j take) := by
  have hget : Table.get? s.accum.groups g = some k := h
  simp [State.group?, openTake, dropHeld, fillTake, State.updJob, hget]

/-- The job's take is the one that opened, with no token taken yet. -/
theorem job?_openTake {j : Nat} (take : Nat) (h : s.job? j = some jb) :
    ∃ q, (openTake j take s).job? j = some q ∧ q.filling = some take ∧ q.lastTake = some take ∧ q.tokens = [] := by
  have hget : Table.get? s.accum.jobs j = some jb := h
  exact job?_rotateJobPair_same (q := jb.opened take) (by simp [State.job?, fillTake, State.updJob, hget])

/-- The mask of a TAKE_OPEN's RESULT: a bit for each group whose bank B fills. -/
def State.openMask (s : State) (j : Nat) : Nat := ((s.jobGroups j).map (fun e => if e.2.nextBank = some true then 2 ^ e.1 else 0)).sum

/-- TAKE_OPEN of a later take, in a job with a graph and no take open, opens it once every group has a bank in ZERO. -/
theorem opTakeOpen_of_zero (hjob : s.job? c.job = some jb) (hlater : ∀ x, jb.lastTake = some x → x < c.inl 0 4)
    (hinline : nonZero? c.slate 36 28 = none) (hfilling : jb.filling = none) (hgraph : jb.graph.isSome = true)
    (hgroups : ∀ e ∈ s.jobGroups c.job, e.2.failed = none ∧ e.2.nextBank.isSome = true) :
    opTakeOpen cid c s = .done .ok 0 (s.openMask c.job) (openTake c.job (c.inl 0 4) s) := by
  have hlast : (jb.lastTake.map (fun x => decide (x < c.inl 0 4))).getD true = true := by
    cases h : jb.lastTake with
    | none => rfl
    | some x => simpa using hlater x h
  have hchecks : firstBad [((jb.lastTake.map (fun x => decide (x < c.inl 0 4))).getD true, inlineAt 0), resInline c 4 28] = none := by
    simp [hlast, resInline_of_none (off := 4) hinline]
  have hfailed : (s.jobGroups c.job).any (fun e => e.2.failed.isSome) = false := by
    rw [List.any_eq_false]; intro e he; simp [(hgroups e he).1]
  have hnone : (s.jobGroups c.job).any (fun e => e.2.nextBank.isNone) = false := by
    rw [List.any_eq_false]; intro e he; simp [Option.isSome_iff_ne_none.1 (hgroups e he).2]
  simp only [opTakeOpen, hjob, checks_of_none _ hchecks]
  rw [if_neg (by simp [hfilling, Option.isSome_iff_ne_none.1 hgraph, hfailed]), if_neg (by simp [hnone])]
  rfl

/-! ## TAKE_CLOSE and its barrier (R52, R200) -/

/-- A group of the job has its FILLING bank DRAINING after the barrier. -/
theorem group?_closeBarrier {g : Nat} {k : Group} (j : Nat) (h : s.group? g = some k) :
    (closeBarrier j s).group? g = some (k.drainFilling j) := by
  have hget : Table.get? s.accum.groups g = some k := h
  simp [State.group?, closeBarrier, State.updJob, hget]

theorem allocIn_reel {o : Owner} {b n : Nat} (h : allocIn o b n s = some t) : t.reel = s.reel := by
  unfold allocIn at h
  split at h
  · cases h; rfl
  · obtain ⟨_, -, rfl⟩ := Option.map_eq_some_iff.1 h; rfl

theorem alloc_reel {o : Owner} {n : Nat} (h : alloc o n s = some t) : t.reel = s.reel := by
  unfold alloc at h
  split at h
  · cases h; rfl
  · obtain ⟨_, -, hin⟩ := Option.bind_eq_some_iff.1 h
    exact allocIn_reel hin

/-- A fold of steps that each keep a property, where they succeed, keeps it where it succeeds. -/
theorem foldl_bind_keeps {α β : Type} (p : β → Prop) {f : α → β → Option β} {l : List α} {m : Option β} {b : β}
    (h : l.foldl (fun (m : Option β) a => m.bind (f a)) m = some b) (hm : ∀ x, m = some x → p x)
    (hf : ∀ a x y, f a x = some y → p x → p y) : p b :=
  foldl_keeps (fun m : Option β => ∀ x, m = some x → p x) _ l m hm
    (fun m a hkeep y hy => by
      obtain ⟨x, hx, hstep⟩ := Option.bind_eq_some_iff.1 hy
      exact hf a x y hstep (hkeep x hx)) b h

theorem allocSpread_reel {o : Owner} {n : Nat} (h : allocSpread o n s = some t) : t.reel = s.reel := by
  unfold allocSpread at h
  dsimp only at h
  split at h
  · cases h
  · exact foldl_bind_keeps (fun x : State => x.reel = s.reel) h (fun _ hx => by cases hx; rfl)
      (fun _ _ _ hstep hkeep => (allocIn_reel hstep).trans hkeep)

theorem placeSum_reel {l g : Nat} (h : placeSum l g s = some t) : t.reel = s.reel := by
  unfold placeSum at h
  split at h
  · cases h; rfl
  · split at h
    · cases h; rfl
    · exact allocSpread_reel h

/-- Forming a ledger posts no event. -/
theorem formLedger_reel {j l take : Nat} (h : formLedger j l jb take s = some t) : t.reel = s.reel := by
  unfold formLedger at h
  exact foldl_bind_keeps (fun x : State => x.reel = s.reel) h (fun _ hx => (alloc_reel hx).trans rfl)
    (fun _ _ _ hstep hkeep => (placeSum_reel hstep).trans hkeep)

@[simp] theorem commit_reel (cid : Nat) (w : Work) (s : State) : (commit cid w s).reel = s.reel := by
  unfold commit; split <;> simp [State.updCmd]

/-- TAKE_CLOSE of a job's filling take, with no earlier GROUP_DRAIN waiting: outside mode M its barrier falls at once. -/
theorem opTakeClose_of_open {take : Nat} (hinline : nonZero? c.slate 32 32 = none) (hjob : s.job? c.job = some jb)
    (hfilling : jb.filling = some take) (hwaits : s.drainWaits cid c.job = false) (hbanks : s.fillingBanks c.job ≠ [])
    (hmode : jb.mode ≠ some .masked) :
    opTakeClose cid c s = .goes (commit cid (.draining (s.fillingBanks c.job) false 0) (closeBarrier c.job s)) := by
  simp only [opTakeClose, checks_resInline _ hinline, hjob, hfilling, hwaits, hmode, false_and, if_false, Bool.false_eq_true,
    List.isEmpty_iff, hbanks]

/-- TAKE_CLOSE in mode M: its barrier falls once the job has a free ledger in which the take's fits (R200). -/
theorem opTakeClose_of_masked {take l : Nat} {u : State} (hinline : nonZero? c.slate 32 32 = none) (hjob : s.job? c.job = some jb)
    (hfilling : jb.filling = some take) (hwaits : s.drainWaits cid c.job = false) (hbanks : s.fillingBanks c.job ≠ [])
    (hmode : jb.mode = some .masked) (hfree : [2 * c.job, 2 * c.job + 1].find? (fun l => !Table.has s.masks.ledgers l) = some l)
    (hform : formLedger c.job l jb take (closeBarrier c.job s) = some u) :
    opTakeClose cid c s = .goes (commit cid (.draining (s.fillingBanks c.job) false 0) u) := by
  simp only [opTakeClose, checks_resInline _ hinline, hjob, hfilling, hwaits, hmode, hfree, hform, if_true, if_false, Bool.false_eq_true,
    List.isEmpty_iff, hbanks, Option.isNone_some, and_false, Option.getD_some]

/-! ## GROUP_DRAIN (R53) and TAKE_ABORT (R52) -/

/-- A group whose FILLING bank is cut from its take, which goes on in the other bank. -/
def Group.drained (q : Group) (b : Bool) (take : Nat) : Group :=
  ((q.updBank b (fun x => { x with mode := .draining, stop := some q.nextSeq, cut := true })).fill (!b) take).updBank (!b)
    (fun x => { x with cut := true })

/-- GROUP_DRAIN of a group whose other bank is in ZERO. -/
theorem opGroupDrain_of_zero {k : Group} {b : Bool} (hinline : nonZero? c.slate 32 32 = none) (hgroup : s.groupOf c.job c.group = some k)
    (hfailed : k.failed = none) (hfilling : k.filling = some b) (hzero : (k.bank (!b)).mode = .zero) :
    opGroupDrain cid c s = .goes (commit cid (.draining [(c.group, b)] false k.nextSeq)
      (s.updGroup c.group (fun q => q.drained b (k.bank b).take))) := by
  simp only [opGroupDrain, checks_resInline _ hinline, hgroup, hfailed, hfilling, hzero, ne_eq, not_true_eq_false, if_false]
  rfl

/-- TAKE_ABORT of a job with a FILLING or DRAINING take. -/
theorem opTakeAbort_of_open (hinline : nonZero? c.slate 32 32 = none) (hjob : s.job? c.job = some jb)
    (hopen : jb.filling.isSome = true ∨ s.drainingBanks c.job ≠ []) :
    opTakeAbort cid c s = .done .aborted 0 0 (abortTakes c.job s) := by
  simp only [opTakeAbort, checks_resInline _ hinline, hjob]
  refine if_neg fun ⟨hnone, hempty⟩ => ?_
  rcases hopen with hsome | hbanks
  · rw [Option.isNone_iff_eq_none.1 hnone] at hsome; cases hsome
  · exact hbanks (List.isEmpty_iff.1 hempty)

/-! ## The statement -/

/-- Settles O14: each command's verdict under the statement's conditions, which its resume or barrier row repeats, and what the opened
take, the barrier and the ledger leave as it was. -/
theorem takesOpenCloseAndDrain : Obligations.TakesOpenCloseAndDrain := by
  unfold Obligations.TakesOpenCloseAndDrain
  refine ⟨?opens, ?closes, ?drains, ?aborts⟩
  case opens =>
    intro s cid c jb hstarted hjob hlater hinline hfilling hgraph hgroups
    have hrow := next_congr (runRow_of_done hstarted
      (opTakeOpen_of_zero (cid := cid) hjob hlater hinline hfilling hgraph hgroups))
    refine ⟨_, _, hrow, hrow, rfl, ?_, fun g k hg => ?_, by simp, by simp, by simp⟩
    · obtain ⟨q, hq, hrest⟩ := job?_openTake (c.inl 0 4) hjob
      exact ⟨q, (job?_of_jobs (by simp) c.job).trans hq, hrest⟩
    · exact (group?_of_groups (by simp) g).trans (group?_openTake c.job (c.inl 0 4) hg)
  case closes =>
    intro s cid c jb take hstarted hinline hjob hfilling hwaits hbanks
    refine ⟨fun hmode => ?_, fun l u hmode hfree hform => ?_, fun g k hg => group?_closeBarrier c.job hg⟩
    · have hrow := next_congr (runRow_of_goes_of_reel hstarted
        (opTakeClose_of_open hinline hjob hfilling hwaits hbanks hmode) (by simp [closeBarrier, State.updJob]))
      exact ⟨hrow, hrow⟩
    · have hrow := next_congr (runRow_of_goes_of_reel hstarted
        (opTakeClose_of_masked hinline hjob hfilling hwaits hbanks hmode hfree hform)
        ((commit_reel cid _ u).trans ((formLedger_reel hform).trans rfl)))
      exact ⟨hrow, hrow⟩
  case drains =>
    intro s cid c k b hstarted hinline hgroup hfailed hfilling hzero
    have hrow := next_congr (runRow_of_goes_of_reel hstarted
      (opGroupDrain_of_zero hinline hgroup hfailed hfilling hzero) ((commit_reel cid _ _).trans rfl))
    exact ⟨hrow, hrow⟩
  case aborts =>
    intro s cid c jb hstarted hinline hjob hopen
    exact next_congr (runRow_of_done hstarted (opTakeAbort_of_open hinline hjob hopen))

end Sys2Proof.Machine
end

section
/-! SUPPORT. Slices that migrate (R57 to R61). -/

namespace Sys2Proof.Machine

open Sys2Proof

variable {s t : State} {gn j : Nat} {g : Group}

/-- An entry of a list that is not empty, chosen by a number modulo its length, is one of the list's. -/
theorem unit_mod_mem {α : Type} [Inhabited α] {l : List α} (v : Nat) (h : l ≠ []) : unit l (v % l.length) ∈ l := by
  have hlt : v % l.length < l.length := Nat.mod_lt v (List.length_pos_iff.2 h)
  rw [unit_eq_getElem hlt]
  exact List.getElem_mem hlt

/-- A tile timeout of a slice that is not migrating moves it to one of the other active cores, by a free value (R57). -/
theorem tileTimeout_of_timed (hgroup : s.group? gn = some g) (hslice : j < g.slices.length) (hfailed : g.failed = none)
    (hmoves : (unit g.slices j).moves = []) (hothers : (s.activeCores.filter (· ≠ (unit g.slices j).core)) ≠ [])
    (htimed : s.timed gn j g (unit g.slices j).core = true) :
    ∃ core ∈ s.activeCores.filter (· ≠ (unit g.slices j).core),
      tileTimeout gn j s = startMove gn j core 1 { s with draws := s.draws + 1 } := by
  refine ⟨_, unit_mod_mem s.draw.1.toNat hothers, ?_⟩
  simp only [tileTimeout, hgroup]
  rw [if_neg (by simp only [ge_iff_le, Nat.not_le.2 hslice, hfailed, hmoves, List.isEmpty_iff, hothers, htimed]; simp)]
  rfl

/-- The merge ends the slice's oldest move; no bank changes (R57, R58). -/
theorem group?_mergeMove_same {k : Slice} {m : MoveStep} (hgroup : s.group? gn = some g) :
    (mergeMove gn j g k m s).group? gn = some { g with slices := g.slices.set j { k with moves := k.moves.drop 1 } } := by
  have hget : Table.get? s.accum.groups gn = some g := hgroup
  simp [State.group?, mergeMove, State.updGroup, hget]

/-- The merge of one group's slice leaves every other group. -/
theorem group?_mergeMove_other {k : Slice} {m : MoveStep} {x : Nat} (h : x ≠ gn) :
    (mergeMove gn j g k m s).group? x = s.group? x := by
  simp [State.group?, mergeMove, State.updGroup, Table.get?_upd_other _ _ _ _ h]

@[simp] theorem mergeMove_migrations (k : Slice) (m : MoveStep) :
    (mergeMove gn j g k m s).faults.migrations = satAdd s.faults.migrations 1 := by simp [mergeMove, State.updGroup]
@[simp] theorem mergeMove_mem (k : Slice) (m : MoveStep) : (mergeMove gn j g k m s).mem = s.mem := by simp [mergeMove, State.updGroup]
@[simp] theorem mergeMove_out (k : Slice) (m : MoveStep) : (mergeMove gn j g k m s).out = s.out := by simp [mergeMove, State.updGroup]
@[simp] theorem mergeMove_ingest (k : Slice) (m : MoveStep) : (mergeMove gn j g k m s).ingest = s.ingest := by
  simp [mergeMove, State.updGroup]

/-- SLICE_MIGRATION_MERGE ends the oldest move of a slice once its old placement has finished (R57). -/
theorem exec_sliceMigrationMerge_of_oldDone {m : MoveStep} {rest : List MoveStep} (hgroup : s.group? gn = some g)
    (hmoves : (unit g.slices j).moves = m :: rest) (hdone : s.oldDone gn g j m.boundary = true) :
    exec (.sliceMigrationMerge gn j) s = .next (mergeMove gn j g (unit g.slices j) m s) := by
  have hrow : exec (.sliceMigrationMerge gn j) s = execSliceMigrationMerge gn j s := rfl
  simp only [hrow, execSliceMigrationMerge, hgroup, hmoves, List.head?_cons, hdone, if_true]

/-- LATE_EPOCH_TILE of one of the 32 767 epochs before the present one, after the merge, fails the group (R59; log entry 110). -/
theorem exec_lateEpochTile_of_earlier {seq epoch : Nat} (hgroup : s.group? gn = some g) (hslice : j < g.slices.length)
    (hfailed : g.failed = none) (hmoves : (unit g.slices j).moves = []) (hepoch : epoch < 65536)
    (hpositive : 0 < ((unit g.slices j).epoch + 65536 - epoch) % 65536)
    (hnear : ((unit g.slices j).epoch + 65536 - epoch) % 65536 < 32768) :
    exec (.lateEpochTile gn j seq epoch) s
      = .next (failGroup gn .seqGap ((g.bankOfSeq seq).getD false) (unit g.slices j).core seq j epoch s) := by
  have hrow : exec (.lateEpochTile gn j seq epoch) s = execLateEpochTile gn j seq epoch s := rfl
  simp only [hrow, execLateEpochTile, hgroup, Nat.mod_eq_of_lt hepoch]
  rw [if_neg]
  simp only [ge_iff_le, Nat.not_le.2 hslice, hfailed, hmoves, Option.isSome_none, List.isEmpty_nil, Bool.not_true, Bool.false_eq_true,
    false_or, not_or]
  omega

/-- Settles O15: the timeout's move, the merge and the late tile as their equations give them. -/
theorem slicesMigrate : Obligations.SlicesMigrate := by
  unfold Obligations.SlicesMigrate
  refine ⟨?timeout, ?merge, ?late⟩
  case timeout =>
    intro s gn j g hgroup hslice hfailed hmoves hothers htimed
    obtain ⟨core, hcore, hmove⟩ := tileTimeout_of_timed hgroup hslice hfailed hmoves hothers htimed
    obtain ⟨hactive, hother⟩ := List.mem_filter.1 hcore
    exact ⟨core, hactive, of_decide_eq_true hother, next_congr hmove⟩
  case merge =>
    intro s gn j g m rest hgroup hmoves hdone
    refine ⟨_, exec_sliceMigrationMerge_of_oldDone hgroup hmoves hdone, ?_, by simp, fun x hx => group?_mergeMove_other hx, by simp,
      by simp, by simp⟩
    rw [group?_mergeMove_same hgroup, hmoves, List.drop_one, List.tail_cons]
  case late =>
    intro s gn j seq epoch g hgroup hslice hfailed hmoves hepoch _ hpositive hnear
    exact exec_lateEpochTile_of_earlier hgroup hslice hfailed hmoves hepoch hpositive hnear

end Sys2Proof.Machine
end

section
/-! SUPPORT. A session that a message of another job pins: its end of life does not remove it (R149, R163). -/

namespace Sys2Proof.Machine

open Sys2Proof

/-- Job 2's session at index 7, created at PTIME 0. -/
def sessionOfJob2 : Session := { (default : Session) with job := 2 }

/-- An admitted RESUME message of job 3 whose SESSION_REF spells index 7 and generation 0. -/
def resumeOfJob3 : Message := { (default : Message) with job := 3, kem := false, stage := .opening, sessionRef := 7 }

/-- Job 2 gives a session 60 s. -/
def jobOf60s : Job := { (default : Job) with lifeS := 60 }

/-- The session has reached the end of its life, and the only admitted message is the other job's. -/
def sessionPinnedByOtherJob : State :=
  { State.reset with
    time := { State.reset.time with ptime := 60000000000 }
    accum := { State.reset.accum with jobs := [(2, jobOf60s)] }
    ingest := { State.reset.ingest with sessions := [(7, sessionOfJob2)], msgs := [(0, resumeOfJob3)] } }

/-- The session table of the next state. -/
def sessionsAfter : Host.Outcome State Fault Refusal → List (Nat × Session)
  | .next t => t.ingest.sessions
  | .fault _ => []
  | .refused _ => []

/-- SESSION_EXPIRE looks at no message's job, and keeps the session. -/
theorem sessionsAfter_sessionExpire : sessionsAfter (exec (.sessionExpire 7) sessionPinnedByOtherJob) = [(7, sessionOfJob2)] := by
  decide

/-- No admitted message of the session's own job uses it. -/
theorem resumeOfJob3_of_other_job : ∀ m ∈ sessionPinnedByOtherJob.ingest.msgs, m.2.kem = true
    ∨ (m.2.stage ≠ .opening ∧ m.2.stage ≠ .verified) ∨ m.2.job ≠ sessionOfJob2.job
    ∨ m.2.sessionRef.toNat ≠ 7 + 2 ^ 32 * sessionOfJob2.gen.toNat := by decide

/-- Refutes O17: its clause on SESSION_EXPIRE lets a message of another job carry the session's reference, but the model keeps a session
to which any admitted RESUME message refers, whatever its job. On `sessionPinnedByOtherJob` the session stays where the statement has it
removed. -/
theorem not_envelopesCommit : ¬ Obligations.EnvelopesCommit := by
  unfold Obligations.EnvelopesCommit
  rintro ⟨-, -, hexpire⟩
  obtain ⟨-, hend⟩ := hexpire sessionPinnedByOtherJob 7 sessionOfJob2 jobOf60s rfl rfl
  have hremoved : sessionsAfter (exec (.sessionExpire 7) sessionPinnedByOtherJob) = [] := by
    rw [hend (by decide) resumeOfJob3_of_other_job]
    decide
  rw [sessionsAfter_sessionExpire] at hremoved
  exact absurd hremoved (by decide)

end Sys2Proof.Machine
end

section
/-! SUPPORT. Two connections of one identity, both named by an ACC_COMBINE (R188, R189). -/

namespace Sys2Proof.Machine

open Sys2Proof

/-- The combined group: one U32 element in one slice, with bank A FINAL. -/
def oneElementGroup : Group :=
  { (default : Group) with
    job := 2, format := 2, kind := 1, count := 1, sliceTiles := 1, slices := [{ core := 5, epoch := 0, moves := [] }]
    bankA := { Bank.zeroed 0 with mode := .final, take := 7 }, bankB := Bank.zeroed 0 }

/-- A graph whose COMBINE node serves group 3. -/
def combineGraph : Graph :=
  { (default : Graph) with mode := .masked, nodes := [{ station := 8, inst := 0, maxTiles := 64, groups := 8 }] }

/-- Job 2, in mode M. -/
def combineJob : Job := { (default : Job) with mode := some .masked, graph := some combineGraph }

/-- An open connection of job 2 with identity 5. -/
def connOfIdentity5 : Conn := { (default : Conn) with id := 5, phase := .opened, job := 2 }

/-- The one tile of a partial of that group, 64 bytes of descriptor and one element (R33, R186). -/
def partialTileBytes : Bytes :=
  TileDesc.bytes
    { format := 2, job := 2, group := 3, station := 12, mode := 1, flags := descFlags false false true false false true, take := 7,
      valid := 4, seq := 0, first := 0, slice := 0, epoch := 0, segment := 0xFFFFFFFF, contribs := 1, seqEnd := 1, scale := 0, kind := 1,
      paramSet := 0, randRef := 0 } ++ toLE 4 9

/-- A started ACC_COMBINE of job 2's group 3: bank A, take 7, connections 1 and 2. -/
def combineOfConns1And2 : Cmd :=
  { (default : Cmd) with
    op := .accCombine, phase := .started
    slate := toLE 2 0x301 ++ zeros 6 ++ [2, 3] ++ zeros 54
    block := [0, 2, 0, 0] ++ toLE 4 7 ++ zeros 8 ++ toLE 8 1 ++ toLE 8 2 }

/-- Connections 1 and 2 share identity 5, and a partial tile that came on it is held at device address 0. -/
def connsOfOneIdentity : State :=
  { State.reset with
    cmds := [(7, combineOfConns1And2)]
    trans := { State.reset.trans with conns := [(1, connOfIdentity5), (2, connOfIdentity5)] }
    accum := { State.reset.accum with
      jobs := [(2, combineJob)], groups := [(3, oneElementGroup)], held := [{ conn := 1, connId := 5, job := 2, addr := 0, len := 68 }] }
    mem := memWriteBytes State.reset.mem 0 partialTileBytes }

/-- The connections that a command's work waits for. -/
def combinedConns (c : Cmd) : List Nat :=
  match c.work with
  | .combining _ _ l => l.map (·.conn)
  | _ => []

/-- The connections that command 7 of the next state waits for. -/
def connsAfter : Host.Outcome State Fault Refusal → List Nat
  | .next t => ((t.cmd? 7).map combinedConns).getD []
  | .fault _ => []
  | .refused _ => []

/-- The held tile is accepted for every source of its identity, and each becomes the first one. -/
theorem connsAfter_accCombine : connsAfter (exec (.accCombine 7) connsOfOneIdentity) = [1, 1] := by decide +kernel

theorem started_combineOfConns1And2 : Started connsOfOneIdentity 7 .accCombine combineOfConns1And2 := ⟨rfl, rfl, .inl rfl⟩

/-- Refutes O21: its clause on ACC_COMBINE does not ask that the named connections have different identities. On `connsOfOneIdentity` the
held tile of identity 5 makes both sources the one on connection 1, where the statement has connections 1 and 2 in order. -/
theorem not_banksEndAndCombine : ¬ Obligations.BanksEndAndCombine := by
  unfold Obligations.BanksEndAndCombine
  rintro ⟨-, hcombine, -⟩
  obtain ⟨t, d, l, hnext, hcmd, hwork, hconns, -⟩ := hcombine connsOfOneIdentity 7 combineOfConns1And2 oneElementGroup
    combineGraph combineJob started_combineOfConns1And2 (fun _ _ _ h => by cases h)
    (by decide) (by decide) (by decide) (by decide) (by decide) (by decide)
    (by decide) (by decide) (by decide) rfl rfl rfl rfl rfl (by decide)
    (fun x hx => ⟨connOfIdentity5, by revert x; decide, rfl, rfl, rfl⟩)
  have hstated : connsAfter (exec (.accCombine 7) connsOfOneIdentity) = [1, 2] := by
    simp only [hnext, connsAfter, hcmd, Option.map_some, Option.getD_some, combinedConns, hwork, hconns]
    decide
  rw [connsAfter_accCombine] at hstated
  exact absurd hstated (by decide)

end Sys2Proof.Machine
end

section
/-! SUPPORT. A TENANT_HANDOVER whose own slate names a job (R76, R97). -/

namespace Sys2Proof.Machine

open Sys2Proof

/-- A started TENANT_HANDOVER whose slate has 0 in JOB, where check 4 of R77 asks for 0xFF. -/
def handoverNamingJob0 : Cmd :=
  { (default : Cmd) with op := .tenantHandover, phase := .started, slate := toLE 2 0x11 ++ zeros 6 ++ [0, 0xFF] ++ zeros 54 }

/-- The device at reset, on which that handover is command 7. -/
def handoverOfNamedJob : State := { State.reset with cmds := [(7, handoverNamingJob0)] }

/-- The commands outstanding in the next state. -/
def cmdsAfter : Host.Outcome State Fault Refusal → List (Nat × Cmd)
  | .next t => t.cmds
  | .fault _ => []
  | .refused _ => []

/-- The handover counts itself among the old tenant's commands, which name a job, and aborts itself. -/
theorem cmdsAfter_tenantHandover : cmdsAfter (exec (.tenantHandover 7) handoverOfNamedJob) = [] := by decide

theorem started_handoverNamingJob0 : Started handoverOfNamedJob 7 .tenantHandover handoverNamingJob0 := ⟨rfl, rfl, .inl rfl⟩

/-- Refutes O31: its clause on TENANT_HANDOVER leaves the slate's JOB free. On `handoverOfNamedJob` the command names job 0, so it is one
of the old tenant's commands that R97 has aborted, and none is outstanding where the statement has the handover committed. -/
theorem not_jobsOpenCloseAndHandOver : ¬ Obligations.JobsOpenCloseAndHandOver := by
  unfold Obligations.JobsOpenCloseAndHandOver
  rintro ⟨-, hhandover, -⟩
  obtain ⟨t, d, hnext, hcmd, -⟩ := hhandover handoverOfNamedJob 7 handoverNamingJob0 started_handoverNamingJob0 (by decide)
    (by decide) rfl
  have hcmds : t.cmds = [] := by
    have hafter := cmdsAfter_tenantHandover
    rwa [hnext] at hafter
  rw [State.cmd?, hcmds] at hcmd
  cases hcmd

end Sys2Proof.Machine
end

section
/-! SUPPORT. What sending on a connection and the return of credit leave unchanged (R129, R130, R157, R158, R160). -/

namespace Sys2Proof.Machine

open Sys2Proof

variable {s t : State}

/-- What sending on a connection never reaches: the groups and jobs, memory, and the visible envelopes. -/
def State.offWire (s : State) : Accum × Memory × List (Nat × Message) := (s.accum, s.mem, s.ingest.msgs)

theorem accum_of_offWire (h : t.offWire = s.offWire) : t.accum = s.accum := congrArg Prod.fst h
theorem mem_of_offWire (h : t.offWire = s.offWire) : t.mem = s.mem := congrArg (fun p => p.2.1) h
theorem msgs_of_offWire (h : t.offWire = s.offWire) : t.ingest.msgs = s.ingest.msgs := congrArg (fun p => p.2.2) h
theorem msg?_of_offWire (h : t.offWire = s.offWire) (m : Nat) : t.msg? m = s.msg? m :=
  congrArg (Table.get? · m) (msgs_of_offWire h)

/-! ## Sending -/

@[simp] theorem updConn_offWire (n : Nat) (f : Conn → Conn) : (s.updConn n f).offWire = s.offWire := rfl
@[simp] theorem updLink_offWire (n : Nat) (f : Link → Link) : (s.updLink n f).offWire = s.offWire := rfl
@[simp] theorem sendFrame_offWire (i type : Nat) (q : Word32) (p : Bytes) : (sendFrame i type q p s).offWire = s.offWire := rfl
@[simp] theorem wireOut_offWire (i v : Nat) (mac : BitVec 48) (ip : Bytes) (psn : Nat) (b : Bytes) :
    (wireOut i v mac ip psn b s).offWire = s.offWire := rfl
@[simp] theorem noteLatency_offWire (start : Nat) : (noteLatency start s).offWire = s.offWire := rfl

@[simp] theorem linkSendNext_offWire (i : Nat) : (linkSendNext i s).offWire = s.offWire := by
  unfold linkSendNext
  dsimp only
  split
  · rfl
  · split <;> simp

@[simp] theorem linkPump_offWire (i : Nat) : (linkPump i s).offWire = s.offWire :=
  List.foldlRecOn (motive := fun t : State => t.offWire = s.offWire) _ _ rfl (fun _ ht _ _ => (linkSendNext_offWire i).trans ht)

@[simp] theorem sendOn_offWire (c : Conn) (psn : Nat) (b : Bytes) : (sendOn c psn b s).offWire = s.offWire := by
  unfold sendOn
  split
  · simp
  · split <;> rfl

@[simp] theorem sendItem_offWire (n : Nat) (it : TxItem) : (sendItem n it s).offWire = s.offWire := by
  unfold sendItem
  split
  · rfl
  · dsimp only
    split <;> simp

@[simp] theorem pump_offWire (n : Nat) : (pump n s).offWire = s.offWire := by
  unfold pump
  split
  · rfl
  · refine List.foldlRecOn (motive := fun a : State × List TxItem × Bool => a.1.offWire = s.offWire) _ _ rfl
      (fun a ha it _ => ?_)
    dsimp only
    split
    · exact (sendItem_offWire n it).trans ha
    · exact ha

@[simp] theorem enqueue_offWire (n : Nat) (l : List TxItem) : (enqueue n l s).offWire = s.offWire := by simp [enqueue]

@[simp] theorem sendMsg_offWire (n type : Nat) (trigger since : Option Nat) (k : Word32) (a : Nat) (d : Bytes) :
    (sendMsg n type trigger since k a d s).offWire = s.offWire := by simp [sendMsg, takeMsgId]

@[simp] theorem sendAck_offWire (n : Nat) : (sendAck n s).offWire = s.offWire := by
  unfold sendAck
  split <;> simp

/-! ## Returns of credit -/

@[simp] theorem grant_offWire (n units : Nat) : (grant n units s).offWire = s.offWire := by
  unfold grant
  split
  · rfl
  · split <;> simp

@[simp] theorem payOwed_offWire : (payOwed s).offWire = s.offWire := by
  unfold payOwed
  split
  · rfl
  · refine List.foldlRecOn (motive := fun a : State × List OwedReturn => a.1.offWire = s.offWire) _ _ rfl (fun a ha e _ => ?_)
    split
    · dsimp only
      split
      · exact (grant_offWire e.conn e.units).trans ha
      · exact ha
    · exact ha

@[simp] theorem creditMoved_offWire : (creditMoved s).offWire = s.offWire := payOwed_offWire

@[simp] theorem fallDue_offWire (n units : Nat) (pooled : Bool) : (fallDue n units pooled s).offWire = s.offWire := by
  unfold fallDue
  split
  · rfl
  · split
    · rfl
    · split
      · rfl
      · exact payOwed_offWire.trans rfl

/-! ## Traces, events and receipts -/

@[simp] theorem traceTile_offWire (m : Nat) (x : SpliceTile) (core station : Nat) :
    (traceTile m x core station s).offWire = s.offWire := by simp [traceTile, State.offWire]

@[simp] theorem post_offWire (e : EventType) (c i : Nat) (j g : BitVec 8) (p : Bytes) : (post e c i j g p s).offWire = s.offWire := by
  simp [State.offWire]

@[simp] theorem sendReceipt_offWire (m : Message) (outcome status us : Nat) (ref : Word64) :
    (sendReceipt m outcome status us ref s).offWire = s.offWire := by
  unfold sendReceipt
  split <;> simp

end Sys2Proof.Machine
end

section
/-! SUPPORT. Visible envelopes: their updates, the units they return and their refusal (R154, R156, R157). -/

namespace Sys2Proof.Machine

open Sys2Proof

variable {s : State} {i : Nat} {m : Message}

/-! ## Updates of an envelope -/

theorem msg?_updMsg_same (f : Message → Message) (h : s.msg? i = some m) : (s.updMsg i f).msg? i = some (f m) := by
  have hget : Table.get? s.ingest.msgs i = some m := h
  simp [State.msg?, State.updMsg, hget]

theorem msg?_updMsg_other {k : Nat} (f : Message → Message) (h : k ≠ i) : (s.updMsg i f).msg? k = s.msg? k :=
  Table.get?_upd_other _ _ _ _ h

/-- Units of an envelope that fall due are counted in it; what they pay stays on the wire. -/
theorem unitsDue_offWire (units : Nat) (h : s.msg? i = some m) :
    (unitsDue i units s).offWire = (s.updMsg i (fun k => { k with due := k.due + units })).offWire := by
  simp only [unitsDue, h]
  split <;> simp

theorem unitsDue_accum (units : Nat) (h : s.msg? i = some m) : (unitsDue i units s).accum = s.accum :=
  (accum_of_offWire (unitsDue_offWire units h)).trans rfl
theorem unitsDue_mem (units : Nat) (h : s.msg? i = some m) : (unitsDue i units s).mem = s.mem :=
  (mem_of_offWire (unitsDue_offWire units h)).trans rfl

theorem msg?_unitsDue (units : Nat) (h : s.msg? i = some m) : (unitsDue i units s).msg? i = some { m with due := m.due + units } :=
  (msg?_of_offWire (unitsDue_offWire units h) i).trans (msg?_updMsg_same _ h)

/-! ## Refusal -/

/-- The message is gone, and no group, job or byte of memory has changed. -/
structure DroppedOnly (i : Nat) (s t : State) : Prop where
  gone : t.msg? i = none
  accum : t.accum = s.accum
  mem : t.mem = s.mem

theorem dropMsg_droppedOnly : DroppedOnly i s (dropMsg i s) := by
  unfold dropMsg
  split
  case h_1 h => exact ⟨h, rfl, rfl⟩
  case h_2 m h =>
    exact ⟨(msg?_of_offWire creditMoved_offWire i).trans (Table.get?_del_same _ _),
      (accum_of_offWire creditMoved_offWire).trans (unitsDue_accum _ h), (mem_of_offWire creditMoved_offWire).trans (unitsDue_mem _ h)⟩

/-- A refusal drops the message, whatever its receipt. -/
theorem refuseMsg_droppedOnly (outcome : Nat) (st : Status) (us : Nat) : DroppedOnly i s (refuseMsg i outcome st us s) := by
  unfold refuseMsg
  split
  case h_1 h => exact ⟨h, rfl, rfl⟩
  case h_2 m _ =>
    obtain ⟨hgone, haccum, hmem⟩ := dropMsg_droppedOnly (i := i) (s := sendReceipt m outcome st.code us 0 s)
    have hsent := sendReceipt_offWire (s := s) m outcome st.code us 0
    exact ⟨hgone, haccum.trans (accum_of_offWire hsent), hmem.trans (mem_of_offWire hsent)⟩

/-- A failed opening drops the message with nothing accumulated (R154). -/
theorem openFailed_droppedOnly (core : Nat) (st : Status) (seg : Nat) : DroppedOnly i s (openFailed i m core st seg s) := by
  obtain ⟨hgone, haccum, hmem⟩ := refuseMsg_droppedOnly (i := i) (s := post .openAuthFail 0x01 core (BitVec.ofNat 8 m.job) nobody
    (toLE 2 m.conn ++ toLE 2 st.code ++ toLE 4 m.msgId.toNat ++ toLE 4 seg ++ toLE 4 m.take ++ m.token) s) 1 st 0
  exact ⟨hgone, haccum.trans (by simp), hmem.trans (by simp)⟩

end Sys2Proof.Machine
end

section
/-! SUPPORT. Envelopes get their keys, their slots and their plaintext (R147, R148, R151, R154). -/

namespace Sys2Proof.Machine

open Sys2Proof

variable {s : State} {i : Nat} {rest : List Nat} {m : Message} {jb : Job} {k : Graph}

/-! ## DECAPSULATION_DONE (R147, R148) -/

/-- An envelope that has its session key and its message key (R147). -/
def Message.keyed (m : Message) (ks : Bytes) : Message :=
  { m with stage := .keyed, kSess := ks, kMsg := messageKey ks m.nonceBase m.job m.take 0 }

/-- Envelope `i` leaves the handshake queue with a session key, and waits for its admission. -/
def State.withSessionKey (s : State) (i : Nat) (rest : List Nat) (ks : Bytes) : State :=
  let u := s.updMsg i (·.keyed ks)
  { u with ingest := { u.ingest with hsQueue := rest, keyOrder := s.ingest.keyOrder ++ [i] } }

theorem msg?_withSessionKey_same (ks : Bytes) (h : s.msg? i = some m) : (s.withSessionKey i rest ks).msg? i = some (m.keyed ks) :=
  msg?_updMsg_same (·.keyed ks) h

theorem msg?_withSessionKey_other {k : Nat} (ks : Bytes) (h : k ≠ i) : (s.withSessionKey i rest ks).msg? k = s.msg? k :=
  msg?_updMsg_other (·.keyed ks) h

/-- DECAPSULATION_DONE of an envelope whose ciphertext memory returns. -/
theorem exec_decapsulationDone_of_readable {r : Region} (hqueue : s.ingest.hsQueue = i :: rest) (hmsg : s.msg? i = some m)
    (hjob : s.job? m.job = some jb) (hregion : Table.get? s.trans.regions m.region = some r)
    (hclean : poisoned s.mem (r.base + m.raddr + 80) 1088 = false) :
    let ct := memReads s.mem (r.base + m.raddr + 80) 1088
    exec .decapsulationDone s
      = .next (s.withSessionKey i rest (sessionKey (kemOpen ((s.key? (.jobDk m.job)).getD []) ct) ct m.token m.job)) := by
  have hrow : exec .decapsulationDone s = execDecapsulationDone s := rfl
  simp only [hrow, execDecapsulationDone, hqueue, hmsg, hjob, hregion, hclean, Bool.false_eq_true, if_false]
  rfl

/-! ## OPEN_ADMIT (R151) -/

/-- How many of a message's tiles a core owns. -/
def tilesOwned (tiles : List SpliceTile) (c : Nat) : Nat := (tiles.filter (fun x => x.core = c)).length

/-- Some core owns more than 48 tiles of the message: it is large (R152). -/
def isLarge (tiles : List SpliceTile) : Bool := (List.range 36).any (fun c => decide (48 < tilesOwned tiles c))

/-- Some core lacks the slots for its tiles. -/
def State.lacksSlots (s : State) (tiles : List SpliceTile) : Bool :=
  (List.range 36).any (fun c => decide (s.slotsFree c < tilesOwned tiles c))

theorem isLarge_iff {tiles : List SpliceTile} : isLarge tiles = true ↔ ∃ c < 36, 48 < tilesOwned tiles c := by simp [isLarge]

theorem isLarge_eq_false {tiles : List SpliceTile} (h : ∀ c < 36, tilesOwned tiles c ≤ 48) : isLarge tiles = false := by
  simpa [isLarge] using h

theorem lacksSlots_iff {tiles : List SpliceTile} : s.lacksSlots tiles = true ↔ ∃ c < 36, s.slotsFree c < tilesOwned tiles c := by
  simp [State.lacksSlots]

theorem lacksSlots_eq_false {tiles : List SpliceTile} (h : ∀ c < 36, tilesOwned tiles c ≤ s.slotsFree c) :
    s.lacksSlots tiles = false := by
  simpa [State.lacksSlots] using h

/-- An admitted message: one that is not large keeps the tiles whose slots it reserves. -/
def Message.admitted (m : Message) (large : Bool) (tiles : List SpliceTile) : Message :=
  { m with stage := .opening, large := large, tiles := if large then [] else tiles }

/-- Message `i` is admitted with the tiles it reserves slots for. -/
def State.admitted (s : State) (i : Nat) (rest : List Nat) (large : Bool) (tiles : List SpliceTile) : State :=
  let u := s.updMsg i (·.admitted large tiles)
  { u with ingest := { u.ingest with keyOrder := rest } }

theorem msg?_admitted (large : Bool) (tiles : List SpliceTile) (h : s.msg? i = some m) :
    (s.admitted i rest large tiles).msg? i = some (m.admitted large tiles) :=
  msg?_updMsg_same (·.admitted large tiles) h

/-- OPEN_ADMIT of a message that fits its job's graph: it waits while it is not large and a core lacks the slots. -/
theorem exec_openAdmit_of_fits (horder : s.ingest.keyOrder = i :: rest) (hmsg : s.msg? i = some m) (hjob : s.job? m.job = some jb)
    (hgraph : jb.graph = some k) (hsegments : k.segments = m.segCount) (hlen : m.len = s.envelopeLen k m.kem) :
    exec .openAdmit s = .next (if !isLarge (s.routed m k) ∧ s.lacksSlots (s.routed m k) then s
      else s.admitted i rest (isLarge (s.routed m k)) (s.routed m k)) := by
  have hrow : exec .openAdmit s = execOpenAdmit s := rfl
  simp only [hrow, execOpenAdmit, horder, hmsg, hjob, hgraph, Option.bind_some]
  rw [if_neg (by simp [hsegments, hlen])]
  rfl

/-! ## SEGMENT_VERIFIED (R151, R154, R157) -/

/-- The message once a segment's plaintext `pt` is kept: the segment is tile `tile` of group `gn`, which holds `valid` bytes, and CLIP's
partial of it is kept where the group has one (R177). -/
def Message.opened (m : Message) (g : Group) (gn tile segment valid : Nat) (pt : Bytes) : Message :=
  let width := formatBytes g.format
  { m with
    verified := m.verified ++ [segment]
    paid := if m.large ∨ m.paid.contains segment then m.paid else m.paid ++ [segment]
    stage := if (m.verified ++ [segment]).length = m.segCount then .verified else .opening
    tiles := m.tiles.map (fun x => if x.segment = segment then { x with data := pt.take valid, slot := some .opened } else x)
    clipQ := if g.clip then
        m.clipQ ++ [(gn, tile, tileSquares g ((List.range (valid / width)).map (fun e => leAt (pt.take valid) (width * e) width)))]
      else m.clipQ }

/-- OPEN's trace of a tile that it issues to CLIP in the verify pass (R177, R419). -/
def traceOpened (msg segment gn : Nat) (m : Message) (k : Graph) (g : Group) (s : State) : State :=
  match m.tiles.find? (fun x => x.segment == segment) with
  | some x => if g.clip ∧ k.carries 3 4 gn then traceTile msg x x.core 3 s else s
  | none => s

@[simp] theorem traceOpened_offWire (msg segment gn : Nat) (g : Group) : (traceOpened msg segment gn m k g s).offWire = s.offWire := by
  unfold traceOpened
  split
  · split <;> simp
  · rfl

/-- Message `msg`, which was `m`, keeps a segment's plaintext. -/
def State.withSegment (s : State) (msg segment gn tile : Nat) (m : Message) (k : Graph) (g : Group) (pt : Bytes) : State :=
  traceOpened msg segment gn m k g (s.updMsg msg (·.opened g gn tile segment (s.validBytes g tile) pt))

section
variable {msg segment gn tile : Nat} {g : Group} {pt : Bytes}

theorem withSegment_offWire : (s.withSegment msg segment gn tile m k g pt).offWire
    = (s.updMsg msg (·.opened g gn tile segment (s.validBytes g tile) pt)).offWire := traceOpened_offWire msg segment gn g

@[simp] theorem withSegment_accum : (s.withSegment msg segment gn tile m k g pt).accum = s.accum :=
  (accum_of_offWire withSegment_offWire).trans rfl
@[simp] theorem withSegment_mem : (s.withSegment msg segment gn tile m k g pt).mem = s.mem :=
  (mem_of_offWire withSegment_offWire).trans rfl

theorem msg?_withSegment (hmsg : s.msg? msg = some m) :
    (s.withSegment msg segment gn tile m k g pt).msg? msg = some (m.opened g gn tile segment (s.validBytes g tile) pt) :=
  (msg?_of_offWire withSegment_offWire msg).trans (msg?_updMsg_same _ hmsg)

variable (hmsg : s.msg? msg = some m) (hjob : s.job? m.job = some jb) (hgraph : jb.graph = some k)
  (htile : s.segTile k segment = some (gn, tile)) (hgroup : s.group? gn = some g) (hstage : m.stage = .opening)
  (hnew : m.verified.contains segment = false) (hsegment : segment < m.segCount)
include hmsg hjob hgraph htile hgroup hstage hnew hsegment

/-- SEGMENT_VERIFIED of a segment whose tag fails. -/
theorem exec_segmentVerified_of_tag_fails (hopen : s.openSegment m k segment = none) :
    exec (.segmentVerified msg segment) s = .next (openFailed msg m (g.coreOf tile) .authFail segment s) := by
  have hrow : exec (.segmentVerified msg segment) s = execSegmentVerified msg segment s := rfl
  simp only [hrow, execSegmentVerified, hmsg, hjob, hgraph, htile, hgroup, Option.bind_some]
  rw [if_neg (by simp only [hstage, hnew]; simpa using hsegment)]
  simp only [hopen]

/-- SEGMENT_VERIFIED of a segment whose tag and padding are right: its units fall due in this pass unless they have before, or the message
is large and returns them in its second pass (R157). -/
theorem exec_segmentVerified_of_opens (hopen : s.openSegment m k segment = some pt)
    (hpadding : zeroAt pt (s.validBytes g tile) (pt.length - s.validBytes g tile) = true) :
    let u := s.withSegment msg segment gn tile m k g pt
    exec (.segmentVerified msg segment) s
      = .next (if m.large ∨ m.paid.contains segment then u else unitsDue msg ((u.segLen k segment + 4095) / 4096) u) := by
  have hrow : exec (.segmentVerified msg segment) s = execSegmentVerified msg segment s := rfl
  simp only [hrow, execSegmentVerified, hmsg, hjob, hgraph, htile, hgroup, Option.bind_some]
  rw [if_neg (by simp only [hstage, hnew]; simpa using hsegment)]
  simp only [hopen, hpadding, Bool.not_true, Bool.false_eq_true, if_false]
  rfl

/-- A verified segment's plaintext is kept, and beyond that only the units that have fallen due may differ in its message. -/
theorem exists_exec_segmentVerified_of_opens (hopen : s.openSegment m k segment = some pt)
    (hpadding : zeroAt pt (s.validBytes g tile) (pt.length - s.validBytes g tile) = true) :
    ∃ t due, exec (.segmentVerified msg segment) s = .next t
      ∧ t.msg? msg = some { m.opened g gn tile segment (s.validBytes g tile) pt with due := due }
      ∧ t.accum = s.accum ∧ t.mem = s.mem := by
  have hexec := exec_segmentVerified_of_opens hmsg hjob hgraph htile hgroup hstage hnew hsegment hopen hpadding
  have hkept := msg?_withSegment (segment := segment) (gn := gn) (tile := tile) (k := k) (g := g) (pt := pt) hmsg
  by_cases hpaid : m.large ∨ m.paid.contains segment
  · simp only [if_pos hpaid] at hexec
    exact ⟨_, _, hexec, hkept, withSegment_accum, withSegment_mem⟩
  · simp only [if_neg hpaid] at hexec
    exact ⟨_, _, hexec, msg?_unitsDue _ hkept, (unitsDue_accum _ hkept).trans withSegment_accum,
      (unitsDue_mem _ hkept).trans withSegment_mem⟩

end

/-! ## The statement -/

/-- Settles O16: each instruction's next state under the statement's conditions, and what the events, receipts and returns of credit
around it leave unchanged. -/
theorem envelopesOpen : Obligations.EnvelopesOpen := by
  unfold Obligations.EnvelopesOpen
  refine ⟨?keys, ?slots, ?plaintext⟩
  case keys =>
    intro s i rest m jb r hqueue hmsg hjob hregion hclean
    exact ⟨_, exec_decapsulationDone_of_readable hqueue hmsg hjob hregion hclean, msg?_withSessionKey_same _ hmsg, rfl, rfl,
      fun k hk => msg?_withSessionKey_other _ hk, rfl, rfl, rfl, rfl⟩
  case slots =>
    intro s i rest m jb k horder hmsg hjob hgraph hsegments hlen
    have hexec := exec_openAdmit_of_fits horder hmsg hjob hgraph hsegments hlen
    refine ⟨fun hfit => ?_, fun hlarge => ?_, fun hsmall hlack => ?_⟩
    · rw [isLarge_eq_false (fun c hc => (hfit c hc).1), lacksSlots_eq_false (fun c hc => (hfit c hc).2)] at hexec
      exact ⟨_, hexec, msg?_admitted false _ hmsg, rfl, rfl, rfl, rfl⟩
    · rw [isLarge_iff.2 hlarge] at hexec
      exact ⟨_, hexec, msg?_admitted true _ hmsg, rfl, rfl, rfl, rfl⟩
    · rw [isLarge_eq_false hsmall, lacksSlots_iff.2 hlack] at hexec
      exact hexec
  case plaintext =>
    intro s msg segment gn tile m jb k g hmsg hjob hgraph htile hgroup hstage hnew hsegment
    refine ⟨fun pt hopen hpadding => ?_, fun hopen => ?_⟩
    · obtain ⟨t, due, hnext, hkept, haccum, hmem⟩ :=
        exists_exec_segmentVerified_of_opens hmsg hjob hgraph htile hgroup hstage hnew hsegment hopen hpadding
      refine ⟨t, _, hnext, hkept, rfl, ?_, rfl, haccum, hmem⟩
      simp only [Message.opened, List.length_append, List.length_singleton]
    · obtain ⟨hgone, haccum, hmem⟩ := openFailed_droppedOnly (i := msg) (s := s) (m := m) (g.coreOf tile) .authFail segment
      exact ⟨_, exec_segmentVerified_of_tag_fails hmsg hjob hgraph htile hgroup hstage hnew hsegment hopen, hgone, haccum, hmem⟩

end Sys2Proof.Machine
end

section
/-! SUPPORT. Modular and RNS61 elements are sums modulo a number (R170). -/

namespace Sys2Proof.Machine

open Sys2Proof

variable {g : Group} {q raw : Nat} {el : Elem}

/-- RNS61 is no U format. -/
theorem isU_eq_false_of_isRns {f : Nat} (h : isRns f = true) : isU f = false := by
  obtain rfl : f = 0x30 := by simpa [isRns] using h
  rfl

/-- A residue below q and a residue modulo q add with at most one subtraction of q. -/
theorem residue_add {a r q : Int} (ha : 0 ≤ a) (haq : a < q) :
    (if a + r % q ≥ q then a + r % q - q else a + r % q) = (a + r) % q := by
  have hr : 0 ≤ r % q := Int.emod_nonneg r (by omega)
  have hrq : r % q < q := Int.emod_lt_of_pos r (by omega)
  rw [← Int.add_emod_emod]
  split
  · exact (Int.emod_eq_of_lt (by omega) (by omega)).symm.trans (Int.sub_emod_right _ _)
  · exact (Int.emod_eq_of_lt (by omega) (by omega)).symm

theorem addElem_of_isU (q raw : Nat) (sc : Int) (clip : Word64) (el : Elem) (h : isU g.format = true) :
    addElem g q sc clip raw el = some { el with a := (el.a + raw) % (2 ^ (8 * g.w) : Int) } := by
  rw [addElem, if_pos h]

theorem addElem_of_isRns (raw : Nat) (sc : Int) (clip : Word64) (h : isRns g.format = true) (ha : 0 ≤ el.a) (haq : el.a < q) :
    addElem g q sc clip raw el = some { el with a := (el.a + raw) % (q : Int) } := by
  simp only [addElem, isU_eq_false_of_isRns h, h, Bool.false_eq_true, if_false, if_true, Int.natCast_emod, residue_add ha haq]

/-- Two sums modulo m in either order are one sum modulo m. -/
theorem emod_add_emod_comm (a b c m : Int) : ((a + b) % m + c) % m = ((a + c) % m + b) % m := by
  rw [Int.emod_add_emod, Int.emod_add_emod, Int.add_right_comm]

/-- Settles O18: both kinds of element take the sum modulo a number, which the order of the summands does not change. -/
theorem modularSumsDoNotDependOnOrder : Obligations.ModularSumsDoNotDependOnOrder := by
  unfold Obligations.ModularSumsDoNotDependOnOrder
  refine ⟨fun g q raw sc clip el hU => addElem_of_isU q raw sc clip el hU, ?residue, ?prime, ?order⟩
  case residue =>
    intro g q raw sc clip el hRns ha haq
    have hq : 0 < (q : Int) := Int.lt_of_le_of_lt ha haq
    exact ⟨_, addElem_of_isRns raw sc clip hRns ha haq, Int.emod_nonneg _ (Int.ne_of_gt hq), Int.emod_lt_of_pos _ hq, rfl⟩
  case prime =>
    intro s g e p hset
    simp only [State.prime, hset, Option.map_some, Option.getD_some, ParamSet.primeAt]
  case order =>
    rintro g q r1 r2 sc clip el (hU | ⟨hRns, ha, haq⟩)
    · simp only [addElem_of_isU _ _ _ _ _ hU, Option.bind_some, emod_add_emod_comm el.a r1 r2]
    · have hq : 0 < (q : Int) := Int.lt_of_le_of_lt ha haq
      have hboth (r r' : Nat) : (addElem g q sc clip r el).bind (addElem g q sc clip r')
          = some { el with a := ((el.a + r) % (q : Int) + r') % (q : Int) } := by
        rw [addElem_of_isRns r sc clip hRns ha haq, Option.bind_some,
          addElem_of_isRns r' sc clip hRns (Int.emod_nonneg _ (Int.ne_of_gt hq)) (Int.emod_lt_of_pos _ hq)]
      rw [hboth, hboth, emod_add_emod_comm]

end Sys2Proof.Machine
end

section
/-! SUPPORT. Banks that change, tiles that stream into ACCUMULATE and contributions that leave flight: what each leaves as it was
(R36, R54, R156). -/

namespace Sys2Proof.Machine

open Sys2Proof

variable {s t : State} {gn : Nat} {g : Group} {isB : Bool}

/-! ## Changes of a group and of a bank -/

theorem group?_updGroup_same (f : Group → Group) (h : s.group? gn = some g) : (s.updGroup gn f).group? gn = some (f g) := by
  have hget : Table.get? s.accum.groups gn = some g := h
  simp [State.group?, State.updGroup, hget]

theorem group?_updGroup_other {k : Nat} (f : Group → Group) (h : k ≠ gn) : (s.updGroup gn f).group? k = s.group? k :=
  Table.get?_upd_other _ _ _ _ h

theorem group?_updBank_same (f : Bank → Bank) (h : s.group? gn = some g) : (s.updBank gn isB f).group? gn = some (g.updBank isB f) :=
  group?_updGroup_same (·.updBank isB f) h

theorem group?_updBank_other {k : Nat} (f : Bank → Bank) (h : k ≠ gn) : (s.updBank gn isB f).group? k = s.group? k :=
  group?_updGroup_other (·.updBank isB f) h

@[simp] theorem updBank_jobs (f : Bank → Bank) : (s.updBank gn isB f).accum.jobs = s.accum.jobs := rfl
@[simp] theorem updBank_mem (f : Bank → Bank) : (s.updBank gn isB f).mem = s.mem := rfl
@[simp] theorem updBank_out (f : Bank → Bank) : (s.updBank gn isB f).out = s.out := rfl

@[simp] theorem bank_updBank_same (f : Bank → Bank) : (g.updBank isB f).bank isB = f (g.bank isB) := by cases isB <;> rfl
@[simp] theorem bank_updBank_not (f : Bank → Bank) : (g.updBank isB f).bank (!isB) = g.bank (!isB) := by cases isB <;> rfl
@[simp] theorem updBank_failed (f : Bank → Bank) : (g.updBank isB f).failed = g.failed := by cases isB <;> rfl

/-! ## Tiles that move into ACCUMULATE (R36) -/

/-- What no change of an envelope and no trace reaches, of what statements about groups speak of: groups and jobs, memory, and what the
device sends. -/
def State.offFlow (s : State) : Accum × Memory × List Output := (s.accum, s.mem, s.out)

theorem accum_of_offFlow (h : t.offFlow = s.offFlow) : t.accum = s.accum := congrArg Prod.fst h
theorem mem_of_offFlow (h : t.offFlow = s.offFlow) : t.mem = s.mem := congrArg (fun p => p.2.1) h
theorem out_of_offFlow (h : t.offFlow = s.offFlow) : t.out = s.out := congrArg (fun p => p.2.2) h

@[simp] theorem updMsg_offFlow (m : Nat) (f : Message → Message) : (s.updMsg m f).offFlow = s.offFlow := rfl

@[simp] theorem post_offFlow (e : EventType) (c i : Nat) (j g : BitVec 8) (p : Bytes) : (post e c i j g p s).offFlow = s.offFlow := by
  simp [State.offFlow]

@[simp] theorem traceTile_offFlow (m : Nat) (x : SpliceTile) (core station : Nat) :
    (traceTile m x core station s).offFlow = s.offFlow := by simp [traceTile, State.offFlow]

/-- What a trace of issued tiles keeps, a trace of the tiles that POLY expands keeps too (R227). -/
theorem traceExpanded_keeps {p : State → Prop} {m : Nat} {x : SpliceTile} (hs : p s)
    (htrace : ∀ core u, p u → p (traceTile m x core 7 u)) : p (traceExpanded m x s) := by
  unfold traceExpanded
  split
  · exact hs
  · split
    · exact hs
    · split
      · exact hs
      · exact foldl_keeps p _ _ _ hs (fun u i hu => htrace _ u hu)

/-- What the traces keep and the change of one tile's place keeps, `movePlace` keeps. -/
theorem movePlace_keeps {p : State → Prop} {m : Nat} {x : SpliceTile} {q : TilePlace} (hs : p s)
    (htrace : ∀ core station u, p u → p (traceTile m x core station u))
    (hplace : ∀ made u, p u → p (u.updMsg m (fun k => { k with tiles := k.tiles.map (fun y =>
      if y.group = x.group ∧ y.tile = x.tile then { y with place := q, made := made } else y) }))) : p (movePlace m x q s) := by
  have hissued : p (if x.place = .splice then traceTile m x x.core 3 s else s) := by
    split
    · exact htrace _ _ _ hs
    · exact hs
  refine hplace _ _ ?_
  split
  · exact traceExpanded_keeps hissued (fun core u hu => htrace core 7 u hu)
  · exact hissued

/-- What every move of a tile keeps, `advance` keeps. -/
theorem advance_keeps {p : State → Prop} (j : Nat) (hs : p s) (hmove : ∀ m x q u, p u → p (movePlace m x q u)) : p (advance j s) := by
  unfold advance
  split
  · exact hs
  · refine foldl_keeps (fun a : State × Nat × List Nat × Bool => p a.1) _ _ _ hs (fun a e ha => ?_)
    obtain ⟨u, taken, streamed, behind⟩ := a
    dsimp only
    split
    · exact ha
    · split
      · exact hmove _ _ _ _ ha
      · split
        · dsimp only
          split
          · exact hmove _ _ _ _ ha
          · exact ha
        · exact ha

@[simp] theorem movePlace_offFlow (m : Nat) (x : SpliceTile) (q : TilePlace) : (movePlace m x q s).offFlow = s.offFlow :=
  movePlace_keeps (p := fun u => u.offFlow = s.offFlow) rfl (fun _ _ _ hu => (traceTile_offFlow _ _ _ _).trans hu)
    (fun _ _ hu => (updMsg_offFlow _ _).trans hu)

@[simp] theorem advance_offFlow (j : Nat) : (advance j s).offFlow = s.offFlow :=
  advance_keeps (p := fun u => u.offFlow = s.offFlow) j rfl (fun _ _ _ _ hu => (movePlace_offFlow _ _ _).trans hu)

@[simp] theorem advance_accum (j : Nat) : (advance j s).accum = s.accum := accum_of_offFlow (advance_offFlow j)
@[simp] theorem advance_mem (j : Nat) : (advance j s).mem = s.mem := mem_of_offFlow (advance_offFlow j)

/-! ## Contributions that leave flight (R54, R156) -/

@[simp] theorem settleMsg_accum (m : Nat) : (settleMsg m s).accum = s.accum := by
  unfold settleMsg
  split
  · rfl
  · next hmsg =>
    split
    · exact unitsDue_accum _ hmsg
    · rfl
@[simp] theorem settleMsg_mem (m : Nat) : (settleMsg m s).mem = s.mem := by
  unfold settleMsg
  split
  · rfl
  · next hmsg =>
    split
    · exact unitsDue_mem _ hmsg
    · rfl

@[simp] theorem leaveFlight_accum (m gn : Nat) : (leaveFlight m gn s).accum = s.accum := by simp [leaveFlight]
@[simp] theorem leaveFlight_mem (m gn : Nat) : (leaveFlight m gn s).mem = s.mem := by simp [leaveFlight]

@[simp] theorem dropFlight_accum (p : Nat → Bool) : (dropFlight gn p s).accum = s.accum :=
  foldl_keeps (fun u : State => u.accum = s.accum) _ _ _ rfl (fun _ _ hu => (leaveFlight_accum _ _).trans hu)

@[simp] theorem retireBank_accum : (retireBank gn isB s).accum = s.accum := by
  unfold retireBank
  split
  · rfl
  · exact foldl_keeps (fun u : State => u.accum = s.accum) _ _ _ rfl (fun _ _ hu => (leaveFlight_accum _ _).trans hu)
@[simp] theorem retireBank_mem : (retireBank gn isB s).mem = s.mem := by
  unfold retireBank
  split
  · rfl
  · exact foldl_keeps (fun u : State => u.mem = s.mem) _ _ _ rfl (fun _ _ hu => (leaveFlight_mem _ _).trans hu)

end Sys2Proof.Machine
end

section
/-! SUPPORT. Descents and spilled updates add contributions, or report an overflow (R164, R165, R181, R185). -/

namespace Sys2Proof.Machine

open Sys2Proof

variable {s : State} {gn : Nat} {g : Group} {isB : Bool}

/-! ## Additions up to the first overflow -/

/-- A descent's next contribution adds its token, unless one before it has overflowed; an overflow keeps its sequence number. -/
def addUnlessStopped (s : State) (g : Group) (gn tile token : Nat) (a : Bank × Option Nat) (x : Nat × Nat × Message) :
    Bank × Option Nat :=
  match a.2 with
  | some _ => a
  | none => match addToken s g x.2.2 gn tile token a.1 with
    | none => (a.1, some x.1)
    | some b => (b, none)

section
variable {tile token : Nat} {rows : List (Nat × Nat × Message)} {b b' : Bank}

/-- After an overflow nothing is added. -/
@[simp] theorem foldl_addUnlessStopped_of_stopped (q : Nat) :
    rows.foldl (addUnlessStopped s g gn tile token) (b, some q) = (b, some q) :=
  foldl_keeps (fun a => a = (b, some q)) _ _ _ rfl (fun _ _ ha => by rw [ha]; rfl)

/-- Nothing comes of contributions once there is no bank to add them to. -/
@[simp] theorem foldl_addToken_none :
    rows.foldl (fun (a : Option Bank) x => a.bind (addToken s g x.2.2 gn tile token)) none = none :=
  foldl_keeps (· = none) _ _ _ rfl (fun _ _ ha => by rw [ha]; rfl)

/-- Contributions that all fit are all added. -/
theorem foldl_addUnlessStopped_of_adds
    (h : rows.foldl (fun (a : Option Bank) x => a.bind (addToken s g x.2.2 gn tile token)) (some b) = some b') :
    rows.foldl (addUnlessStopped s g gn tile token) (b, none) = (b', none) := by
  induction rows generalizing b with
  | nil => rw [Option.some.inj h]; rfl
  | cons x rows ih =>
    cases hadd : addToken s g x.2.2 gn tile token b with
    | none => simp [hadd] at h
    | some c =>
      simp only [List.foldl_cons, Option.bind_some, hadd] at h
      simpa [addUnlessStopped, hadd] using ih h

/-- The first contribution that does not fit stops the descent. -/
theorem foldl_addUnlessStopped_of_overflow {l r : List (Nat × Nat × Message)} {x : Nat × Nat × Message}
    (h : l.foldl (fun (a : Option Bank) y => a.bind (addToken s g y.2.2 gn tile token)) (some b) = some b')
    (hover : addToken s g x.2.2 gn tile token b' = none) :
    (l ++ x :: r).foldl (addUnlessStopped s g gn tile token) (b, none) = (b', some x.1) := by
  have hstop : addUnlessStopped s g gn tile token (b', none) x = (b', some x.1) := by simp [addUnlessStopped, hover]
  rw [List.foldl_append, foldl_addUnlessStopped_of_adds h, List.foldl_cons, hstop, foldl_addUnlessStopped_of_stopped]

end

/-! ## The next state -/

/-- A bank takes its new elements, the contributions' positions are written, and those that are written everywhere leave flight. -/
def State.withSums (s : State) (gn : Nat) (isB : Bool) (g : Group) (b' : Bank) (marks : State → State) : State :=
  advance g.job (retireBank gn isB (marks (s.updBank gn isB (fun _ => b'))))

section
variable {b' : Bank} {marks : State → State} (hmarks : ∀ u, (marks u).accum = u.accum)
include hmarks

theorem withSums_accum : (s.withSums gn isB g b' marks).accum = (s.updBank gn isB (fun _ => b')).accum := by
  simp [State.withSums, hmarks]

theorem group?_withSums_same (hgroup : s.group? gn = some g) :
    (s.withSums gn isB g b' marks).group? gn = some (g.updBank isB (fun _ => b')) :=
  (group?_of_groups (congrArg (·.groups) (withSums_accum hmarks)) gn).trans (group?_updBank_same _ hgroup)

theorem group?_withSums_other {k : Nat} (h : k ≠ gn) : (s.withSums gn isB g b' marks).group? k = s.group? k :=
  (group?_of_groups (congrArg (·.groups) (withSums_accum hmarks)) k).trans (group?_updBank_other _ h)

theorem withSums_jobs : (s.withSums gn isB g b' marks).accum.jobs = s.accum.jobs :=
  congrArg (·.jobs) (withSums_accum hmarks)

end

theorem withSums_mem {b' : Bank} {marks : State → State} (hmarks : ∀ u, (marks u).mem = u.mem) :
    (s.withSums gn isB g b' marks).mem = s.mem := by simp [State.withSums, hmarks]

/-! ## The two instructions -/

/-- Marks the positions of a descent's contributions as written. -/
def markRows (gn : Nat) (g : Group) (tile token : Nat) (rows : List (Nat × Nat × Message)) (s : State) : State :=
  rows.foldl (fun s x => markWritten s x.2.1 gn g x.2.2.large tile token) s

@[simp] theorem markRows_accum (tile token : Nat) (rows : List (Nat × Nat × Message)) (u : State) :
    (markRows gn g tile token rows u).accum = u.accum :=
  foldl_keeps (fun v : State => v.accum = u.accum) _ _ _ rfl (fun _ _ hv => hv)
@[simp] theorem markRows_mem (tile token : Nat) (rows : List (Nat × Nat × Message)) (u : State) :
    (markRows gn g tile token rows u).mem = u.mem :=
  foldl_keeps (fun v : State => v.mem = u.mem) _ _ _ rfl (fun _ _ hv => hv)

/-- Marks one contribution's positions of a bank tile as written. -/
def markTokens (m gn : Nat) (g : Group) (large : Bool) (toks : List (Nat × Nat)) (s : State) : State :=
  toks.foldl (fun s t => markWritten s m gn g large t.1 t.2) s

@[simp] theorem markTokens_accum (m : Nat) (large : Bool) (toks : List (Nat × Nat)) (u : State) :
    (markTokens m gn g large toks u).accum = u.accum :=
  foldl_keeps (fun v : State => v.accum = u.accum) _ _ _ rfl (fun _ _ hv => hv)
@[simp] theorem markTokens_mem (m : Nat) (large : Bool) (toks : List (Nat × Nat)) (u : State) :
    (markTokens m gn g large toks u).mem = u.mem :=
  foldl_keeps (fun v : State => v.mem = u.mem) _ _ _ rfl (fun _ _ hv => hv)

/-- How a descent ends, given the bank as far as it was added to and the contribution that overflowed, if one did. -/
def endDescent (gn : Nat) (g : Group) (isB : Bool) (tile token : Nat) (rows : List (Nat × Nat × Message)) (r : Bank × Option Nat)
    (s : State) : State :=
  match r.2 with
  | some q => report gn isB (g.sliceOf tile) q s
  | none => s.withSums gn isB g r.1 (markRows gn g tile token rows)

/-- DESCENT_WRITTEN of contributions that may descend together, in the order that the group's kind of order gives (R49, R164). -/
theorem exec_descentWritten_of_rows {tile token : Nat} {seqs qs : List Nat} {rows : List (Nat × Nat × Message)}
    (hgroup : s.group? gn = some g) (hbank : seqs.head?.bind g.bankOfSeq = some isB)
    (hqs : (if g.relaxed then seqs else sortBy id seqs) = qs) (hfailed : g.failed = none) (hspilled : g.spilled = false)
    (hfew : qs.length ≤ 8) (hascending : ascending (sortBy id qs) = true) (htakes : ∀ q ∈ qs, (g.bank isB).takes q = true)
    (htile : tile < g.tiles) (htoken : token < s.tokens g tile)
    (hreported : ∀ r, (g.bank isB).reported (g.sliceOf tile) = some r → ∀ q ∈ qs, q < r)
    (hcrosses : (unit g.slices (g.sliceOf tile)).crosses qs = false)
    (horder : g.relaxed = true
      ∨ ((∀ q ∈ qs, (unit g.slices (g.sliceOf tile)).buffers q = false) ∧ s.inOrder gn g isB tile qs = true))
    (hrows : s.rows gn g tile token qs = some rows) :
    exec (.descentWritten gn tile token seqs) s = .next (endDescent gn g isB tile token rows
      (rows.foldl (addUnlessStopped s g gn tile token) (g.bank isB, none)) s) := by
  have hrow : exec (.descentWritten gn tile token seqs) s = execDescentWritten gn tile token seqs s := rfl
  have hall : qs.all (g.bank isB).takes = true := List.all_eq_true.2 htakes
  have hfree : (!g.relaxed && qs.any (unit g.slices (g.sliceOf tile)).buffers) = false := by
    rcases horder with hrelaxed | ⟨hbuffers, -⟩
    · simp [hrelaxed]
    · simpa using fun _ => hbuffers
  have hordered : (g.relaxed || s.inOrder gn g isB tile qs) = true := by
    rcases horder with hrelaxed | ⟨-, horder⟩
    · simp [hrelaxed]
    · simp [horder]
  simp only [hrow, execDescentWritten, hgroup, hbank, hqs]
  rw [if_neg, hrows]
  · rfl
  · simp only [hfailed, hspilled, hascending, hall, hcrosses, hfree, hordered, Option.isSome_none, Bool.not_true, Bool.or_false,
      Bool.false_eq_true, false_or, or_false, not_or, Nat.not_lt, ge_iff_le, Nat.not_le]
    refine ⟨hfew, htile, htoken, ?_⟩
    split
    · simp
    · next r hr => simpa using hreported r hr

/-- How a spilled update ends, given the bank that the whole tile's additions make, if none overflows. -/
def endSpillUpdate (gn : Nat) (g : Group) (isB : Bool) (bt seq j m : Nat) (k : Message) (s : State) : Option Bank → State
  | none => report gn isB j seq s
  | some b => s.withSums gn isB g { b with nexts := Table.put b.nexts bt (seq + 1) } (markTokens m gn g k.large (g.tokensOf bt))

/-- SPILL_UPDATE_APPLY of the contribution that the bank tile's NEXT names, once the node has taken its tiles (R185). -/
theorem exec_spillUpdateApply_of_next {bt seq m : Nat} {k : Message} (hgroup : s.group? gn = some g) (hbank : g.bankOfSeq seq = some isB)
    (hholder : s.holder gn seq = some (m, k)) (hfailed : g.failed = none) (hspilled : g.spilled = true) (htile : bt < g.bankTiles)
    (hnext : seq = (g.bank isB).nextOf bt) (htaken : ∀ x ∈ g.tokensOf bt, s.taken k gn g x.1 = true)
    (hreported : ∀ r, (g.bank isB).reported (g.sliceOf (((g.tokensOf bt).head?.map (·.1)).getD 0)) = some r → seq < r)
    (horder : g.relaxed = true ∨ (unit g.slices (g.sliceOf (((g.tokensOf bt).head?.map (·.1)).getD 0))).buffers seq = false) :
    exec (.spillUpdateApply gn bt seq) s
      = .next (endSpillUpdate gn g isB bt seq (g.sliceOf (((g.tokensOf bt).head?.map (·.1)).getD 0)) m k s
          ((g.tokensOf bt).foldl (fun (a : Option Bank) x => a.bind (addToken s g k gn x.1 x.2)) (some (g.bank isB)))) := by
  have hrow : exec (.spillUpdateApply gn bt seq) s = execSpillUpdateApply gn bt seq s := rfl
  have hready : (g.tokensOf bt).all (fun t => s.taken k gn g t.1) = true := List.all_eq_true.2 htaken
  have hfree : (!g.relaxed && (unit g.slices (g.sliceOf (((g.tokensOf bt).head?.map (·.1)).getD 0))).buffers seq) = false := by
    rcases horder with hrelaxed | hbuffers
    · simp [hrelaxed]
    · simp [hbuffers]
  simp only [hrow, execSpillUpdateApply, hgroup, hbank, hholder]
  rw [if_neg]
  · cases (g.tokensOf bt).foldl (fun (a : Option Bank) x => a.bind (addToken s g k gn x.1 x.2)) (some (g.bank isB)) <;> rfl
  · simp only [hfailed, hspilled, hready, hfree, ← hnext, Option.isSome_none, Bool.not_true, Bool.false_eq_true, ne_eq,
      not_true_eq_false, false_or, or_false, not_or, ge_iff_le, Nat.not_le]
    refine ⟨htile, ?_⟩
    split
    · simp
    · next r hr => simpa using hreported r hr

/-- Settles O19: each instruction's end as its equation gives it, the descent's fold stopping at the first overflow. -/
theorem descentsAddContributions : Obligations.DescentsAddContributions := by
  unfold Obligations.DescentsAddContributions
  refine ⟨?descent, ?spilled⟩
  case descent =>
    intro s gn tile token seqs g isB rows hgroup hbank qs b hfailed hspilled hfew hascending htakes htile htoken hreported hcrosses
      horder hrows
    have hexec := exec_descentWritten_of_rows hgroup hbank rfl hfailed hspilled hfew hascending htakes htile htoken hreported hcrosses
      horder hrows
    refine ⟨fun b' hadds => ?_, fun l x r b' hsplit hadds hover => ?_⟩
    · rw [foldl_addUnlessStopped_of_adds hadds] at hexec
      have hmarks := markRows_accum (gn := gn) (g := g) tile token rows
      exact ⟨_, hexec, group?_withSums_same hmarks hgroup, fun k hk => group?_withSums_other hmarks hk, withSums_jobs hmarks,
        withSums_mem (markRows_mem tile token rows)⟩
    · rw [hsplit, foldl_addUnlessStopped_of_overflow hadds hover] at hexec
      exact hexec
  case spilled =>
    intro s gn bt seq m g isB k hgroup hbank hholder hfailed hspilled htile hnext htaken j hreported horder
    have hexec := exec_spillUpdateApply_of_next hgroup hbank hholder hfailed hspilled htile hnext htaken hreported horder
    refine ⟨fun b' hadds => ?_, fun hover => ?_⟩
    · rw [hadds] at hexec
      have hmarks := markTokens_accum (gn := gn) (g := g) m k.large (g.tokensOf bt)
      exact ⟨_, hexec, group?_withSums_same hmarks hgroup, fun x hx => group?_withSums_other hmarks hx, withSums_jobs hmarks,
        withSums_mem (markTokens_mem m k.large (g.tokensOf bt))⟩
    · rw [hover] at hexec
      exact hexec

end Sys2Proof.Machine
end

section
/-! SUPPORT. A group that fails (R182). -/

namespace Sys2Proof.Machine

open Sys2Proof

variable {s t : State} {gn : Nat} {g : Group} {why : GroupFail}

/-- The group is open and has failed for this reason. -/
def State.hasFailed (s : State) (gn : Nat) (why : GroupFail) : Prop := ∃ h, s.group? gn = some h ∧ h.failed = some why

theorem hasFailed_of_accum (h : t.accum = s.accum) (hs : s.hasFailed gn why) : t.hasFailed gn why := by
  obtain ⟨k, hk, hf⟩ := hs
  exact ⟨k, (group?_of_groups (congrArg (·.groups) h) gn).trans hk, hf⟩

theorem hasFailed_updBank (isB : Bool) (f : Bank → Bank) (hs : s.hasFailed gn why) : (s.updBank gn isB f).hasFailed gn why := by
  obtain ⟨k, hk, hf⟩ := hs
  exact ⟨_, group?_updBank_same f hk, (updBank_failed f).trans hf⟩

@[simp] theorem dropSum_accum (l : Nat) : (dropSum l gn s).accum = s.accum := rfl

@[simp] theorem drainEnded_accum (isB longSum : Bool) : (drainEnded gn isB longSum s).accum = s.accum := by
  unfold drainEnded
  refine foldl_keeps (fun u : State => u.accum = s.accum) _ _ _ rfl (fun u e hu => ?_)
  dsimp only
  split
  · split
    · split
      · exact (complete_accum _ _ _ _ _).trans hu
      · exact hu
    · exact hu
  · exact hu

/-- A failed group's bank that is erased leaves the group failed. -/
theorem hasFailed_beginZeroing (isB : Bool) (hs : s.hasFailed gn why) : (beginZeroing gn isB s).hasFailed gn why :=
  hasFailed_of_accum ((freeLedgers_accum _).trans rfl) (hasFailed_updBank isB _ hs)

/-- A gate item that is erased, unless it has been released, leaves the group failed. -/
theorem hasFailed_dropItem (isB released : Bool) (hs : s.hasFailed gn why) : State.hasFailed (if released then s
    else { s with gate := { s.gate with items := Table.del s.gate.items (itemKey gn isB) } }) gn why :=
  iteInduction (motive := (State.hasFailed · gn why)) (fun _ => hs) (fun _ => hasFailed_of_accum rfl hs)

/-- A group that fails has failed once all that waits for it has ended. -/
theorem hasFailed_failGroup (isB : Bool) (core seq slice epoch : Nat) (hgroup : s.group? gn = some g) :
    (failGroup gn why isB core seq slice epoch s).hasFailed gn why := by
  unfold failGroup
  simp only [hgroup]
  refine hasFailed_of_accum (advance_accum _) (hasFailed_of_accum rfl ?_)
  refine foldl_keeps (fun u : State => u.hasFailed gn why) _ _ _ ?_ (fun u e hu => hasFailed_of_accum (dropSum_accum _) hu)
  refine foldl_keeps (fun u : State => u.hasFailed gn why) _ _ _ ?_ (fun u b hu => ?_)
  · refine foldl_keeps (fun u : State => u.hasFailed gn why) _ _ _ ?_ (fun u e hu => hasFailed_of_accum (complete_accum _ _ _ _ _) hu)
    refine hasFailed_of_accum (dropFlight_accum _) ⟨{ g with failed := some why }, group?_updGroup_same _ ?_, rfl⟩
    exact (group?_of_groups (congrArg (·.groups) (post_accum _ _ _ _ _ _ s)) gn).trans hgroup
  · refine iteInduction (motive := (State.hasFailed · gn why)) (fun _ => ?_) (fun _ => hasFailed_dropItem b _ hu)
    exact hasFailed_of_accum (drainEnded_accum _ _) (hasFailed_beginZeroing b (hasFailed_dropItem b _ hu))

end Sys2Proof.Machine
end

section
/-! SUPPORT. The scale arbiter halves a bank and has its later contributions apply again; ACC_CONFIGURE (R176, R181, R182). -/

namespace Sys2Proof.Machine

open Sys2Proof

variable {s : State} {gn : Nat} {g : Group} {isB : Bool}

/-! ## Contributions that are to apply again -/

/-- A message's tiles of a group are written nowhere. -/
def Message.unwritten (k : Message) (gn : Nat) : Prop := ∀ x ∈ k.tiles, x.group = gn → x.done = []

/-- Message `m`, where it is still there, has its tiles of a group written nowhere. -/
def State.unwritten (s : State) (gn m : Nat) : Prop := ∀ k, s.msg? m = some k → k.unwritten gn

/-- A change of its tiles that writes none leaves a message unwritten. -/
theorem Message.unwritten_map {k : Message} {f : SpliceTile → SpliceTile} (hf : ∀ x, (f x).group = x.group)
    (hdone : ∀ x, x.done = [] → (f x).done = []) (h : k.unwritten gn) : ({ k with tiles := k.tiles.map f } : Message).unwritten gn := by
  intro y hy hgn
  obtain ⟨x, hx, rfl⟩ := List.mem_map.1 hy
  exact hdone x (h x hx ((hf x).symm.trans hgn))

theorem unwritten_of_msgs {t : State} {m : Nat} (h : t.ingest.msgs = s.ingest.msgs) (hs : s.unwritten gn m) : t.unwritten gn m :=
  fun k hk => hs k (by rwa [State.msg?, h] at hk)

theorem msg?_updMsg_eq_map (m : Nat) (f : Message → Message) : (s.updMsg m f).msg? m = (s.msg? m).map f := Table.get?_upd_same _ _ _

theorem unwritten_updMsg {m i : Nat} {f : Message → Message} (hf : ∀ k, k.unwritten gn → (f k).unwritten gn)
    (hs : s.unwritten gn m) : (s.updMsg i f).unwritten gn m := by
  intro k hk
  by_cases him : m = i
  · subst him
    rw [msg?_updMsg_eq_map, Option.map_eq_some_iff] at hk
    obtain ⟨k', hk', rfl⟩ := hk
    exact hf k' (hs k' hk')
  · exact hs k ((msg?_updMsg_other f him).symm.trans hk)

/-- A tile of the group is to be written again from its first position. -/
def SpliceTile.unwrite (gn : Nat) (t : SpliceTile) : SpliceTile := if t.group = gn then { t with done := [] } else t

/-- The contributions of these messages to a group are to apply again. -/
def unwriteAll (gn : Nat) (later : List (Nat × Nat)) (s : State) : State :=
  later.foldl (fun s e => s.updMsg e.1 (fun k => { k with tiles := k.tiles.map (·.unwrite gn) })) s

theorem Message.unwritten_unwrite (k : Message) : ({ k with tiles := k.tiles.map (·.unwrite gn) } : Message).unwritten gn := by
  intro y hy hgn
  obtain ⟨x, -, rfl⟩ := List.mem_map.1 hy
  simp only [SpliceTile.unwrite] at hgn ⊢
  split
  · rfl
  · next hx =>
    rw [if_neg hx] at hgn
    exact absurd hgn hx

@[simp] theorem unwriteAll_offFlow (later : List (Nat × Nat)) : (unwriteAll gn later s).offFlow = s.offFlow :=
  foldl_keeps (fun u : State => u.offFlow = s.offFlow) _ _ _ rfl (fun _ _ hu => (updMsg_offFlow _ _).trans hu)

theorem unwritten_unwriteAll {later : List (Nat × Nat)} {m : Nat} (hm : m ∈ later.map (·.1)) :
    (unwriteAll gn later s).unwritten gn m := by
  induction later generalizing s with
  | nil => cases hm
  | cons e later ih =>
    rcases List.mem_cons.1 hm with rfl | hlater
    · refine foldl_keeps (fun u : State => u.unwritten gn e.1) _ later _ (fun k hk => ?_)
        (fun u i hu => unwritten_updMsg (fun k _ => k.unwritten_unwrite) hu)
      rw [msg?_updMsg_eq_map, Option.map_eq_some_iff] at hk
      obtain ⟨k', -, rfl⟩ := hk
      exact k'.unwritten_unwrite
    · exact ih hlater

/-- The cores of the list count the tiles that rewind (R156). -/
def countRewinds (p : Nat → SpliceTile → Bool) (cores : List Nat) (s : State) : State :=
  cores.foldl (fun s c => if s.tilesOn p c = 0 then s
    else s.updCore c (fun k => { k with tiles := satAdd k.tiles (s.tilesOn p c), rewinds := satAdd k.rewinds 1 })) s

/-- Nothing but the cores' counts changes. -/
theorem countRewinds_eq (p : Nat → SpliceTile → Bool) (cores : List Nat) :
    ∃ faults, countRewinds p cores s = { s with faults := faults } := by
  refine foldl_keeps (fun u => ∃ faults, u = { s with faults := faults }) _ _ _ ⟨s.faults, rfl⟩ (fun u c hu => ?_)
  split
  · exact hu
  · obtain ⟨faults, rfl⟩ := hu
    exact ⟨_, rfl⟩

/-- Splices that rewind change the cores' counts, and rewind the tiles of their messages. -/
theorem rewindTiles_eq (p : Nat → SpliceTile → Bool) : ∃ faults, rewindTiles p s = { s with
    faults := faults
    ingest := { s.ingest with msgs := Table.mapAll s.ingest.msgs (fun i k =>
      { k with tiles := k.tiles.map (fun t => if p i t then t.rewound else t) }) } } := by
  obtain ⟨faults, hcounts⟩ := countRewinds_eq (s := s) p (List.range 36)
  refine ⟨faults, ?_⟩
  rw [countRewinds] at hcounts
  simp only [rewindTiles, hcounts]

@[simp] theorem rewindTiles_offFlow (p : Nat → SpliceTile → Bool) : (rewindTiles p s).offFlow = s.offFlow := by
  obtain ⟨faults, hrewound⟩ := rewindTiles_eq (s := s) p
  rw [hrewound]
  rfl

theorem unwritten_rewindTiles {m : Nat} (p : Nat → SpliceTile → Bool) (hs : s.unwritten gn m) :
    (rewindTiles p s).unwritten gn m := by
  obtain ⟨faults, hrewound⟩ := rewindTiles_eq (s := s) p
  intro k hk
  rw [hrewound, State.msg?, Table.get?_mapAll, Option.map_eq_some_iff] at hk
  obtain ⟨k', hk', rfl⟩ := hk
  refine Message.unwritten_map (fun x => ?_) (fun x hx => ?_) (hs k' hk')
  · split <;> rfl
  · split
    · exact hx
    · exact hx

/-- Tiles that move into ACCUMULATE are not written by that. -/
theorem unwritten_movePlace {m i : Nat} (x : SpliceTile) (q : TilePlace) (hs : s.unwritten gn m) :
    (movePlace i x q s).unwritten gn m := by
  refine movePlace_keeps (p := fun u => u.unwritten gn m) hs
    (fun core station u hu => unwritten_of_msgs (msgs_of_offWire (traceTile_offWire i x core station)) hu)
    (fun made u hu => unwritten_updMsg (fun k hk => Message.unwritten_map (fun y => ?_) (fun y hy => ?_) hk) hu)
  · split <;> rfl
  · split
    · exact hy
    · exact hy

theorem unwritten_advance {m : Nat} (j : Nat) (hs : s.unwritten gn m) : (advance j s).unwritten gn m :=
  advance_keeps (p := fun u => u.unwritten gn m) j hs (fun _ x q _ hu => unwritten_movePlace x q hu)

/-! ## SCALE_CONFIRM (R181, R182) -/

/-- The bank's contributions in flight from s* on: message and sequence number. -/
def State.laterThan (s : State) (gn : Nat) (b : Bank) (star : Nat) : List (Nat × Nat) :=
  (s.inFlight gn).filter (fun e => b.takes e.2 ∧ star ≤ e.2)

/-- The bank without what those contributions have added to it. -/
def State.bankBefore (s : State) (gn : Nat) (g : Group) (later : List (Nat × Nat)) (b : Bank) : Bank :=
  later.foldl (fun b e => ((s.msg? e.1).map (fun k => undo s g gn k b)).getD b) b

/-- A bank that has been undone to `back` takes a step of its exponent. -/
def Bank.stepped (b back : Bank) (star : Nat) : Bank :=
  { Bank.halve back with
    scale := b.scale - 1, steps := b.steps + 1, reports := [], nexts := (Bank.halve back).nexts.map (fun x => (x.1, min x.2 star)) }

/-- The arbiter's step: the bank takes it, and the contributions from s* on are issued and applied again. -/
def scaleStep (gn : Nat) (isB : Bool) (g : Group) (star core : Nat) (s : State) : State :=
  let b := g.bank isB
  let later := s.laterThan gn b star
  let s := unwriteAll gn later (s.updBank gn isB (fun _ => b.stepped (s.bankBefore gn g later b) star))
  let s := rewindTiles (fun m t => later.any (fun e => e.1 == m) && t.group == gn && t.issued) s
  advance g.job <| post .scaleStep 0x01 core (BitVec.ofNat 8 g.job) (BitVec.ofNat 8 gn)
    ([if isB then 1 else 0, BitVec.ofNat 8 (b.steps + 1), BitVec.ofInt 8 (b.scale - 1), 0] ++ toLE 4 b.take) s

/-- SCALE_CONFIRM of a report that every slice bears out. -/
theorem exec_scaleConfirm_of_confirmable {j star : Nat} (hgroup : s.group? gn = some g)
    (hcandidate : (g.bank isB).candidate = some (j, star)) (hfailed : g.failed = none)
    (hconfirmable : s.confirmable gn g isB star = true) :
    exec (.scaleConfirm gn isB) s = .next (if (g.bank isB).steps = 8
      then failGroup gn .scaleExhausted isB (unit g.slices j).core 0 0 0 s
      else scaleStep gn isB g star (unit g.slices j).core s) := by
  have hrow : exec (.scaleConfirm gn isB) s = execScaleConfirm gn isB s := rfl
  simp only [hrow, execScaleConfirm, hgroup, hcandidate]
  rw [if_neg (by simp [hfailed, hconfirmable])]
  rfl

theorem scaleStep_offFlow (star core : Nat) : (scaleStep gn isB g star core s).offFlow
    = (s.updBank gn isB (fun _ => (g.bank isB).stepped
        (s.bankBefore gn g (s.laterThan gn (g.bank isB) star) (g.bank isB)) star)).offFlow := by simp [scaleStep]

theorem unwritten_scaleStep {m : Nat} (star core : Nat) (hm : m ∈ (s.laterThan gn (g.bank isB) star).map (·.1)) :
    (scaleStep gn isB g star core s).unwritten gn m := by
  unfold scaleStep
  refine unwritten_advance _ (unwritten_of_msgs (congrArg (·.msgs) (post_ingest _ _ _ _ _ _ _)) ?_)
  exact unwritten_rewindTiles _ (unwritten_unwriteAll hm)

/-! ## SCALE_CONFIRM_TIMEOUT (R408) -/

/-- SCALE_CONFIRM_TIMEOUT of a group that waits for a confirmation acts as a station tile timeout. -/
theorem exec_scaleConfirmTimeout_of_reports {j : Nat} (hgroup : s.group? gn = some g)
    (hreports : g.bankA.reports ≠ [] ∨ g.bankB.reports ≠ []) : exec (.scaleConfirmTimeout gn j) s = .next (tileTimeout gn j s) := by
  have hrow : exec (.scaleConfirmTimeout gn j) s = execScaleConfirmTimeout gn j s := rfl
  simp only [hrow, execScaleConfirmTimeout, hgroup]
  refine congrArg _ (if_neg fun ⟨hA, hB⟩ => ?_)
  rcases hreports with hreports | hreports
  · exact hreports (List.isEmpty_iff.1 hA)
  · exact hreports (List.isEmpty_iff.1 hB)

/-! ## ACC_CONFIGURE (R176) -/

/-- The CLIP fields of ACC_CONFIGURE are in order: no clip and a norm of zero, or a positive norm in a mode T job of a FIX or float group
whose graph has a CLIP node. -/
def ClipFields (c : Cmd) (g : Group) (jb : Job) : Prop :=
  (c.inl 1 1 = 0 ∧ c.inl 8 8 = 0)
    ∨ (c.inl 1 1 = 1 ∧ (dec64 (BitVec.ofNat 64 (c.inl 8 8))).finite = true
      ∧ (dec64 (BitVec.ofNat 64 (c.inl 8 8))).le (dec64 fzero) = false ∧ jb.mode = some .trusted ∧ isU g.format = false
      ∧ isRns g.format = false ∧ ∃ k, jb.graph = some k ∧ k.nodes.any (fun n => n.station == 4) = true)

/-- ACC_CONFIGURE of a group in a job with no take open. -/
theorem opAccConfigure_of_clipFields {cid : Nat} {c : Cmd} {jb : Job} (hnumber : c.inl 0 1 < 64) (hgroup : s.group? (c.inl 0 1) = some g)
    (hfailed : g.failed = none) (hjob : s.job? g.job = some jb) (hfilling : jb.filling = none) (hfrac : c.inl 2 1 ≤ maxFrac g.format)
    (hlow : nonZero? c.slate 35 5 = none) (hhigh : nonZero? c.slate 48 16 = none) (hclip : ClipFields c g jb) :
    opAccConfigure cid c s = ok 0 (s.updGroup (c.inl 0 1) (fun g => { g with
      frac := c.inl 2 1, clip := decide (c.inl 1 1 = 1), clipNorm := BitVec.ofNat 64 (c.inl 8 8) })) := by
  rcases hclip with ⟨hoff, hzero⟩ | ⟨hon, hfinite, hpositive, hmode, hU, hRns, k, hgraph, hnode⟩
  · simp [opAccConfigure, hnumber, hgroup, hfailed, hjob, hfilling, hoff, hzero, hfrac, checks,
      resInline_of_none (off := 3) hlow, resInline_of_none (off := 16) hhigh]
  · simp [opAccConfigure, hnumber, hgroup, hfailed, hjob, hfilling, hon, hfinite, hpositive, hfrac, hmode, hU, hRns,
      hgraph, hnode, checks, resInline_of_none (off := 3) hlow, resInline_of_none (off := 16) hhigh]

/-- Settles O20: the arbiter's step and its failure as their equations give them, the timeout as a station tile timeout, and
ACC_CONFIGURE's verdict. -/
theorem theScaleArbiterAndAccConfigure : Obligations.TheScaleArbiterAndAccConfigure := by
  unfold Obligations.TheScaleArbiterAndAccConfigure
  refine ⟨?confirm, ?timeout, ?configure⟩
  case confirm =>
    intro s gn j star isB g hgroup hcandidate hfailed hconfirmable b later back
    have hexec := exec_scaleConfirm_of_confirmable hgroup hcandidate hfailed hconfirmable
    refine ⟨fun hsteps => ?_, fun hsteps => ?_⟩
    · rw [if_neg hsteps] at hexec
      have hsame := scaleStep_offFlow (s := s) (gn := gn) (g := g) (isB := isB) star (unit g.slices j).core
      have hgroups (k : Nat) := group?_of_groups (congrArg (·.groups) (accum_of_offFlow hsame)) k
      refine ⟨_, _, hexec, (hgroups gn).trans (group?_updBank_same _ hgroup), ?_, ?_, ?_, ?_, bank_updBank_not _, ?_, ?_, ?_, ?_⟩
      · rw [bank_updBank_same]; rfl
      · rw [bank_updBank_same]; rfl
      · rw [bank_updBank_same]; rfl
      · rw [bank_updBank_same]; rfl
      · exact fun m k hm hk => unwritten_scaleStep star _ hm k hk
      · exact fun k hk => (hgroups k).trans (group?_updBank_other _ hk)
      · exact (mem_of_offFlow hsame).trans (updBank_mem _)
      · exact (out_of_offFlow hsame).trans (updBank_out _)
    · rw [if_pos hsteps] at hexec
      obtain ⟨h, hgroup', hfailed'⟩ := hasFailed_failGroup (why := .scaleExhausted) isB (unit g.slices j).core 0 0 0 hgroup
      exact ⟨_, h, hexec, hgroup', hfailed'⟩
  case timeout =>
    intro s gn j g hgroup hreports
    have hexec := exec_scaleConfirmTimeout_of_reports (j := j) hgroup hreports
    refine ⟨hexec, fun hslice hfailed hmoves hothers htimed => ?_⟩
    obtain ⟨core, hcore, hmove⟩ := tileTimeout_of_timed hgroup hslice hfailed hmoves hothers htimed
    obtain ⟨hactive, hother⟩ := List.mem_filter.1 hcore
    exact ⟨core, hactive, of_decide_eq_true hother, hexec.trans (next_congr hmove)⟩
  case configure =>
    intro s cid c g jb hstarted hnumber hgroup hfailed hjob hfilling hfrac hlow hhigh hclip
    exact next_congr (runRow_of_done_of_reel hstarted
      (opAccConfigure_of_clipFields hnumber hgroup hfailed hjob hfilling hfrac hlow hhigh hclip) rfl)

end Sys2Proof.Machine
end
